-- ==== Sys2Proof/Word.lean ====
section
/-! DEFINITION. The word types of the VX1284 and the shape of its sparse tables (spec/02 R33, Table 2.1).
The arithmetic over them stands in Machine/Bits.lean and Machine/F32.lean. -/

namespace Sys2Proof

/-- The 36-bit native word (spec/02 R33). -/
abbrev Word := BitVec 36

/-- A binary32 value (spec/02 Table 2.1, format F32). -/
abbrev F32 := BitVec 32

/-- One byte, as the rings, the graft link and the flash carry it. -/
abbrev Byte := BitVec 8

/-- A sparse table keyed by a number, in one canonical form: keys strictly rising, and no entry equal to the value
an unlisted key reads as (Machine/Bits.lean: `tabGet`, `tabSet`, `tabWf`). -/
abbrev Tab (α : Type) := List (Nat × α)

end Sys2Proof
end

