-- ==== Sys2Proof/Machine/ImageData.lean ====
section
/-! DEFINITION. What the firmware reads from a loaded configuration image: the node map, the base mode and the overlays
(spec/11 R360, spec/01 R23, R653, spec/18 R574). The spec gives the content and not the word format of the image, so a
load brings this reading of it as data (log 40). Also the other data that commands bring and the state keeps. -/

namespace Sys2Proof.Machine

/-- A process image point of a node (spec/01 R653): its index, direction, image word, bits and fail-safe value. -/
structure MapPoint where
  index : Nat := 0
  output : Bool := false
  word : Nat := 0
  lo : Nat := 0
  width : Nat := 1
  failSafe : Nat := 0
deriving DecidableEq, Repr, Inhabited

/-- A node of the node map (spec/11 R380, spec/01 R23). -/
structure MapNode where
  ringB : Bool := false
  id : Nat := 0
  vendor : Nat := 0
  product : Nat := 0
  minRev : Nat := 0
  optional : Bool := false
  axes : List Nat := []
  steppers : List Nat := []
  outWords : Nat := 0
  inWords : Nat := 0
  ioDiv : Nat := 1
  points : List MapPoint := []
  /-- Hedge connections bound to the node (spec/14 R480) -/
  conns : List Nat := []
deriving DecidableEq, Repr, Inhabited

/-- A slot entry a mode gives a node: entry number and the fields of N0 (spec/10 Table 10.12). -/
structure SlotSpec where
  ringB : Bool := false
  node : Nat := 0
  e : Nat := 0
  cls : Nat := 0
  sub : Nat := 0
  wofs : Nat := 0
  wlen : Nat := 0
deriving DecidableEq, Repr, Inhabited

/-- The overlay of a mode other than 0: what it adds, replaces or removes of the base (spec/11 R360). -/
structure Overlay where
  mode : Nat := 0
  rate : Nat := 0
  hsrc : Bool := false
  removed : List Nat := []
  replaced : List (Nat × Word × Word) := []
  added : List (Word × Word) := []
  slotsRemoved : List (Bool × Nat × Nat) := []
  slotsSet : List SlotSpec := []
deriving DecidableEq, Repr, Inhabited

/-- A configuration image as the firmware reads it. -/
structure Image where
  useA : Bool := false
  useB : Bool := false
  nodes : List MapNode := []
  rate : Nat := 0
  hsrc : Bool := false
  entries : List (Word × Word) := []
  slots : List SlotSpec := []
  overlays : List Overlay := []
  /-- the ring of the graft standby and other words of the base that PLAN checks for absent units (spec/00 R8) -/
  graft : Bool := false
  /-- the brakes bound to servo axes: a drive connection (true) or a local pair, its number, and the axis (spec/14 R459) -/
  brakes : List (Bool × Nat × Nat) := []
deriving DecidableEq, Repr, Inhabited

/-- A node's measurements of a DISCOVER Time step: delays in ns and forwarding latencies in 0.5 ns (spec/11 Table 11.10). -/
structure NodeTime where
  ringB : Bool := false
  pos : Nat := 0
  dlyE : Nat := 0
  dlyW : Nat := 0
  fwdE : Nat := 0
  fwdW : Nat := 0
deriving DecidableEq, Repr, Inhabited

/-- What a DISCOVER step brought back (spec/11 Table 11.10). -/
inductive StepResult where
  /-- Enumerate: node count of rings A and B, none where the transfer did not return or overflowed -/
  | enumerate (a b : Option Nat)
  /-- Identify: the identity records by ring and position, in order of position -/
  | identify (recs : List (Bool × List Word))
  /-- Time: the nodes' values and the path latencies E, W of rings A and B in ns -/
  | time (l : List NodeTime) (a b : Nat × Nat)
  /-- Configure: true when no node refused twice -/
  | configure (ok : Bool)
  /-- Scan: eye results by ring, position (0 the controller) and port -/
  | scan (l : List (Bool × Nat × Bool × Word × Word))
deriving DecidableEq, Repr, Inhabited

/-- An instruction of the IEEE 1149.1 test access port (spec/22 R629). -/
inductive TapIr where
  | bypass | idcode | sample | extest | extestPulse | clamp | highz
deriving DecidableEq, Repr, Inhabited

/-- A PCI Express configuration request (spec/20 R595, R598): one that changes nothing the spec names, a write of the MSI-X
enable and function mask, or one of a vector's mask (log 97). -/
inductive CfgReq where
  | other
  | msix (enable mask : Bool)
  | vector (v : Fin 32) (mask : Bool)
deriving DecidableEq, Repr, Inhabited

end Sys2Proof.Machine
end

