-- ==== Sys2Proof/Syntax.lean ====
section
/-! DEFINITION. The commands of the block: one constructor per row of spec/opcode_table.json, with the operands the spec
gives it. A command packet's row carries the packet's header and parameter words; the rows of the device's own events
carry what the event brings. -/

namespace Sys2Proof

/-- Where a command packet stands and its header's flags (spec/03 Table 3.1): queue, entry, sequence number, flags, and
the phase word of a packet with PHASED. The opcode and LEN are the row's. -/
structure PktHead where
  queue : Fin 5 := 0
  entry : Fin 256 := 0
  seq : BitVec 12 := 0
  urgent : Bool := false
  noResult : Bool := false
  inBundle : Bool := false
  phased : Bool := false
  phase : Word := 0
deriving DecidableEq, Repr

/-- A bit error of a Furrow memory's word that comes with an issue: memory 0 X, 1 Y, 2 C, 3 P, and the address. SECDED finds
it at once where the issue reads the word, else where the word is next read (spec/07 R259). -/
inductive EccHit where
  | clean
  | single (mem : Fin 4) (addr : Nat)
  | double (mem : Fin 4) (addr : Nat)
deriving DecidableEq, Repr

/-- What the scrubber found (spec/16 R516, R517, R521): a single-bit or an uncorrectable error of a word, or the CRC that the
words of a page gave it as it read them, by address. -/
inductive MemFind where
  | single (a : Nat)
  | double (a : Nat)
  | page (a : Nat) (crc : BitVec 32)
deriving DecidableEq, Repr

/-- A line of a port and the number of consecutive samples in which it has read its level (spec/09 R293, spec/15 R490). -/
structure LineRun where
  level : Bool
  samples : Nat
deriving DecidableEq, Repr

/-- The Hall lines H3 H2 H1, H1 in bit 0, and for how many samples H1, H2 and H3 have read so (spec/09 R293). -/
structure HallRun where
  lines : Fin 8
  r1 : Nat
  r2 : Nat
  r3 : Nat
deriving DecidableEq, Repr

/-- A ring port that synchronises, and whether 16 consecutive idles have come as well (spec/10 R313). -/
structure PortRise where
  p1 : Bool
  idles : Bool
deriving DecidableEq, Repr

/-- The commands: one constructor per row of spec/opcode_table.json, in its order. -/
inductive Instr where
  /-- NOP (header), spec R75 -/
  | nop (h : PktHead)
  /-- STATE_REQUEST (header, target state), spec R29 -/
  | stateRequest (h : PktHead) (t : Word)
  /-- MODE_SWITCH (header, target mode, lead L), spec R364 -/
  | modeSwitch (h : PktHead) (m : Word) (l : Word)
  /-- PT_ADJUST (header, increment high and low, rate word), spec R604 -/
  | ptAdjust (h : PktHead) (hi : Word) (lo : Word) (r : Word)
  /-- AXIS_ENABLE (header, axis), spec R208 -/
  | axisEnable (h : PktHead) (a : Word)
  /-- AXIS_DISABLE (header, axis), spec R163 -/
  | axisDisable (h : PktHead) (a : Word)
  /-- MOVE_ABS (header, axis, target, slack), spec R151 -/
  | moveAbs (h : PktHead) (a : Word) (p : Word) (k : Word)
  /-- MOVE_REL (header, axis, distance, slack), spec R151 -/
  | moveRel (h : PktHead) (a : Word) (p : Word) (k : Word)
  /-- MOVE_VEL (header, axis, velocity, slack), spec R160 -/
  | moveVel (h : PktHead) (a : Word) (v : Word) (k : Word)
  /-- MOVE_COORD (header, axis word, targets, slack), spec R156 -/
  | moveCoord (h : PktHead) (a : Word) (ts : List Word) (k : Word)
  /-- STOP (header, axis), spec R161 -/
  | stop (h : PktHead) (a : Word)
  /-- QUICK_STOP (header, axis or 0x3FF), spec R161 -/
  | quickStop (h : PktHead) (a : Word)
  /-- FAULT_CLEAR (header, axis), spec R217 -/
  | faultClear (h : PktHead) (a : Word)
  /-- LOAD_CLASS (header, axis, load class), spec R75 -/
  | loadClass (h : PktHead) (a : Word) (c : Word)
  /-- GEAR_ENGAGE (header, slave, master, numerator, denominator, ramp), spec R168 -/
  | gearEngage (h : PktHead) (o : Word) (m : Word) (n : Word) (d : Word) (r : Word)
  /-- GEAR_RATIO_AT (header, slave, master position, numerator, denominator, ramp), spec R172 -/
  | gearRatioAt (h : PktHead) (o : Word) (p : Word) (n : Word) (d : Word) (r : Word)
  /-- GEAR_DISENGAGE (header, slave), spec R170 -/
  | gearDisengage (h : PktHead) (o : Word)
  /-- STEP_ENABLE (header, stepper axis, enable, release), spec R279 -/
  | stepEnable (h : PktHead) (a : Word) (on : Word) (rel : Word)
  /-- STEP_MOVE (header, stepper axis, target, slack), spec R269 -/
  | stepMove (h : PktHead) (a : Word) (p : Word) (k : Word)
  /-- STEP_VEL (header, stepper axis, velocity, slack), spec R269 -/
  | stepVel (h : PktHead) (a : Word) (v : Word) (k : Word)
  /-- STEP_STOP (header, stepper axis or 0xFFF), spec R269 -/
  | stepStop (h : PktHead) (a : Word)
  /-- IO_WRITE (header, points and values), spec R23 -/
  | ioWrite (h : PktHead) (ps : List (Word × Word))
  /-- IO_READ (header, points), spec R653 -/
  | ioRead (h : PktHead) (ps : List Word)
  /-- BUNDLE_OPEN (header, expected member count where given), spec R115 -/
  | bundleOpen (h : PktHead) (n : Option Word)
  /-- BUNDLE_COMMIT (header, its phase the commit phase), spec R119 -/
  | bundleCommit (h : PktHead)
  /-- BUNDLE_ABORT (header), spec R128 -/
  | bundleAbort (h : PktHead)
  /-- PARAM_WRITE (header, object, first parameter number, values), spec R80 -/
  | paramWrite (h : PktHead) (o : Word) (n : Word) (vs : List Word)
  /-- PARAM_READ (header, object, first parameter number, count), spec R80 -/
  | paramRead (h : PktHead) (o : Word) (n : Word) (c : Word)
  /-- HARVEST_ARM (header, capture set, options), spec R487 -/
  | harvestArm (h : PktHead) (k : Word) (o : Word)
  /-- HARVEST_DISARM (header, capture set), spec R489 -/
  | harvestDisarm (h : PktHead) (k : Word)
  /-- MASK_LOAD (header, capture set, signal, bank address, points), spec R495 -/
  | maskLoad (h : PktHead) (k : Word) (g : Word) (a : Word) (n : Word)
  /-- BRAKE_TEST_REQ (header, brake), spec R470 -/
  | brakeTestReq (h : PktHead) (b : Word)
  /-- SAFE_STATUS_READ (header), spec R450 -/
  | safeStatusRead (h : PktHead)
  /-- LEDGER_READ (header, bank destination, maximum words), spec R592 -/
  | ledgerRead (h : PktHead) (a : Word) (n : Word)
  /-- JOURNAL_READ (header, queue, SEQ), spec R134 -/
  | journalRead (h : PktHead) (q : Word) (n : Word)
  /-- EGV_MODE (header, 1 on or 0 off), spec R394 -/
  | egvMode (h : PktHead) (on : Word)
  /-- CMDQ_TAIL_WRITE (writing MID, queue, value written), spec R59 -/
  | cmdqTailWrite (mid : Fin 32) (q : Fin 5) (v : Word)
  /-- CMDQ_REL_WRITE (writing MID, queue, value written), spec R87 -/
  | cmdqRelWrite (mid : Fin 32) (q : Fin 5) (v : Word)
  /-- CMDQ_CTL_WRITE (queue, value written), spec R96 -/
  | cmdqCtlWrite (q : Fin 5) (v : Word)
  /-- DMA_ERR_CLEAR (queue), spec R65 -/
  | dmaErrClear (q : Fin 5)
  /-- DEQUEUE (the device takes the packet that is next in order), spec R62 -/
  | dequeue
  /-- ENTRY_FETCH (queue, no error, the words of the entry at HEAD), spec R596 -/
  | entryFetch (q : Fin 5) (ok : Bool) (ws : List Word)
  /-- ADMISSION (place in the dispatch list), spec R102 -/
  | admission (k : Fin 64)
  /-- CMD_EVRD_WRITE (value written), spec R645 -/
  | cmdEvrdWrite (v : Word)
  /-- EVENT_LOG_CONFIG_WRITE (CMD_EVLEN rather than CMD_EVBASE, value written), spec R94 -/
  | eventLogConfigWrite (len : Bool) (v : Word)
  /-- SYS_PHSRC_WRITE (value written), spec R46 -/
  | sysPhsrcWrite (v : Word)
  /-- SYS_PHCPM_WRITE (value written), spec R46 -/
  | sysPhcpmWrite (v : Word)
  /-- SYS_VMRATE_WRITE (value written), spec R44 -/
  | sysVmrateWrite (v : Word)
  /-- SYS_RST_WHOLE (value written to SYS_RST), spec R567 -/
  | sysRstWhole (v : Word)
  /-- SYS_RST_UNIT (value written to SYS_RST), spec R567 -/
  | sysRstUnit (v : Word)
  /-- RELOAD (value written to SYS_CFG), spec R574 -/
  | reload (v : Word)
  /-- CFG_LOADED (what the firmware reads from the image in the slot), spec R574 -/
  | cfgLoaded (img : Machine.Image)
  /-- GO (SYS_BOOT.GO written), spec R571 -/
  | go
  /-- GO_TIMEOUT (10 s after BOOT_OK), spec R571 -/
  | goTimeout
  /-- FLASH_READ (LEN and ERR of the SYS_FLCMD write), spec R577 -/
  | flashRead (len : Fin 256) (clr : Bool)
  /-- FLASH_PROGRAM (LEN and ERR of the SYS_FLCMD write), spec R577 -/
  | flashProgram (len : Fin 256) (clr : Bool)
  /-- SECTOR_ERASE (ERR of the SYS_FLCMD write), spec R577 -/
  | sectorErase (clr : Bool)
  /-- FLASH_OPERATION_DONE (the flash reported an error), spec R577 -/
  | flashOperationDone (err : Bool)
  /-- MEASUREMENT_START (value written to CLK_MSEL), spec R558 -/
  | measurementStart (v : Word)
  /-- MEASUREMENT_DONE (edges counted, where the two clocks have no fixed ratio), spec R558 -/
  | measurementDone (k : Nat)
  /-- CLK_GATE_WRITE (CLK_GATECE rather than CLK_GATE, value written), spec R560 -/
  | clkGateWrite (ce : Bool) (v : Word)
  /-- PWR_BGRP_WRITE (value written), spec R564 -/
  | pwrBgrpWrite (v : Word)
  /-- HVS_FORCE_WRITE (value written to HVS_FORCE), spec R490 -/
  | hvsForceWrite (v : Word)
  /-- IDX_REARM (write of 1 to FPn_STAT.IDX_REARM), spec R302 -/
  | idxRearm (n : Fin 8)
  /-- FPN_CNT_WRITE (write of FPn_CNT), spec R300 -/
  | fpnCntWrite (n : Fin 8) (v : Word)
  /-- FPN_CFG_WRITE (write of FPn_CFG), spec R306 -/
  | fpnCfgWrite (n : Fin 8) (v : Word)
  /-- AGE_BASE_WRITE (value written), spec R582 -/
  | ageBaseWrite (v : Word)
  /-- FD_WINDOW_WRITE (unit, word offset from its block, value), spec R258 -/
  | fdWindowWrite (n : Fin 4) (off : Fin 65536) (v : Word)
  /-- LATCHING_READ (reading MID; PTM_FRCL, PTM_NOWL or PTM_SNCC), spec R611 -/
  | latchingRead (mid : Fin 32) (k : Fin 3)
  /-- RC_READ (reading MID, word address of a register that clears on read), spec R620 -/
  | rcRead (mid : Fin 32) (a : Nat)
  /-- SEM_READ (reading MID, semaphore), spec R527 -/
  | semRead (mid : Fin 32) (n : Fin 64)
  /-- SEM_WRITE (writing MID, semaphore), spec R529 -/
  | semWrite (mid : Fin 32) (n : Fin 64)
  /-- SEM_FORCE_WRITE (writing MID, value written), spec R530 -/
  | semForceWrite (mid : Fin 32) (v : Word)
  /-- MBX_SEND (MID that writes, channel, value written to MBXc_SEND), spec R537 -/
  | mbxSend (mid : Fin 32) (c : Fin 16) (v : Word)
  /-- MBX_POP (MID that writes, channel), spec R540 -/
  | mbxPop (mid : Fin 32) (c : Fin 16)
  /-- MBX_LOCK (value written to MBX_CTL), spec R534 -/
  | mbxLock (v : Word)
  /-- REGISTER_WRITE (writing MID, word address, value written), spec R617 -/
  | registerWrite (mid : Fin 32) (a : Nat) (v : Word)
  /-- PCIE_MEMORY_WRITE (BAR2 rather than BAR0, byte offset, bytes in order, none where a byte is not enabled), spec R35 -/
  | pcieMemoryWrite (bar2 : Bool) (off : Nat) (bs : List (Option (BitVec 8)))
  /-- PCIE_MEMORY_READ (BAR2 rather than BAR0, byte offset, bytes read), spec R34 -/
  | pcieMemoryRead (bar2 : Bool) (off : Nat) (n : Nat)
  /-- PCIE_CONFIG_REQUEST (a configuration request reaches the endpoint), spec R595 -/
  | pcieConfigRequest (r : Machine.CfgReq)
  /-- WRITE (the command byte is none of the four; word address, data bytes, a further byte cut short), spec R601 -/
  | spiWrite (bad : Bool) (a : Nat) (bs : List (BitVec 8)) (cut : Bool)
  /-- READ (word address, words read, words fetched beyond them, words not ready at their first bit), spec R602 -/
  | spiRead (a : Nat) (n : Nat) (ahead : Nat) (late : List Nat)
  /-- QWRITE (the command byte is none of the four; word address, data bytes, a further byte cut short), spec R601 -/
  | spiQwrite (bad : Bool) (a : Nat) (bs : List (BitVec 8)) (cut : Bool)
  /-- QREAD (word address, words read, words fetched beyond them, words not ready at their first bit), spec R602 -/
  | spiQread (a : Nat) (n : Nat) (ahead : Nat) (late : List Nat)
  /-- PORST_N_RELEASE (levels of UNIT_ID and BOOT_MODE), spec R547 -/
  | porstNRelease (unit : Fin 16) (mode : Fin 4)
  /-- RC_SETTLE_END (the settle count ends), spec R547 -/
  | rcSettleEnd
  /-- JUDGE_WINDOW (XO edges counted in the window), spec R548 -/
  | judgeWindow (c : Fin 4096)
  /-- PLL_LOCKED (the main PLLs lock), spec R545 -/
  | pllLocked
  /-- BANK_CLEAR_DONE (bank group), spec R526 -/
  | bankClearDone (g : Fin 8)
  /-- BOOT_IMAGE_CHECK (the image passes R569), spec R570 -/
  | bootImageCheck (ok : Bool)
  /-- PORST_N_LOW (PORST_N goes low), spec R565 -/
  | porstNLow
  /-- VDD_MONITOR (VDD below 0.72 V for 1 microsecond), spec R563 -/
  | vddMonitor
  /-- PERST_N_LOW (PERST_N goes low), spec R565 -/
  | perstNLow
  /-- PCIE_SIDE_RESET (hot reset, link disable or link down), spec R566 -/
  | pcieSideReset
  /-- THERMAL_TRIP (a junction reaches 125 degrees), spec R30 -/
  | thermalTrip
  /-- THERMAL_TRIP_END (every sensor below 115 degrees), spec R30 -/
  | thermalTripEnd
  /-- XO_FAILURE (the XO stops or drifts out of lock range), spec R552 -/
  | xoFailure
  /-- REFCLK_LOSS (the external REFCLK is lost), spec R553 -/
  | refclkLoss
  /-- THERMAL_SAMPLE (signed degrees of the four sensors), spec R398 -/
  | thermalSample (s0 : BitVec 9) (s1 : BitVec 9) (s2 : BitVec 9) (s3 : BitVec 9)
  /-- TDU_DISPATCH (the idle core), spec R404 -/
  | tduDispatch (c : Fin 4)
  /-- SYNC_POINT (the cycle timer starts the next network cycle), spec R14 -/
  | syncPoint
  /-- CAPTURE_FREEZE (capture set), spec R494 -/
  | captureFreeze (k : Fin 8)
  /-- HOLD_OFF_END (capture set), spec R493 -/
  | holdOffEnd (k : Fin 8)
  /-- FRAME_DEPARTURE (ring and path (built-in schedule), trellis entry), spec R351 -/
  | frameDeparture (b : Bool) (pw : Bool) (n : Fin 16384)
  /-- RING_FRAME_RECEIVED (ring B, port 1, arrival of /S/ in ns after the sync point, bytes from header to CRC, /V/
      seen), spec R348 -/
  | ringFrameReceived (b : Bool) (p1 : Bool) (t : Nat) (bytes : List Nat) (v : Bool)
  /-- GATHER_RETURN_TIMEOUT (ring B), spec R370 -/
  | gatherReturnTimeout (b : Bool)
  /-- RING_PORT_DOWN (ring B, port 1, signal still detected), spec R313 -/
  | ringPortDown (b : Bool) (p1 : Bool) (sig : Bool)
  /-- RING_PORT_UP (ring B, port 1), spec R313 -/
  | ringPortUp (b : Bool) (p : PortRise)
  /-- AXIS_COMPUTE (servo axis a), spec R183 -/
  | axisCompute (a : Fin 256)
  /-- START_DEADLINE (servo axis a), spec R205 -/
  | startDeadline (a : Fin 256)
  /-- RESULT_DEADLINE (servo axis a), spec R207 -/
  | resultDeadline (a : Fin 256)
  /-- FURROW_CALL_SELECT (Furrow unit n), spec R248 -/
  | furrowCallSelect (n : Fin 4)
  /-- FURROW_BUDGET_EXPIRY (Furrow unit n), spec R251 -/
  | furrowBudgetExpiry (n : Fin 4)
  /-- PARALLEL_INSTRUCTION (unit, SECDED finding), spec R227 -/
  | parallelInstruction (n : Fin 4) (h : EccHit)
  /-- MOV (unit, SECDED finding), spec R237 -/
  | fdMov (n : Fin 4) (h : EccHit)
  /-- ADD (unit, SECDED finding), spec R237 -/
  | fdAdd (n : Fin 4) (h : EccHit)
  /-- SUB (unit, SECDED finding), spec R237 -/
  | fdSub (n : Fin 4) (h : EccHit)
  /-- NEG (unit, SECDED finding), spec R237 -/
  | fdNeg (n : Fin 4) (h : EccHit)
  /-- ABS (unit, SECDED finding), spec R237 -/
  | fdAbs (n : Fin 4) (h : EccHit)
  /-- MIN (unit, SECDED finding), spec R237 -/
  | fdMin (n : Fin 4) (h : EccHit)
  /-- MAX (unit, SECDED finding), spec R237 -/
  | fdMax (n : Fin 4) (h : EccHit)
  /-- AND (unit, SECDED finding), spec R237 -/
  | fdAnd (n : Fin 4) (h : EccHit)
  /-- OR (unit, SECDED finding), spec R237 -/
  | fdOr (n : Fin 4) (h : EccHit)
  /-- XOR (unit, SECDED finding), spec R237 -/
  | fdXor (n : Fin 4) (h : EccHit)
  /-- ASR (unit, SECDED finding), spec R237 -/
  | fdAsr (n : Fin 4) (h : EccHit)
  /-- LSL (unit, SECDED finding), spec R237 -/
  | fdLsl (n : Fin 4) (h : EccHit)
  /-- MULQ (unit, SECDED finding), spec R237 -/
  | fdMulq (n : Fin 4) (h : EccHit)
  /-- KEEP (unit, SECDED finding), spec R237 -/
  | fdKeep (n : Fin 4) (h : EccHit)
  /-- EXT (unit, SECDED finding), spec R228 -/
  | fdExt (n : Fin 4) (h : EccHit)
  /-- LDA (unit, SECDED finding), spec R237 -/
  | fdLda (n : Fin 4) (h : EccHit)
  /-- ADDA (unit, SECDED finding), spec R237 -/
  | fdAdda (n : Fin 4) (h : EccHit)
  /-- CLRA (unit, SECDED finding), spec R237 -/
  | fdClra (n : Fin 4) (h : EccHit)
  /-- SETRB (unit, SECDED finding), spec R237 -/
  | fdSetrb (n : Fin 4) (h : EccHit)
  /-- GETRB (unit, SECDED finding), spec R237 -/
  | fdGetrb (n : Fin 4) (h : EccHit)
  /-- FD_NOP (unit, SECDED finding), spec R238 -/
  | fdNop (n : Fin 4) (h : EccHit)
  /-- RET (unit, SECDED finding), spec R250 -/
  | fdRet (n : Fin 4) (h : EccHit)
  /-- BR (unit, SECDED finding), spec R238 -/
  | fdBr (n : Fin 4) (h : EccHit)
  /-- LOOP (unit, SECDED finding), spec R244 -/
  | fdLoop (n : Fin 4) (h : EccHit)
  /-- SETM (unit, SECDED finding), spec R235 -/
  | fdSetm (n : Fin 4) (h : EccHit)
  /-- MOVP (unit, SECDED finding), spec R235 -/
  | fdMovp (n : Fin 4) (h : EccHit)
  /-- MOVD (unit, SECDED finding), spec R235 -/
  | fdMovd (n : Fin 4) (h : EccHit)
  /-- PROPOSAL_DECISION (the decision of the present cycle), spec R365 -/
  | proposalDecision
  /-- BUNDLE_DECISION (the decisions of the present cycle), spec R122 -/
  | bundleDecision
  /-- NODE_PARAM_TIMEOUT (queue and entry of the command), spec R651 -/
  | nodeParamTimeout (q : Fin 5) (e : Fin 256)
  /-- TIME_TRANSFER_PERIODIC (every 8,192 cycles), spec R382 -/
  | timeTransferPeriodic
  /-- GUARD_CHECK (a second ends), spec R588 -/
  | guardCheck
  /-- DISCOVER_LISTEN_END (the unit heard while listening), spec R377 -/
  | discoverListenEnd (u : Option (Fin 16))
  /-- DISCOVER_STEP (what the step brought back), spec R379 -/
  | discoverStep (r : Machine.StepResult)
  /-- DISCOVER_RETRY (100 ms after a failed step), spec R379 -/
  | discoverRetry
  /-- PLAN_REPROPOSE (100 ms after a failed mode-5 agreement), spec R381 -/
  | planRepropose
  /-- SLOT_ENTRIES_WRITTEN (every node has its mode 0 slot entries), spec R362 -/
  | slotEntriesWritten
  /-- DOMAIN_START (1 ms after DISCOVER entry), spec R554 -/
  | domainStart
  /-- DCLK_RISING_EDGE (a rising edge arrives on DCLK), spec R555 -/
  | dclkRisingEdge
  /-- DCLK_LOSS (no edge for 250 microseconds), spec R557 -/
  | dclkLoss
  /-- DOMAIN_CALIBRATION (every pulse came, arrival of the reference pulse and round trip of the echo in ns), spec
      R503 -/
  | domainCalibration (got : Bool) (a : Nat) (r : Nat)
  /-- XTRIG_EDGE (line, its new level, instant of the pin edge as FRC and ns within 4 ns), spec R490 -/
  | xtrigEdge (n : Fin 4) (high : LineRun) (frc : BitVec 64) (fine : Fin 4)
  /-- TBUS_EDGE (line, its new level, arrival as FRC and ns within 4 ns), spec R490 -/
  | tbusEdge (n : Fin 8) (high : Bool) (frc : BitVec 64) (fine : Fin 4)
  /-- QUAD_EDGE (levels of A and B of port n, and in how many consecutive samples each line has read its level), spec
      R293, R295 -/
  | quadEdge (n : Fin 8) (a : LineRun) (b : LineRun)
  /-- HALL_CHANGE (levels H3 H2 H1 of port n, and the consecutive samples of each, H1 first), spec R293, R298 -/
  | hallChange (n : Fin 8) (h : HallRun)
  /-- INDEX_EDGE (level of Z of port n, and its consecutive samples), spec R293, R301 -/
  | indexEdge (n : Fin 8) (z : LineRun)
  /-- SPEED_WINDOW_END (a speed window of port n ends), spec R303 -/
  | speedWindowEnd (n : Fin 8)
  /-- PHASE_LINK_FRAME (local channel, frame the driver returned), spec R275 -/
  | phaseLinkFrame (n : Fin 8) (ret : BitVec 48)
  /-- GRAFT_SLOT (slot of the cycle, lane 1), spec R416 -/
  | graftSlot (k : Fin 4) (lane : Bool)
  /-- GRAFT_FRAME_RECEIVED (lane 1, every code group of it good, bytes from header to CRC), spec R418 -/
  | graftFrameReceived (lane : Bool) (ok : Bool) (bytes : List Nat)
  /-- GRAFT_SLOT_END (slot whose frame is missing), spec R418 -/
  | graftSlotEnd (k : Fin 4)
  /-- GRAFT_SET_APPLY (within 2 microseconds of the last frame of a set; the static transfer, a whole refresh rotation
      has been applied with it), spec R426 -/
  | graftSetApply (stat : Bool) (rot : Bool)
  /-- TAKEOVER (the sync point of a decided takeover), spec R433 -/
  | takeover
  /-- TAKEOVER_REPORT (within 1 ms of resuming), spec R137 -/
  | takeoverReport
  /-- TIMELINE_REBUILD (the rebuild is complete), spec R396 -/
  | timelineRebuild
  /-- GRAFT_DOWN (no good STATUS frame for 3 cycles), spec R441 -/
  | graftDown
  /-- GRAFT_LANE_DOWN (lane 1), spec R419 -/
  | graftLaneDown (lane : Bool)
  /-- ECC_WRITE_BACK (word address of a corrected word), spec R516 -/
  | eccWriteBack (a : Nat)
  /-- SCRUB_SWEEP (findings of the static sweep in order, its duration in microseconds), spec R521 -/
  | scrubSweep (finds : List MemFind) (us : Nat)
  /-- DYNAMIC_SCRUB (findings of the dynamic sweep in order), spec R522 -/
  | dynamicScrub (finds : List MemFind)
  /-- LEDGER_HOUR (ring-oscillator counts, eye results (ring, position, port, horizontal, vertical)), spec R581 -/
  | ledgerHour (counts : List Nat) (eyes : List (Bool × Nat × Bool × Nat × Nat))
  /-- HRST_N_LOW (HRST_N goes low), spec R453 -/
  | hrstNLow
  /-- HRST_N_RELEASE (switches as Hedge-P and Hedge-L read them), spec R451 -/
  | hrstNRelease (p : Fin 65536) (l : Fin 65536)
  /-- HEDGE_SUPPLY_FAULT (a Hedge supply leaves its range), spec R633 -/
  | hedgeSupplyFault
  /-- SELF_TEST_DONE (results of Hedge-P and Hedge-L), spec R453 -/
  | selfTestDone (okP : Bool) (okL : Bool)
  /-- CROSS_LINK_WORD (every complement of the word checks at Hedge-L), spec R448 -/
  | crossLinkWord (ok : Bool)
  /-- CROSS_LINK_LOSS (no usable word for 3 ms), spec R457 -/
  | crossLinkLoss
  /-- HB (SC0's heartbeat message), spec R458 -/
  | hb
  /-- HEARTBEAT_TIMEOUT (no HB for 3 ms), spec R458 -/
  | heartbeatTimeout
  /-- TEST_PULSE_FRAME (a frame of test pulses starts), spec R460 -/
  | testPulseFrame
  /-- PULSE_CHECK_SAMPLE (line TPS[k], input n, samples before, during and after), spec R461 -/
  | pulseCheckSample (k : Fin 4) (n : Fin 16) (b : Bool) (d : Bool) (a : Bool)
  /-- DISCREPANCY_TIMEOUT (input or output concerned), spec R473 -/
  | discrepancyTimeout (idx : Fin 64)
  /-- HLKI_LOW (both HLKI lines read low), spec R473 -/
  | hlkiLow
  /-- BLACK_CHANNEL_SEND (connection), spec R466 -/
  | blackChannelSend (c : Fin 64)
  /-- BLACK_CHANNEL_FRAME (connection, words of the frame), spec R466 -/
  | blackChannelFrame (c : Fin 64) (ws : List Word)
  /-- CONNECTION_TIMEOUT (connection), spec R462 -/
  | connectionTimeout (c : Fin 64)
  /-- SFRAME (mailbox channel 12 + ch, direction), spec R480 -/
  | sframe (ch : Fin 3) (toHedge : Bool)
  /-- BTEST (Hedge-P takes the message), spec R471 -/
  | btest
  /-- BT_STEP (SC0 takes the message), spec R471 -/
  | btStep
  /-- ENGAGE_TIME_END (100 ms into a brake test), spec R471 -/
  | engageTimeEnd
  /-- HOLD_WINDOW_END (1,150 ms into a brake test), spec R471 -/
  | holdWindowEnd
  /-- BRAKE_TEST_END (1,200 ms into a brake test), spec R472 -/
  | brakeTestEnd
  /-- BRAKE_DUE (drive connection (true) or local pair, its number), spec R468 -/
  | brakeDue (remote : Bool) (k : Fin 64)
  /-- BRAKE_OVERDUE (drive connection (true) or local pair, its number), spec R468 -/
  | brakeOverdue (remote : Bool) (k : Fin 64)
  /-- HEDGE_L_OVERDUE (local pair), spec R469 -/
  | hedgeLOverdue (k : Fin 8)
  /-- SAFE_ACK_N_RISE (ms low as Hedge-P and Hedge-L measured, both saw the edge), spec R475 -/
  | safeAckNRise (p : Nat) (l : Nat) (both : Bool)
  /-- HLKI_CHECK (levels of HLKI_P_N and HLKI_L_N), spec R476 -/
  | hlkiCheck (p : Bool) (l : Bool)
  /-- TKO (message number), spec R479 -/
  | tko (m : Fin 10)
  /-- STATUS_WINDOW_REFRESH (Hedge-P refreshes the window), spec R450 -/
  | statusWindowRefresh
  /-- GRAFT_LANE_UP (lane 1), spec R419 -/
  | graftLaneUp (lane : Bool)
  /-- HEDGE_SUPPLY_RESTORED (switches as Hedge-P and Hedge-L read them), spec R633 -/
  | hedgeSupplyRestored (p : Fin 65536) (l : Fin 65536)
  /-- LINK_TRAINED (speed and width codes reached), spec R595 -/
  | linkTrained (gen : Fin 8) (wid : Fin 32)
  /-- REVISION_REPROPOSE (100 ms after an aborted guard revision), spec R589 -/
  | reviseAgain
  /-- HOLDS_BLOCKED_END (100 ms after a release), spec R476 -/
  | holdsBlockedEnd
  /-- TAP_INSTRUCTION (the instruction), spec R629 -/
  | tapInstruction (ir : Machine.TapIr)
deriving DecidableEq, Repr

end Sys2Proof
end

