-- ==== Sys2Proof/Decode.lean ====
section
/-! DEFINITION. The commands that words spell. spec/opcode_table.json gives no row any bits, so no word spells one. -/

namespace Sys2Proof

/-- The command an instruction word of the table spells: none, since every row's list of bit fields is empty. -/
def decodeTableWord (_nbits _w : Nat) : Option Instr := none

end Sys2Proof
end

