-- ==== Sys2Proof/Machine/Bits.lean ====
section
/-! DEFINITION. Bit fields, modular differences, sparse tables and small list helpers that every family uses. -/

namespace Sys2Proof.Machine

/-- A native word from a number, modulo 2^36. -/
def wd (n : Nat) : Word := BitVec.ofNat 36 n

/-- A native word from an integer, modulo 2^36 (two's complement). -/
def wdI (n : Int) : Word := BitVec.ofInt 36 n

/-- Bits [lo+n-1 : lo] of a native word, as a number. -/
def fld (w : Word) (lo n : Nat) : Nat := (w.toNat >>> lo) % 2 ^ n

/-- Bit k of a native word. -/
def bit (w : Word) (k : Nat) : Bool := w.getLsbD k

/-- Bit k of a bit vector set to b. -/
def bvPut {n : Nat} (k : Nat) (b : Bool) (v : BitVec n) : BitVec n :=
  if b then v ||| BitVec.ofNat n (2 ^ k) else v &&& ~~~(BitVec.ofNat n (2 ^ k))

/-- The value v placed at bits [lo+n-1 : lo]; fields of one word are added. -/
def put (lo n v : Nat) : Nat := (v % 2 ^ n) <<< lo

/-- A flag placed at bit k. -/
def putB (k : Nat) (b : Bool) : Nat := if b then 2 ^ k else 0

/-- The modular difference of two wrapping 36-bit values under the half-range rule (spec/02 R37). -/
def modDiff (a b : Word) : Int := (a - b).toInt

/-- a is at or past b (spec/02 R38). -/
def atOrPast (a b : Word) : Bool := decide (0 ≤ modDiff a b)

/-- The half-range reading of a difference of two n-bit values (spec/02 R37 on n bits; n = 16 for the epoch). -/
def modDiffN (n : Nat) (a b : Nat) : Int := (BitVec.ofInt n ((a : Int) - (b : Int))).toInt

/-- The entry of a sparse table; d is what an unlisted key reads as. -/
def tabGet {α : Type} (d : α) : Tab α → Nat → α
  | [], _ => d
  | (k, v) :: t, j => if j = k then v else tabGet d t j

/-- Put one entry at its place among the rising keys. -/
def tabIns {α : Type} : Tab α → Nat → α → Tab α
  | [], j, x => [(j, x)]
  | (k, v) :: t, j, x => if j < k then (j, x) :: (k, v) :: t else if j = k then (j, x) :: t else (k, v) :: tabIns t j x

/-- Set one entry, keeping the canonical form: setting the default removes the entry. -/
def tabSet {α : Type} [DecidableEq α] (d : α) (t : Tab α) (j : Nat) (x : α) : Tab α :=
  if x = d then t.filter (fun kv => kv.1 != j) else tabIns t j x

/-- Change one entry by a function. -/
def tabMod {α : Type} [DecidableEq α] (d : α) (t : Tab α) (j : Nat) (f : α → α) : Tab α :=
  tabSet d t j (f (tabGet d t j))

/-- Every key of the table is above lo, the keys rise, and no entry is the default. -/
def tabWfFrom {α : Type} [DecidableEq α] (d : α) : Nat → Tab α → Bool
  | _, [] => true
  | lo, (k, v) :: t => decide (lo ≤ k) && (v != d) && tabWfFrom d (k + 1) t

/-- The canonical form of a sparse table. -/
def tabWf {α : Type} [DecidableEq α] (d : α) (t : Tab α) : Bool := tabWfFrom d 0 t

/-- Keep only the entries whose key satisfies p (a partial clear). -/
def tabKeep {α : Type} (p : Nat → Bool) (t : Tab α) : Tab α := t.filter (fun kv => p kv.1)

/-- Saturating increment with the maximum m: the new value and whether this step reached the maximum (spec/02 R52). -/
def satInc (m v : Nat) : Nat × Bool := if m ≤ v then (v, false) else (v + 1, decide (v + 1 = m))

/-- Ceiling division of naturals. -/
def cdiv (a b : Nat) : Nat := (a + b - 1) / b

/-- The j-th element, or the default. -/
def nth {α : Type} (d : α) (l : List α) (j : Nat) : α := l.getD j d

/-- Number of elements of a list satisfying p. -/
def cnt {α : Type} (p : α → Bool) (l : List α) : Nat := (l.filter p).length

/-- The bytes of a number, least significant first. -/
def bytesLE (n v : Nat) : List Nat := (List.range n).map (fun k => (v >>> (8 * k)) % 256)

/-- The bytes of a number, most significant first. -/
def bytesBE (n v : Nat) : List Nat := (bytesLE n v).reverse

/-- The number a list of bytes spells, least significant first. -/
def ofBytesLE : List Nat → Nat
  | [] => 0
  | b :: r => b % 256 + 256 * ofBytesLE r

/-- The number a list of bytes spells, most significant first. -/
def ofBytesBE (l : List Nat) : Nat := ofBytesLE l.reverse

/-- A serial CRC over bits, most significant bit of the register first: w is the width, poly the polynomial. -/
def crcBits (w poly : Nat) : List Bool → Nat → Nat
  | [], r => r
  | b :: t, r =>
    let top := (r >>> (w - 1)) % 2 == 1
    let sh := (r * 2) % 2 ^ w
    crcBits w poly t (if top != b then sh ^^^ poly else sh)

/-- The bits of an n-bit value, most significant first. -/
def bitsMSB (n v : Nat) : List Bool := (List.range n).reverse.map (fun k => (v >>> k) % 2 == 1)

/-- The bits of bytes as the frame check sequence takes them: least significant first. -/
def bitsLSB (l : List Nat) : List Bool := l.flatMap (fun b => (List.range 8).map (fun k => (b >>> k) % 2 == 1))

/-- The bits of a number in reverse order over n places. -/
def bitRev (n v : Nat) : Nat := ((List.range n).map (fun k => if (v >>> k) % 2 == 1 then 2 ^ (n - 1 - k) else 0)).sum

/-- A reflected CRC-32: preset to all ones, complemented (spec/10 R316; spec/14 R464 with its polynomial). -/
def crc32 (poly : Nat) (l : List Nat) : Nat := bitRev 32 (crcBits 32 poly (bitsLSB l) (2 ^ 32 - 1) ^^^ (2 ^ 32 - 1))

/-- The IEEE 802.3 frame check sequence. -/
def fcs (l : List Nat) : Nat := crc32 0x04C11DB7 l

/-- The bytes of words in 5-byte form, most significant first (spec/02 R36). -/
def wordBytes5 (ws : List Word) : List Nat := ws.flatMap (fun w => bytesBE 5 w.toNat)

/-- Apply a function for each element of a list, left to right. -/
def each {α σ : Type} (l : List α) (f : α → σ → σ) (s : σ) : σ := l.foldl (fun s a => f a s) s

/-- Integer square root rounded down, of a rational scaled by 2^(2k): floor(2^k * sqrt q). -/
def ratSqrtScaled (k : Nat) (q : ℚ) : Nat := if q ≤ 0 then 0 else Nat.sqrt ((q * (4 ^ k : Nat)).floor.toNat)

end Sys2Proof.Machine
end

