-- ==== Sys2Proof/Config.lean ====
section
/-! DEFINITION. The free values: what spec/ leaves open. Each is an opaque constant without a body, so a statement about
it holds for every value (log 5). The model applies them to a plain counter of State or to the operands. -/

namespace Sys2Proof.Config

/-- A fresh 36-bit value for each use of the counter (log 5). -/
opaque freeWord : Nat → BitVec 36

/-- A fresh natural number for each use of the counter (log 5). -/
opaque freeNat : Nat → Nat

/-- The words of a standby's identity record that the spec leaves to the unit: vendor, product, revision, node number, latency
and serial number (spec/10 Table 10.10, log 147). -/
opaque standbyIdent : Nat → BitVec 36

/-- What the words of a grafted PLAN record say, as numbers (log 47). -/
opaque graftPlan : List (BitVec 36) → List ℚ

/-- What the words of a grafted STAGE record say, as numbers (log 47). -/
opaque graftStage : List (BitVec 36) → List Nat

end Sys2Proof.Config
end

