-- ==== Sys2Proof/Machine/StateCore.lean ====
section
/-! DEFINITION. Parts of the state as plain data: device, phase, command system and host interface (INVENTORY.md, State). -/

namespace Sys2Proof.Machine

/-- The four members of the family (spec/00 R2, Table 0.1). -/
inductive Variant where
  | vx1284 | vx1264 | vx1284n | vx1264n
deriving DecidableEq, Repr, Inhabited

/-- Device states (spec/01 Table 1.7). -/
inductive DevState where
  | off | bootHold | boot | config | discover | plan | commission | run | recovery | test | safeLock
deriving DecidableEq, Repr, Inhabited

/-- Redundancy roles (spec/01 Table 1.10). -/
inductive Role where
  | solo | active | standby
deriving DecidableEq, Repr, Inhabited

/-- One message the block sends out of itself, kept in the order sent (log 3). -/
inductive OutMsg where
  /-- a DMA write to host memory: bus byte address and the native word (spec/03 R85, spec/20 R596) -/
  | dma (addr : Nat) (v : Word)
  /-- an MSI-X message with its vector (spec/20 R598) -/
  | msix (vector : Nat)
  /-- a ring frame: ring (false A, true B), path (false E, true W), payload bytes (spec/10) -/
  | ring (ringB pathW : Bool) (bytes : List Nat)
  /-- a frame of the graft link: its KIND, and the bytes from the first header byte to the last of the CRC (spec/13 R417) -/
  | graft (kind : Nat) (bytes : List Nat)
  /-- a 48-bit frame on a local phase link (spec/08 R275) -/
  | phaseLink (channel : Nat) (bits : BitVec 48)
  /-- a pulse on a trigger bus line (spec/15 R490) -/
  | tbus (line : Nat)
  /-- a rising edge of DCLK driven by the domain master (spec/18 R554) -/
  | dclk
  /-- a Hedge cross-link word (spec/14 R448) -/
  | crossLink (bits : BitVec 36)
  /-- words handed to another unit's message channel (spec/14 Table 14.11, spec/17 R537) -/
  | message (channel : Nat) (words : List Word)
  /-- words answered to a reader of registers -/
  | readData (words : List Word)
  /-- bytes answered to a host: a PCI Express completion, an SPI read from its token byte on (spec/02 R34 to R36) -/
  | busData (bytes : List (BitVec 8))
  /-- a PCI Express completion with the poisoned bit: some word of it could not be read (spec/16 Table 16.3) -/
  | poisoned (bytes : List (BitVec 8))
  /-- a PCI Express configuration request answered: true with retry status (spec/20 R595) -/
  | configRetry (retry : Bool)
deriving DecidableEq, Repr

/-- Device-wide state (spec/01 Tables 1.10 and 1.11). -/
structure SysSt where
  st : DevState := .boot
  prev : DevState := .off
  trans : Bool := false
  stale : Bool := false
  role : Role := .solo
  rstCause : Nat := 0
  cycOn : Bool := false
  slowDiv : Nat := 0
  mode : Nat := 0
  domain : Bool := false
  rate : Nat := 0
deriving DecidableEq, Repr, Inhabited

/-- The phase source of SYS_PHSRC (spec/02 Table 2.2), as its register fields. -/
structure PhSrc where
  kind : Nat := 0
  port : Nat := 0
  axis : Nat := 0
deriving DecidableEq, Repr, Inhabited

/-- The machine phase, its source and its counters (spec/02 R41 to R51, R655). -/
structure PhaseSt where
  ncc : Word := 0
  mph : Word := 0
  /-- the newest measured phase M (R45) -/
  mphm : Word := 0
  /-- SYS_MPHM, which changes at sync points only (R51) -/
  mphmShown : Word := 0
  /-- measured phases M(i), M(i-1), M(i-2), M(i-3) before the present one, newest first (R47, R111) -/
  hist : List Word := []
  src : PhSrc := {}
  cpm : Nat := 1
  vmRate : Word := 0
  /-- VM_RATE governing the advances now (R42, R44) -/
  vmInForce : Word := 0
  /-- value of the virtual master (R42) -/
  vm : Word := 0
  rem : Nat := 0
  /-- last sample of the source (R45, R655) -/
  sample : Word := 0
  /-- direct writes of SYS_VMRATE on their way: first governed sync point and value (R44) -/
  vmDirect : List (Word × Word) := []
  /-- a direct write of SYS_PHSRC or SYS_PHCPM waiting for the next sync point (R46) -/
  srcNext : Option PhSrc := none
  cpmNext : Option Nat := none
  vmNext : Option Word := none
  /-- a change of an axis source whose last movement is still to be counted: the old source and its CPM (R46) -/
  oldSrc : Option (PhSrc × Nat) := none
  /-- the sample of the present sync point has been taken (an axis source is sampled in its compute, R45) -/
  sampled : Bool := true
  /-- the reference sample of a newly selected source is still to be taken (R46) -/
  refPending : Bool := false
  /-- length of the cycle that ended at the present sync point, units of 15.625 microseconds (spec/06, Tp) -/
  lastUnits : Nat := 0
  /-- an agreed change of the network rate: sync point and rate code (R42) -/
  rateNext : Option (Word × Nat) := none
  /-- counter value at the present sync point -/
  frcSync : BitVec 64 := 0
deriving DecidableEq, Repr, Inhabited

/-- A packet taken from a queue: its identity (log 4), queue, entry and words (spec/03 R58), and whether its checks of
R7 and R79 are behind it (spec/04, the admission algorithm). -/
structure Packet where
  id : Nat := 0
  q : Nat := 0
  entry : Nat := 0
  words : List Word := []
  checked : Bool := false
deriving DecidableEq, Repr, Inhabited

/-- A result slot (spec/03 Table 3.6); owner is the command that may still write it (R83, R88, log 4). -/
structure Slot where
  opcode : Nat := 0
  gen : Nat := 0
  seq : Nat := 0
  status : Nat := 1
  rlen : Nat := 0
  effKnown : Bool := false
  detail : Nat := 0
  delay : Nat := 0
  acc : Word := 0
  eff : Word := 0
  res : List Word := []
  owner : Option Nat := none
  released : Bool := true
deriving DecidableEq, Repr, Inhabited

/-- A command queue's registers (spec/03 Tables 3.11 to 3.19) and its result slots. -/
structure Queue where
  en : Bool := false
  loc : Bool := false
  rmir : Bool := false
  baseL : Nat := 0
  baseH : Nat := 0
  rslt : Nat := 0
  head : Nat := 0
  tail : Nat := 0
  dmaErr : Bool := false
  slotWait : Bool := false
  bp : Bool := false
  mirL : Nat := 0
  mirH : Nat := 0
  /-- the DMA fetch of the entry at HEAD, where it has ended (R65, R596) -/
  fetched : Option (List Word) := none
  slots : Tab Slot := []
deriving DecidableEq, Repr, Inhabited

/-- A journal entry (spec/04 Table 4.5); pos is its place in the queue's ring of 4,096 entries. -/
structure JEntry where
  id : Nat := 0
  pos : Nat := 0
  opcode : Nat := 0
  q : Nat := 0
  member : Bool := false
  seq : Nat := 0
  status : Nat := 1
  effKnown : Bool := false
  tko : Bool := false
  detail : Nat := 0
  delay : Nat := 0
  acc : Word := 0
  eff : Word := 0
deriving DecidableEq, Repr, Inhabited

/-- Which command: its identity, queue, entry and header word. -/
structure CmdRef where
  id : Nat := 0
  q : Nat := 0
  entry : Nat := 0
  hdr : Word := 0
deriving DecidableEq, Repr, Inhabited

/-- When a pending effect falls (spec/04 Table 4.1). -/
inductive When where
  /-- at the sync point of this cycle number -/
  | at (ncc : Word)
  /-- at the first sync point (slow: slow-group start) at or past this phase, not yet evaluated (R48, R111) -/
  | phase (p : Word)
  /-- when the master of the slave object is at or past this position (R172) -/
  | master (pos : Word)
  /-- with its bundle (R127) -/
  | bundle
deriving DecidableEq, Repr, Inhabited

/-- An admitted command whose effect is still to come: opcode, parameter words after the phase word, time of
effect, class and reservations (spec/04 R97, R102 to R114). -/
structure Effect where
  cmd : CmdRef := {}
  op : Nat := 0
  ps : List Word := []
  time : When := .at 0
  slow : Bool := false
  units : Nat := 0
  /-- target phase of a phased command (R106, R107) -/
  target : Word := 0
  phased : Bool := false
  delay : Nat := 0
  /-- identity of the bundle it belongs to -/
  bundle : Option Nat := none
  /-- identity of the governor curve placed for it (spec/12 R388) -/
  curve : Option Nat := none
  /-- an axis fault fell on the member's axis after the decision (R125): its fault code -/
  faulted : Option Nat := none
  /-- the largest I/O divider of the nodes an IO_WRITE names (spec/01 R23) -/
  carried : Nat := 0
  /-- the part of its effect that comes before its sync point has been done (Table 4.3) -/
  early : Bool := false
  /-- its place in the order of admission among the effects still to come (spec/03 R648, R649) -/
  adm : Nat := 0
deriving DecidableEq, Repr, Inhabited

/-- State of a bundle (spec/04 Table 4.4). -/
inductive BState where
  | open_ | doomed | staging | armed
deriving DecidableEq, Repr, Inhabited

/-- A bundle of one queue (spec/04 R115 to R128). -/
structure Bundle where
  id : Nat := 0
  q : Nat := 0
  state : BState := .open_
  /-- DETAIL of what a doomed bundle's packets complete with (R117) -/
  doom : Nat := 0x01
  expected : Nat := 0
  members : List Effect := []
  commit : CmdRef := {}
  phase : Word := 0
  slow : Bool := false
  /-- general-share planner units still to be staged (R119, R120), and stepper plans (spec/08 R270) -/
  unitsLeft : Nat := 0
  plansLeft : Nat := 0
  /-- units of members to be staged again, each with the sync point of the command that changed their plan (R124) -/
  redo : List (Word × Nat) := []
  /-- the sync points of those not staged again at the last sync point (R122) -/
  redoAtSync : List Word := []
  /-- staging flags PLN, CE, step generators, DQA, DQB as a 5-bit value, PLN highest (Table 4.11) -/
  flags : Nat := 0
  /-- the same flags as they stood at the last sync point (R122) -/
  flagsAtSync : Nat := 0
  c : Word := 0
deriving DecidableEq, Repr, Inhabited

/-- A class-N transfer to a node that is under way (spec/03 R651). -/
structure NodeXfer where
  cmd : CmdRef := {}
  read : Bool := false
  /-- the values the device itself gives a PARAM_READ, by place; none where the node gives them -/
  own : List (Option Word) := []
  ringB : Bool := false
  node : Nat := 0
  addr : Nat := 0
  values : List Word := []
  count : Nat := 0
  tag : Nat := 0
  sent : Bool := false
deriving DecidableEq, Repr, Inhabited

/-- A bundle that has committed, kept while late nodes may still report (spec/04 R130). -/
structure Committed where
  c : Word := 0
  seq : Nat := 0
  q : Nat := 0
  axes : List Nat := []
  steppers : List Nat := []
  /-- I/O points of its IO_WRITE members -/
  points : List Nat := []
  /-- nodes whose lost slow block has been reported: ring and node -/
  told : List (Bool × Nat) := []
deriving DecidableEq, Repr, Inhabited

/-- The command system: queues, dispatch list, event log, journal, bundles (spec/03, spec/04). -/
structure CmdSt where
  queues : Tab Queue := []
  /-- dequeued packets waiting for admission, oldest first; at most 64 (R63) -/
  dispatch : List Packet := []
  rr : Nat := 0
  nextId : Nat := 1
  evBase : Nat := 0x7FC000
  evLen : Nat := 0
  evWr : Nat := 0
  evRd : Nat := 0
  evOvr : Bool := false
  phMax : Nat := 0x1000000
  ovspd : Bool := false
  jBase : Nat := 0x740000
  tkoRdy : Bool := false
  jWait : Bool := false
  tkoCnt : Nat := 0
  journal : List JEntry := []
  effects : List Effect := []
  bundles : List Bundle := []
  nextBundle : Nat := 0
  commits : List Committed := []
  xfers : List NodeXfer := []
  /-- reserved ACYC bytes: ring B, cycle, bytes (R109) -/
  acyc : List (Bool × Nat × Nat) := []
  /-- a bundle commit decision was taken in the present cycle (R103) -/
  decided : Bool := false
  /-- general-share units taken in the present and the next cycle (R104) -/
  genNow : Nat := 0
  genNext : Nat := 0
  /-- phased-share units taken in the present cycle (R104) -/
  phNow : Nat := 0
deriving DecidableEq, Repr, Inhabited

/-- The host interface (spec/20 R597 to R602, Tables 20.4 to 20.9) and the PCI Express function's own masks. -/
structure HifSt where
  istat : BitVec 20 := 0
  ienp : BitVec 20 := 0
  iens : BitVec 20 := 0
  tick : Nat := 0
  cto : Bool := false
  msixEn : Bool := false
  linkUp : Bool := false
  speed : Nat := 0
  width : Nat := 0
  badCmd : Bool := false
  partialWr : Bool := false
  under : Bool := false
  ivec : List Nat := List.range 20
  /-- PCI Express masks of R598: function mask, vector masks, pending bits -/
  funcMask : Bool := false
  vecMask : BitVec 32 := BitVec.allOnes 32
  pba : BitVec 32 := 0
  /-- CMDq_STAT condition of source 7 as last seen, so that a rise sets the bit once (R597) -/
  cmdCond : Bool := false
deriving DecidableEq, Repr, Inhabited

/-- Words a reading MID has latched (spec/20 R611). -/
structure PtmLatch where
  frch : Word := 0
  nowh : Word := 0
  sptl : Word := 0
  spth : Word := 0
deriving DecidableEq, Repr, Inhabited

/-- Plant time (spec/20 R603 to R611); frc is the free-running counter (spec/02 Table 2.1). -/
structure PtmSt where
  frc : BitVec 64 := 0
  ofs : BitVec 64 := 0
  frcB : BitVec 64 := 0
  rate : Word := 0
  jmax : Word := 250000
  jumpRefused : Bool := false
  set : Bool := false
  sncc : Word := 0
  spt : BitVec 64 := 0
  latch : Tab PtmLatch := []
deriving DecidableEq, Repr, Inhabited

end Sys2Proof.Machine
end

