-- ==== Sys2Proof/Machine/StateMotion.lean ====
section
/-! DEFINITION. Parts of the state as plain data: planner, engines, Furrow units, steppers and feedback ports (INVENTORY.md, State). -/

namespace Sys2Proof.Machine

/-- One constant-jerk segment of a profile: jerk, duration in seconds, and its number in Table 5.3 (spec/05 R148). -/
structure Seg where
  jerk : ℚ := 0
  dur : ℚ := 0
  tag : Nat := 0
deriving DecidableEq, Repr, Inhabited

/-- Position, velocity and acceleration of a planned axis (spec/05 R140), position unwrapped. -/
structure PState where
  p : ℚ := 0
  v : ℚ := 0
  a : ℚ := 0
deriving DecidableEq, Repr, Inhabited

/-- A profile: its origin instant in seconds, its start state, its segments, and the target it ends at exactly
(spec/05 R139, R150). -/
structure Prof where
  t0 : ℚ := 0
  start : PState := {}
  segs : List Seg := []
  target : Option ℚ := none
deriving DecidableEq, Repr, Inhabited

/-- The limits a profile is planned under (spec/05 Table 5.2). -/
structure Lim where
  vmax : ℚ := 0
  amax : ℚ := 0
  dmax : ℚ := 0
  jmax : ℚ := 0
deriving DecidableEq, Repr, Inhabited

/-- What an axis is doing (spec/05 Table 5.5, KIND). -/
inductive MKind where
  | hold | posMove | velMove | stop | quickStop | geared | disabled
deriving DecidableEq, Repr, Inhabited

/-- A master of gearing: object kind 0, 1 or 3, its index, and set-point or feedback (spec/05, Electronic gearing). -/
structure Master where
  kind : Nat := 0
  index : Nat := 0
  feedback : Bool := false
deriving DecidableEq, Repr, Inhabited

/-- A ratio change waiting for its master position (spec/05 R172, R173). -/
structure RatioPend where
  mc : Word := 0
  n : Int := 0
  d : Nat := 1
  r : Nat := 0
  sigma : Int := 1
  cmd : CmdRef := {}
deriving DecidableEq, Repr, Inhabited

/-- A ratio ramp in progress (spec/05 R174). -/
structure RatioRamp where
  mc : Word := 0
  sigma : Int := 1
  r : Nat := 0
  sc : ℚ := 0
  no : Int := 0
  do_ : Nat := 1
  nn : Int := 0
  dn : Nat := 1
deriving DecidableEq, Repr, Inhabited

/-- Electronic gearing of one slave (spec/05 R166 to R175, spec/08 R289). -/
structure Gear where
  master : Master := {}
  n : Int := 0
  d : Nat := 1
  /-- geared position, unwrapped, with the carried fraction (R167, R175) -/
  pos : ℚ := 0
  /-- last master value used (R167) -/
  m : Word := 0
  pend : Option RatioPend := none
  ramp : Option RatioRamp := none
  /-- movement of the geared position in the last cycle, counts -/
  step : ℚ := 0
  /-- acceleration of the geared position, as the last set-point shows it, counts/s² (R140) -/
  accel : ℚ := 0
deriving DecidableEq, Repr, Inhabited

/-- The planner's record of one servo axis (spec/05 R139 to R179, R647). -/
structure PlnAxis where
  kind : MKind := .disabled
  /-- planned state while no profile runs; the profile's state while one does -/
  hold : ℚ := 0
  prof : Option Prof := none
  /-- target of the last position move in force (R151) -/
  moveTarget : Option ℚ := none
  /-- commanded position (R163); none when never enabled since reset -/
  commanded : Option Word := none
  ssActive : Bool := false
  /-- first axis of the coordinated move it belongs to (Table 5.5) -/
  coord : Option Nat := none
  gear : Option Gear := none
  /-- the set-point speed exceeds VMAX in the present excursion (R171) -/
  overSpeed : Bool := false
  /-- velocity commanded by the MOVE_VEL in force -/
  velCmd : ℚ := 0
  /-- axis parameters in force by number: Table 5.2, spec/12 Table 12.2, BT_TQ of spec/14 R470 -/
  params : Tab Word := []
  /-- a new motion is in force whose last planned value was at this acceleration (R171 excursion of the last cycle) -/
  lastVel : ℚ := 0
  /-- GEAR_PEND and GEAR_RAMP as they were in force at the last sync point (R179) -/
  pendShown : Bool := false
  rampShown : Bool := false
deriving DecidableEq, Repr, Inhabited

/-- A coordinated move in the straight-line form: members with start and distance, path length and path profile
(spec/05 R156, R158). -/
structure Coord where
  first : Nat := 0
  straight : Bool := true
  members : List (Nat × ℚ × ℚ) := []
  len : ℚ := 0
  path : Prof := {}
deriving DecidableEq, Repr, Inhabited

/-- A set-point record (spec/05 Table 5.1). -/
structure SetPoint where
  pos : Word := 0
  frac : Nat := 0
  vel : F32 := 0
  acc : F32 := 0
deriving DecidableEq, Repr, Inhabited

/-- The planner and the profile sequencers (spec/05). -/
structure PlnSt where
  axes : Tab PlnAxis := []
  coords : List Coord := []
  setPoints : Tab SetPoint := []
  phUsed : Nat := 0
  genUsed : Nat := 0
  phPeak : Nat := 0
  genPeak : Nat := 0
  /-- the instant of the present sync point, in units of 15.625 microseconds (R139, R141) -/
  tick : Nat := 0
  /-- re-plans under new limits waiting for their effect sync point: axis, cycle (R154) -/
  replans : List (Nat × Word) := []
deriving DecidableEq, Repr, Inhabited

/-- The gains whose change makes the integrators be rescaled (spec/06 R193). -/
structure EffGains where
  kp : F32 := 0
  kvffe : F32 := 0
  kv : F32 := 0
  kaffe : F32 := 0
  kobs : F32 := 0
deriving DecidableEq, Repr, Inhabited

/-- A scatter record (spec/06 Table 6.2). -/
structure Scatter where
  tref : F32 := 0
  valid : Bool := true
  enable : Bool := false
  spPos : Word := 0
  spVel : F32 := 0
deriving DecidableEq, Repr, Inhabited

/-- Quantities of one axis compute (spec/06 R183), kept while a tap call is out. -/
structure Comp where
  axis : Nat := 0
  /-- the tap whose result is awaited -/
  tap : Nat := 0
  sp : Word := 0
  fr : Nat := 0
  spVel : F32 := 0
  spAcc : F32 := 0
  pfb : Word := 0
  pfr : Nat := 0
  e36 : Int := 0
  ep : F32 := 0
  vraw : F32 := 0
  vfb : F32 := 0
  tqAct : F32 := 0
  td : F32 := 0
  vcmd : F32 := 0
  vc2 : F32 := 0
  ev : F32 := 0
  tpre : F32 := 0
  ip : F32 := 0
  iv : F32 := 0
  vff : F32 := 0
  aff : F32 := 0
  kvev : F32 := 0
  region : Nat := 0
  gains : EffGains := {}
  kip : F32 := 0
  kiv : F32 := 0
  /-- faults raised so far, as bits (code - 1) -/
  faults : Nat := 0
  tapSat : Bool := false
  bump : Bool := false
  extrap : Bool := false
  init : Bool := false
deriving DecidableEq, Repr, Inhabited

/-- The torque of a brake test (spec/14 Table 14.11): BT_TQ, the part of it now in force, and whether it falls. -/
structure BtRamp where
  tq : F32 := 0
  level : ℚ := 0
  down : Bool := false
deriving DecidableEq, Repr, Inhabited

/-- A servo axis as its engine keeps it (spec/06 R181 to R217, Tables 6.7, 6.12 to 6.14). -/
structure CeAxis where
  enabled : Bool := false
  /-- this cycle's compute is the enable cycle (R208) -/
  enableCycle : Bool := false
  /-- the first compute after the enable is still to come: taps are called with INIT (R203) -/
  tapInit : Bool := false
  fcode : Nat := 0
  fmask : Nat := 0
  /-- the fault of this cycle takes the axis from the planner at the next sync point (R215) -/
  newFault : Bool := false
  /-- position used in the previous cycle with its fraction; none when none was used (R186) -/
  posUsed : Option (Word × Nat) := none
  /-- positions used in the last cycles, newest first (spec/05 R166) -/
  posHist : List Word := []
  vhat : F32 := 0
  ip : F32 := 0
  iv : F32 := 0
  region : Option Nat := none
  page : Nat := 0
  missRun : Nat := 0
  missThis : Bool := false
  /-- feedback has been missing for three cycles or more (spec/02 R655) -/
  missHold : Bool := false
  tsat : Bool := false
  satt : F32 := 0
  gains : Option EffGains := none
  /-- a page swap since the last compute: the gains count as changed (R195) -/
  swapped : Bool := false
  /-- the Furrow unit the axis was bound to last (R203) -/
  fdUnit : Option Nat := none
  regNone : Bool := false
  intClamp : Bool := false
  tapSat : Bool := false
  fbExtrap : Bool := false
  regBump : Bool := false
  dspInit : Bool := false
  /-- this cycle: landed gather record, started, done with ready scatter record -/
  landed : Option (List Word) := none
  /-- AUX word of the latest landed record (spec/10 R321) -/
  aux : Word := 0
  bt : Option BtRamp := none
  started : Bool := false
  ready : Option Scatter := none
  /-- the ring controller discarded this cycle's record (R210) -/
  discarded : Bool := false
  /-- START_DL has passed with no record landed and the engine not free: the axis is next without one (R205, R210) -/
  startDue : Bool := false
  /-- AXF_LATE of this cycle is still to be logged with the FCODE that the cycle leaves (R214) -/
  lateLog : Bool := false
  /-- DRV_FAULT of the latest landed record (R217) -/
  drvFault : Bool := false
  /-- the first compute of a new active is still to come: vraw is the grafted velocity (spec/13 R435) -/
  tkoFirst : Bool := false
  startDl : Nat := 0
  resDl : Nat := 0
  /-- CE_AXa_STAT, CE_AXa_FAULT and CE_AXa_DL as they stood at the last sync point (R223) -/
  statShown : Word := 0
  faultShown : Word := 0
  dlShown : Word := 0
deriving DecidableEq, Repr, Inhabited

/-- A tap call at a Furrow unit's port (spec/06 R199, spec/07 Table 7.11). -/
structure TapCall where
  axis : Nat := 0
  tap : Nat := 0
  x1 : Word := 0
  x2 : Word := 0
  init : Bool := false
  page : Nat := 0
  region : Nat := 0
  rate : Nat := 0
  arrival : BitVec 64 := 0
  arrivalCyc : Nat := 0
deriving DecidableEq, Repr, Inhabited

/-- A cascade engine (spec/06 Tables 6.10, 6.11). -/
structure Engine where
  comp : Option Comp := none
  call : Option TapCall := none
  late : Bool := false
  peak : Nat := 0
  /-- instant at which the last axis finished in this and in the previous cycle, ns -/
  endNow : Nat := 0
  endPrev : Nat := 0
deriving DecidableEq, Repr, Inhabited

/-- What an effect has changed at an engine ahead of its sync point, kept until then (spec/04 R97): command, opcode, the
axis as it was, and the page words it wrote over. -/
structure CeUndo where
  id : Nat := 0
  op : Nat := 0
  axis : Nat := 0
  old : CeAxis := {}
  words : List (Nat × Word) := []
deriving DecidableEq, Repr, Inhabited

/-- The cascade engines (spec/06). -/
structure CeSt where
  imgBase : Nat := 0
  stBase : Nat := 0
  axes : Tab CeAxis := []
  engines : Tab Engine := []
  /-- the axes of the mode in force in the order of spec/01 R24 -/
  order : List Nat := []
  /-- the order PLAN built for each mode -/
  orders : Tab (List Nat) := []
  /-- deadlines PLAN built: key 256 * mode + axis, START_DL and RES_DL -/
  deadlines : Tab (Nat × Nat) := []
  /-- changes made ahead of their sync points -/
  undo : List CeUndo := []
deriving DecidableEq, Repr, Inhabited

/-- A Furrow address generator (spec/07 R233): mode 0 linear, 1 modulo, 2 bit-reversed. -/
structure Ptr where
  mode : Nat := 0
  base : Nat := 0
  len : Nat := 16384
  step : Int := 1
  idx : Nat := 0
deriving DecidableEq, Repr, Inhabited

/-- What an issued instruction produced, for the minimum distances (spec/07 Table 7.10). -/
inductive Prod where
  | load (reg : Nat) | alu (reg : Nat) | acc (n : Nat) | ptrSet (n : Nat) | ptrMod (n : Nat)
  | store (mem : Nat) (addr : Nat) | rb
deriving DecidableEq, Repr, Inhabited

/-- The job a Furrow unit runs (spec/07 R248 to R253). -/
structure FdJob where
  slot : Nat := 0
  engine : Nat := 0
  axis : Nat := 0
  tap : Nat := 0
  xb : Nat := 0
  xsz : Nat := 0
  cb : Nat := 0
  csz : Nat := 0
  budget : Nat := 0
  pc : Nat := 0
  /-- earliest issue cycle of the next instruction, the selection being cycle 0 -/
  t : Nat := 4
  prods : List (Prod × Nat) := []
deriving DecidableEq, Repr, Inhabited

/-- Where PLAN put a tap's state and its two coefficient copies (spec/06 R202). -/
structure FdAlloc where
  xb : Nat := 0
  cb0 : Nat := 0
  cb1 : Nat := 0
  used : Bool := false
deriving DecidableEq, Repr, Inhabited

/-- A Furrow DSP unit (spec/07 Tables 7.1 and 7.19 to 7.25). -/
structure FdUnit where
  xm : Tab Word := []
  ym : Tab Word := []
  cm : Tab Word := []
  pm : Tab (BitVec 72) := []
  d : List Word := List.replicate 16 0
  win : List Word := List.replicate 16 0
  acc : List (BitVec 80) := List.replicate 4 0
  ptr : List Ptr := List.replicate 8 {}
  rb : Nat := 0
  /-- active loops, innermost first: body start and iterations left -/
  loops : List (Nat × Nat) := []
  /-- loop cache: the first instruction's address, the instructions the first pass has left so far, and whether the whole
  body is held (R247) -/
  cacheLo : Nat := 0
  cache : List (BitVec 72) := []
  cacheOn : Bool := false
  /-- Y scratch since the last selection: the counter its free words start at, and the addresses written (R254) -/
  yFree : Option Nat := none
  yPut : List Nat := []
  /-- bit errors that stand in the memories: memory, address, and whether uncorrectable (R259) -/
  ecc : List (Nat × Nat × Bool) := []
  job : Option FdJob := none
  /-- slot of the last job; 7 while no job has run, so that slot 0 is the next (R248) -/
  lastSlot : Nat := 7
  alloc : Tab FdAlloc := []
  pimg : Nat := 0
  yimg : Nat := 0
  stop : Bool := false
  ecc2 : Bool := false
  ecc1 : Bool := false
  aov : Bool := false
  sat : Bool := false
  loaded : Bool := false
  /-- LSTOP fields -/
  lAxis : Nat := 0
  lTap : Nat := 0
  lCause : Nat := 0
  lPc : Nat := 0
  /-- TPEAK fields -/
  pAxis : Nat := 0
  pTap : Nat := 0
  pTj : Nat := 0
  busyNow : Nat := 0
  busyPrev : Nat := 0
  waitMax : Nat := 0
  /-- Furrow cycles of all jobs so far -/
  clk : Nat := 0
deriving DecidableEq, Repr, Inhabited

/-- A stepper axis (spec/08 Tables 8.2, 8.3, 8.11, 8.12, R261 to R291). -/
structure StpAxis where
  vmax : Word := 0
  amax : Word := 0
  dmax : Word := 0
  jmax : Word := 0
  posMin : Word := 0
  posMax : Word := 0
  travelEn : Bool := false
  ratioMax : Word := 0
  table : Nat := 0
  runScale : Nat := 0
  holdScale : Nat := 0
  holdDelay : Nat := 100
  encEn : Bool := false
  encNum : Int := 1
  encDen : Nat := 1
  encPort : Nat := 0
  stallWin : Nat := 512
  stallN : Nat := 2
  /-- microstep position P of the last reference computed -/
  p : Word := 0
  /-- P of the reference before it, P(G - S) (R285) -/
  pPrev : Word := 0
  /-- P of two references before it: the reference the return of the last slow group is compared with (R285) -/
  pOld : Word := 0
  /-- planned position while no profile runs, unwrapped -/
  hold : ℚ := 0
  kind : MKind := .hold
  prof : Option Prof := none
  moveTarget : Option ℚ := none
  gear : Option Gear := none
  pwr : Bool := false
  release : Bool := false
  unref : Bool := true
  everEnabled : Bool := false
  /-- HOLD flag: the hold scale is in force -/
  holdOn : Bool := false
  moving : Bool := false
  /-- time the planned velocity has been zero, units of 15.625 microseconds (R268, R282) -/
  still : Nat := 0
  fcode : Nat := 0
  missRun : Nat := 0
  /-- encoder-derived position: Penc with its remainder, the last encoder count, the offset (R284, R290) -/
  penc : Word := 0
  encRem : Nat := 0
  encLast : Option Word := none
  encOff : Word := 0
  /-- what a REF_SET has put between P and the electrical index, which it leaves unchanged (R272, log 108) -/
  idxOff : Word := 0
  stallRun : Nat := 0
  dev : Int := 0
  devPeak : Nat := 0
  /-- return record of the present slow group, when it came (Table 8.3) -/
  ret : Option (Word × Word) := none
  /-- reference record computed last -/
  ref0 : Word := 0
  ref1 : Word := 0
  /-- fault causes of the last correct exchange: DRV_FAULT or a link flag (R287) -/
  nodeFault : Bool := false
  /-- references have been exchanged, so a missing return counts (R274) -/
  exchanged : Bool := false
  /-- STP_SXa_STAT and STP_SXa_DEV as they stood at the last slow-group start (R291) -/
  statShown : Word := 0x800
  devShown : Word := 0
deriving DecidableEq, Repr, Inhabited

/-- The step generators (spec/08 Tables 8.7 to 8.10). -/
structure StpSt where
  stBase : Nat := 0
  tblBase : Nat := 0
  axes : Tab StpAxis := []
  /-- current tables 0-3; none is the built-in table (R266) -/
  tables : Tab (Option (List Nat)) := []
  /-- inactive copies waiting for their swap: table, contents, first sync point at which they may swap (R267) -/
  staged : List (Nat × Option (List Nat) × Word) := []
  phUsed : Nat := 0
  genUsed : Nat := 0
  phPeak : Nat := 0
  genPeak : Nat := 0
  /-- general-share and phased-share plans taken in the present slow group (R270) -/
  genNow : Nat := 0
  phNow : Nat := 0
  linkErr : BitVec 8 := 0
  drvFlt : BitVec 8 := 0
  /-- consecutive wrong CRCs per local channel (R278) -/
  crcRun : Tab Nat := []
  /-- stepper axes as they were before an effect changed them ahead of its sync point: command, axis, record (spec/04 R97) -/
  undo : List (Nat × Nat × StpAxis) := []
deriving DecidableEq, Repr, Inhabited

/-- A local feedback port (spec/09 Tables 9.3 to 9.13). -/
structure FpPort where
  mode : Nat := 0
  dir : Bool := false
  zpol : Bool := false
  zgate : Bool := false
  fstop : Bool := false
  filt : Nat := 0
  hfilt : Nat := 0
  spw : Nat := 1
  idxWin : Nat := 0
  cpr : Nat := 0
  hcps : Nat := 0
  cnt : Word := 0
  scnt : Word := 0
  svalid : Bool := false
  /-- SCNT of the last sync points, newest first (spec/05 R166) -/
  hist : List Word := []
  idxl : Word := 0
  idxf : Word := 0
  idxd : BitVec 25 := 0
  spd : F32 := 0
  spde : BitVec 24 := 0
  /-- count at the start of the present speed window (R303) -/
  winBase : Word := 0
  qillSat : Bool := false
  pflt : Bool := false
  drift : Bool := false
  herr : Bool := false
  qerr : Bool := false
  idxNew : Bool := false
  firstOk : Bool := false
  /-- the next latch is the new IDX_FIRST (R302) -/
  needFirst : Bool := true
  sector : Nat := 0
  hallBad : Bool := false
  qill : Nat := 0
  la : Bool := false
  lb : Bool := false
  lz : Bool := false
  /-- Hall lines H3 H2 H1 as a number -/
  hall : Nat := 0
  /-- instants of the last and the one before last illegal transition (R297) -/
  ill1 : Option (BitVec 64) := none
  ill2 : Option (BitVec 64) := none
deriving DecidableEq, Repr, Inhabited

end Sys2Proof.Machine
end

