-- ==== Sys2Proof/Machine/StateRing.lean ====
section
/-! DEFINITION. Parts of the state as plain data: rings, trellis, governor, dispatcher and graft (INVENTORY.md, State). -/

namespace Sys2Proof.Machine

/-- A controller ring port (spec/10 Tables 10.14, 10.15). -/
structure RPort where
  sig : Bool := false
  cgs : Bool := false
  /-- synchronised with 16 idles: up (R313) -/
  up : Bool := false
  rcrc : Nat := 0
  rcrcSat : Bool := false
  downSeen : Bool := false
  /-- taken out of use as a loop (spec/11 R375, R376) -/
  out : Bool := false
deriving DecidableEq, Repr, Inhabited

/-- A node of a ring as its controller knows it (spec/11 Tables 11.21 to 11.24). -/
structure RNode where
  pos : Nat := 0
  present : Bool := false
  passed : Bool := false
  isolated : Bool := false
  mlow : Nat := 0
  mlowSat : Bool := false
  babble : Nat := 0
  babbleSat : Bool := false
  skew : Nat := 0
  skewSat : Bool := false
  late : Bool := false
  slow : Bool := false
  hpAck : Bool := false
  ack : Bool := false
  minMarg : Option Int := none
  fwdPlan : Nat := 0
  fwdLast : Nat := 0
  /-- largest value since DISCOVER (spec/19 Table 19.4) -/
  fwdPeak : Nat := 0
  /-- growth in half nanoseconds from the first answer of a TIME pair, until the second (R382) -/
  timeGrowth : Nat := 0
  /-- babbling offences since entry to DISCOVER (R359) -/
  offences : Nat := 0
  lateRun : Bool := false
  /-- the last cycle that brought blocks of the node had one of low margin; blocks of this cycle, low ones among them -/
  mlowRun : Bool := false
  mlowNow : Bool := false
  seenNow : Bool := false
  /-- header words of the latest gather block used, or of the latest STAT answer (R361, R365) -/
  g0 : Word := 0
  g1 : Word := 0
  /-- the node shows the pending proposal's acknowledgement in a block used since it was made (R365) -/
  acked : Bool := false
  dlyE : Nat := 0
  dlyW : Nat := 0
  fwdE : Nat := 0
  fwdW : Nat := 0
  /-- declared forwarding latency in ns and its identity words (Table 10.10) -/
  ident : List Word := []
  /-- smallest margin of the present hour, for the ledger (spec/19) -/
  hourMarg : Option Int := none
  /-- eye results of ports P0 and P1: horizontal and vertical opening (R330) -/
  eye0 : Nat × Nat := (0, 0)
  eye1 : Nat × Nat := (0, 0)
  /-- insertion error and guard of its gather block of this cycle, ns (spec/15 Table 15.2) -/
  eNow : Int := 0
  gNow : Nat := 0
  /-- scatters missed in a row, as the gather records report them (spec/04 R130) -/
  missRun : Nat := 0
deriving DecidableEq, Repr, Inhabited

/-- A frame sent, kept until it has returned (R358): ring path, class, cycle, words and its trellis entry. -/
structure SentFrame where
  pathW : Bool := false
  cls : Nat := 0
  ncc : Word := 0
  words : List Word := []
  e0 : Word := 0
  e1 : Word := 0
deriving DecidableEq, Repr, Inhabited

/-- Why an ACYC transfer was sent (spec/10 Table 10.9). -/
inductive AKind where
  /-- nothing is done with the answer -/
  | plain
  /-- PREAD or PWRITE of a class-N command (spec/03 R651) -/
  | param (id : Nat)
  /-- TIME of R382 -/
  | time
  /-- STAT of R361 -/
  | stat
  /-- MBOX transfer for mailbox channel c (spec/17) -/
  | mbox (c : Nat)
deriving DecidableEq, Repr, Inhabited

/-- A transfer waiting for an ACYC frame (spec/10 Table 10.8). -/
structure AXfer where
  kind : AKind := .plain
  pathW : Bool := false
  dst : Nat := 0
  svc : Nat := 0
  tag : Nat := 0
  arg : Word := 0
  words : List Word := []
  rwords : Nat := 0
  sent : Bool := false
  /-- the cycle in whose frame it leaves, where one is fixed (spec/11 R375, R376) -/
  cyc : Option Word := none
deriving DecidableEq, Repr, Inhabited

/-- A standby's place on a ring, where it meets the obligations of a node (spec/13 R410, spec/10 R328, R345, R347). -/
structure NodePart where
  /-- ring position, 0 while none is taken (R328) -/
  pos : Nat := 0
  /-- in INIT: no SYNC frame with LOOPED = 0 has come for 10 ms, or NODE_RESET (R345, R347) -/
  init : Bool := false
  /-- no frame since INIT began: the next one sets the highest epoch (R341) -/
  anyEpoch : Bool := false
  /-- ports out of use: what would leave there is turned back (R345) -/
  lost0 : Bool := false
  lost1 : Bool := false
  /-- instant of the last SYNC frame with LOOPED = 0 -/
  lastSync : BitVec 64 := 0
  /-- the NCMD transfer carried out and not yet answered, by its tag (R327) -/
  done : Option Nat := none
  /-- the cycle whose mode the heal marker of the last SYNC frame named, and that mode (R346) -/
  heal : Option (Word × Nat) := none
deriving DecidableEq, Repr, Inhabited

/-- One ring controller and its ring (spec/10, spec/11 Tables 11.19, 11.20). -/
structure RingSt where
  p0 : RPort := {}
  p1 : RPort := {}
  nodes : Tab RNode := []
  /-- node IDs by ring position from 1, with the passed-over mark -/
  byPos : List (Nat × Bool) := []
  loopE : Nat := 0
  loopW : Nat := 0
  found : Nat := 0
  isolPos : Nat := 0
  line : Bool := false
  openSeen : Bool := false
  lamE : Nat := 0
  lamW : Nat := 0
  /-- the head of this cycle's path-E GATHER has returned (R370) -/
  gatherBack : Bool := false
  /-- RESCUE is sent in the cycles up to this one (spec/11 R371) -/
  rescueTo : Option Word := none
  /-- a break has been found in the present topology and answered -/
  broken : Bool := false
  /-- cycle of an isolation's loop and the controller ports it takes out of use (R376) -/
  isolAt : Option (Word × Bool × Bool) := none
  sent : List SentFrame := []
  acyc : List AXfer := []
  nextTag : Nat := 0
  /-- eye results of the controller's own ports -/
  eye0 : Nat × Nat := (0, 0)
  eye1 : Nat × Nat := (0, 0)
  /-- forwards passively: listening or in role STANDBY (R377, spec/01 R28) -/
  passive : Bool := false
  /-- a good frame has come in this cycle, for R439 of spec/13 -/
  goodNow : Bool := false
  /-- ring position of the standby unit, 0 where none is found (spec/13 R410) -/
  standbyPos : Nat := 0
  /-- this unit's own place on the ring while it is the standby -/
  node : NodePart := {}
deriving DecidableEq, Repr, Inhabited

/-- A pending mode proposal (spec/11 R364, R365). -/
structure Proposal where
  mode : Nat := 0
  n : Word := 0
  cmd : CmdRef := {}
  /-- the state the switch leads to: RUN or COMMISSION of a STATE_REQUEST or of PLAN -/
  target : Option DevState := none
  agreed : Bool := false
  /-- a guard revision of the mode in force: the ring guards it brings (spec/19 R588) -/
  revision : Option (Nat × Nat) := none
deriving DecidableEq, Repr, Inhabited

/-- A heal marker on its way: cycle of the marker, switch sync point, mode (spec/11 R371). -/
structure HealPend where
  mode : Nat := 0
  at_ : Word := 0
deriving DecidableEq, Repr, Inhabited

/-- A mode as PLAN built it (spec/11 Table 11.18). -/
structure ModeRec where
  valid : Bool := false
  hsrc : Bool := false
  rate : Nat := 0
  slowl : Nat := 0
  count : Nat := 0
  first : Nat := 0
deriving DecidableEq, Repr, Inhabited

/-- The trellis, modes, healing and start-up (spec/11). -/
structure TrlSt where
  base : Nat := 0
  smap : Nat := 0
  modes : Tab ModeRec := []
  prop : Option Proposal := none
  propN : Word := 0
  /-- an aborted proposal, carried in SYNC up to its N + 1 (R365) -/
  abort : Option Proposal := none
  aborted : Bool := false
  heal : Option HealPend := none
  /-- breaks detected in the present cycle: ring A, ring B (R371, R650) -/
  brkA : Bool := false
  brkB : Bool := false
  /-- breaks detected while a marker is pending, answered at its sync point (R650) -/
  laterA : Bool := false
  laterB : Bool := false
  /-- TIME transfers held back while background tasks wait (R382, spec/12 R399) -/
  timeDue : Bool := false
  invalid : Bool := false
  invCond : Nat := 0
  invMode : Nat := 0
  epoch : Nat := 0
  /-- the unit has been in charge since its last reset, so it keeps its epoch (R378) -/
  epochKept : Bool := false
  offered : Bool := false
  /-- the built-in schedule is in force (R361) -/
  builtIn : Bool := false
  /-- step 6 of R381 has been reached: STAT transfers are sent -/
  statOn : Bool := false
  listening : Bool := false
  conflict : Bool := false
  /-- a contention lost while transmitting, which counts at the next sync point: true for an equal UNIT_ID (Table 11.9) -/
  stopNext : Option Bool := none
  /-- DISCOVER step to be finished next: 0 Enumerate to 4 Scan; none outside DISCOVER -/
  step : Option Nat := none
  /-- the step failed and waits for its repeat (R379) -/
  waiting : Bool := false
  /-- mode 0 slot entries written to every node (R362) -/
  slots0 : Bool := false
  /-- a STATE_REQUEST(RUN) waiting for the slot entries (R362) -/
  runWait : Option CmdRef := none
  /-- the STATE_REQUEST(DISCOVER) under way (spec/03 Table 3.4) -/
  discCmd : Option CmdRef := none
  /-- PLAN found every step right, and proposes mode 5 (R381) -/
  planOk : Bool := false
  img : Option Image := none
  outImg : Tab Word := []
  inImg : Tab Word := []
  /-- output points written ahead of their sync point: command, image key, lowest bit, width, value before (spec/04 R97) -/
  undoOut : List (Nat × Nat × Nat × Nat × Nat) := []
  /-- slow blocks wait for this slow-group start after a mode change (R367) -/
  slowFrom : Word := 0
  /-- consecutive cycles without a good frame on any ring port (spec/13 R439) -/
  noGood : Nat := 0
  /-- a frame of a higher epoch has been seen: the unit yields at its next sync point (spec/13 R439) -/
  yieldNext : Bool := false
  /-- words TRL_STAT and TRL_MODEm as they stood at the last sync point (R383) -/
  shownStat : Word := 0
  shownModes : List Word := []
deriving DecidableEq, Repr, Inhabited

/-- A power curve in the governor's timeline (spec/05 R177, spec/12 R388 to R392): its instants in seconds of FRC time,
bin values in W; fin is the end of its contributions, none while it goes on. -/
structure Curve where
  id : Nat := 0
  axes : List Nat := []
  t0 : ℚ := 0
  bins : List ℚ := []
  tail : ℚ := 0
  fin : Option ℚ := none
deriving DecidableEq, Repr, Inhabited

/-- GEAR_W of an axis counted from an instant on (R388). -/
structure GearPower where
  axis : Nat := 0
  t0 : ℚ := 0
  fin : Option ℚ := none
  soft : Bool := false
deriving DecidableEq, Repr, Inhabited

/-- The energy governor (spec/12 Tables 12.1, 12.7 to 12.11). -/
structure EgvSt where
  peakW : Word := 0
  winMs : Nat := 100
  winJ : Word := 0
  regenJ : Word := 0
  staticW : Word := 0
  tlBase : Nat := 0
  on : Bool := false
  runOff : Bool := false
  excess : Bool := false
  rebuild : Bool := false
  xdet : Nat := 0
  xbin : Word := 0
  /-- the present bin b0 (R387) -/
  bin : Nat := 0
  pnow : F32 := 0
  /-- the values last written to the timeline ring, from bin ringAt on (R393, R408) -/
  ring : List F32 := []
  ringAt : Nat := 0
  /-- predicted values of the bins before b0, the latest first, at most 1,791 -/
  past : List ℚ := []
  curves : List Curve := []
  gears : List GearPower := []
  nextCurve : Nat := 1
deriving DecidableEq, Repr, Inhabited

/-- Die thermal states (spec/12 Table 12.5). -/
inductive Therm where
  | full | trim | lean | hold
deriving DecidableEq, Repr, Inhabited

/-- The thermal side of PWR (spec/12 Tables 12.12, 12.13). -/
structure ThermSt where
  state : Therm := .full
  prev : Therm := .full
  tmax : BitVec 9 := 0
  sens : List (BitVec 9) := [0, 0, 0, 0]
deriving DecidableEq, Repr, Inhabited

/-- A job of the task dispatcher (spec/12 R402): affinity key, and the packet an admission job admits. -/
structure Job where
  key : Nat := 0
  packet : Nat := 0
deriving DecidableEq, Repr, Inhabited

/-- The task dispatcher (spec/12 Tables 12.14 to 12.16). -/
structure TduSt where
  /-- queues of levels 0 to 7, oldest first -/
  levels : List (List Job) := List.replicate 8 []
  peaks : List Nat := List.replicate 8 0
  refuse : Nat := 0
  sat : Bool := false
  /-- levels at which a run of refusals is under way (R407) -/
  fullRun : BitVec 8 := 0
  awake : BitVec 4 := 0xF
  /-- core that last ran a job of an affinity key, plus one; 0 none (R406) -/
  lastCore : Tab Nat := []
deriving DecidableEq, Repr, Inhabited

/-- An inherited journal entry with the parameter words of its command (spec/13 Table 13.4, JRN). -/
structure JInherit where
  words : List Word := []
  params : List Word := []
deriving DecidableEq, Repr, Inhabited

/-- Graft redundancy (spec/13 Tables 13.6 to 13.13). -/
structure GrfSt where
  en : Bool := false
  missSat : Bool := false
  miss : Nat := 0
  capacity : Bool := false
  yielded : Bool := false
  tko : Bool := false
  tkMode : Nat := 0
  cover : Bool := false
  rotOk : Bool := false
  staticOk : Bool := false
  suspect : Bool := false
  partner : Bool := false
  lane0 : Bool := false
  lane1 : Bool := false
  last : Word := 0
  tkoL : Word := 0
  sizeLast : Nat := 0
  sizePeak : Nat := 0
  cap : Nat := 0
  allow : Nat := 0
  pUnit : Nat := 0
  pRole : Nat := 0
  pStale : Bool := false
  pSuspect : Bool := false
  pRingWait : Bool := false
  pEpoch : Nat := 0
  /-- this unit was in role ACTIVE when PLAN last ran (R411) -/
  home : Bool := true
  /-- mode 3 was entered by a takeover (Table 13.1) -/
  tko3 : Bool := false
  /-- records of the set in transmission still to be sent, and its cycle (R420, R421) -/
  out : List (List Word) := []
  outNcc : Word := 0
  incomplete : Bool := false
  /-- axes re-planned in this cycle, 0x1000 + stepper for a stepper (R421) -/
  newPlans : List Nat := []
  /-- what the staging of each committed bundle was when it was last sent (R421) -/
  stageSeen : List (List Nat) := []
  /-- the JRN records of the journal as it stood when the set in transmission was built, for the refresh rotation (R431) -/
  rot : List (List Word) := []
  /-- places of the static transfer and of the refresh rotation (R431) -/
  statPos : Nat := 0
  rotPos : Nat := 0
  /-- registers written in CONFIG, for REG records: address and value (R431) -/
  regs : Tab Word := []
  /-- good STATUS frame in this cycle; cycles in a row without one (R441) -/
  gotStatus : Bool := false
  noStatus : Nat := 0
  /-- frames of the present set received: SEQI and body; the set's cycle; something against it (R426) -/
  rx : Tab (List Word) := []
  rxNcc : Word := 0
  rxBad : Bool := false
  /-- slots whose frame has been received in the present cycle, as bits of SEQI -/
  got : Nat := 0
  /-- consecutive missing SET frames, and whether the unit was eligible when the run began (R432) -/
  missRun : Nat := 0
  eligible : Bool := false
  /-- counter value at which a takeover was decided (R433) -/
  decided : Option (BitVec 64) := none
  goodSets : Nat := 0
  /-- what a standby holds from the sets: journal, plans, hedge sequence numbers, bundle staging words -/
  jrn : List JInherit := []
  plans : Tab (List Word) := []
  hedge : List Word := []
  stage : Tab (List Word) := []
  /-- state block words of the last SERVO records, by axis -/
  servo : Tab (List Word) := []
  /-- good SYNC frames on each ring port in this cycle, as bits: ring A ports 0 and 1, ring B ports 0 and 1 (R428) -/
  syncPorts : Nat := 0
  /-- such frames came on both ports of every ring in use in the cycle before (R418, R428) -/
  syncOk : Bool := false
  /-- takeover report still to be written (R137) -/
  reportDue : Bool := false
  /-- inherited entries that were not final at L, for the takeover report (spec/04 R137) -/
  heirs : List Nat := []
  /-- sync points from which rings are whole again, by ring (R436, R443) -/
  ringAt : List (Bool × Word) := []
  /-- GRF_STAT, GRF_LAST and GRF_PSTAT as they stood at the last sync point (R445) -/
  shownStat : Word := 0
  shownLast : Word := 0
  shownPstat : Word := 0
deriving DecidableEq, Repr, Inhabited

end Sys2Proof.Machine
end

