-- ==== Sys2Proof/Machine/StateSite.lean ====
section
/-! DEFINITION. Parts of the state as plain data: Hedge, harvest, memory, mailboxes, clocks, boot and ledger (INVENTORY.md, State). -/

namespace Sys2Proof.Machine

/-- Hedge channel states (spec/14 Table 14.3). -/
inductive HState where
  | init | open_ | locked
deriving DecidableEq, Repr, Inhabited

/-- A black-channel connection as Hedge-P keeps it (spec/14 R462 to R467). -/
structure HConn where
  nextTx : Nat := 0
  nextRx : Nat := 0
  /-- the last valid frame arrived at most TE earlier -/
  alive : Bool := false
  /-- a valid frame has arrived since the connection became expected -/
  seen : Bool := false
  /-- data words of the last valid frame, D1 first -/
  data : List Nat := []
  /-- RREL of the connection has been set since the Hedge reset, so its brake has a test timer (R468) -/
  timer : Bool := false
  due : Bool := false
deriving DecidableEq, Repr, Inhabited

/-- A brake test at Hedge-P (spec/14 Table 14.11). -/
structure BTest where
  remote : Bool := false
  /-- pair, or connection when remote -/
  idx : Nat := 0
  conn : Nat := 0
  /-- 0 engaging, 1 hold window, 2 passed and ramping back -/
  phase : Nat := 0
  pRef : Nat := 0
  maxDev : Nat := 0
  /-- a valid drive frame has arrived in the hold window -/
  got : Bool := false
deriving DecidableEq, Repr, Inhabited

/-- The Hedge island (spec/14); every field is zero or INIT in reset. -/
structure HdgSt where
  /-- HRST_N is high; the Hedge supplies are in range -/
  hrstN : Bool := false
  supply : Bool := true
  pState : HState := .init
  lState : HState := .init
  swP : Nat := 0
  swL : Nat := 0
  /-- inputs SI[15:0], filtered -/
  si : BitVec 16 := 0
  hlkiP : Bool := false
  hlkiL : Bool := false
  ackN : Bool := true
  /-- the unit's own outputs HLK_P_N and HLK_L_N -/
  hlkP : Bool := false
  hlkL : Bool := false
  brkP : BitVec 8 := 0
  brkL : BitVec 8 := 0
  stoA : Bool := false
  stoB : Bool := false
  /-- pulse results of the present and of the last frame of TPS pulses: key 5 n for stuck high, 5 n + 1 + j for a cross
  short to TPS[j] (R461) -/
  pulseNow : Tab Nat := []
  pulsePrev : Tab Nat := []
  siFault : BitVec 16 := 0
  /-- 100 ms of a lock release have not passed (R476) -/
  blocked : Bool := false
  /-- heartbeat: fresh, and what the last HB message said -/
  hbFresh : Bool := false
  /-- role of the last HB message, 3 before the first -/
  hbRole : Nat := 3
  hbStale : Bool := false
  hbCount : Nat := 0
  hbLocal : BitVec 8 := 0
  hbConn : BitVec 64 := 0
  /-- what connection 0 said last -/
  lrel : BitVec 8 := 0
  stoPermit : Bool := false
  btWin : Nat := 0
  connMask : BitVec 64 := 0
  rrel : BitVec 64 := 0
  conns : Tab HConn := []
  /-- the cross-link: next count sent, last count received, and what Hedge-L last used (R448) -/
  xCount : Nat := 0
  lCount : Nat := 15
  xOk : Bool := false
  xRel : BitVec 8 := 0
  xSto : Bool := false
  xLock : Bool := false
  /-- PASS still to be sent -/
  pass : Option Nat := none
  lOverdue : BitVec 8 := 0
  due : BitVec 8 := 0
  passed : BitVec 8 := 0
  test : Option BTest := none
  /-- causes that persist to the next Hedge reset (R475) -/
  permanent : Bool := false
  propag : Bool := false
  fcode : Nat := 0
  fLast : Nat := 0
  fIndex : Nat := 0
  fTms : Nat := 0
  /-- Hedge-P time, ms since the Hedge reset -/
  ms : Nat := 0
  /-- a lock release waits for its HLKI check (R476) -/
  relCheck : Bool := false
  /-- the status window HDG_STAT to HDG_FAULT of the last refresh (R450) -/
  win : List Word := List.replicate 8 0
  /-- at that refresh: drive connections that were due, and each connection's numbers next to send and next expected (R479) -/
  winDue : BitVec 64 := 0
  winSeq : List Word := []
  /-- black-channel frames DQA and DQB hold for their next SAFETY frames: ring B, connection, frame (R480) -/
  fromHedge : List (Bool × Nat × List Word) := []
  /-- SC0's side: count of the next HB message, and the BRAKE_TEST_REQ under way with its axis -/
  hbNext : Nat := 0
  btCmd : Option (CmdRef × Nat) := none
deriving DecidableEq, Repr, Inhabited

/-- A trigger event waiting for its sample: kind (1 XTRIG, 2 TBUS, 5 force), its first cycle, its instant as FRC and ns
within the FRC unit (spec/15 R490). -/
structure HvTrig where
  kind : Nat := 0
  from_ : Word := 0
  frc : BitVec 64 := 0
  fine : Nat := 0
deriving DecidableEq, Repr, Inhabited

/-- A capture set (spec/15 Tables 15.3, 15.4, 15.12). -/
structure HvSet where
  /-- 0 DISARMED, 1 PRE, 2 POST, 3 FROZEN, 4 HELD -/
  st : Nat := 0
  /-- the descriptor copy in force (R482) -/
  desc : List Word := []
  linked : Bool := false
  maskEn : Bool := false
  /-- captures since arming out of DISARMED, and whether the first is still to come -/
  capture : Nat := 0
  pos : Nat := 0
  /-- samples stored in this capture, held at DEPTH -/
  taken : Nat := 0
  mfail : Bool := false
  maskFail : Bool := false
  msig : Nat := 0
  mpt : Nat := 0
  /-- samples of this capture so far, and its number at the first violation and at a change of rate or after a gap -/
  count : Nat := 0
  midx : Nat := 0
  mark : Option Nat := none
  rchg : Bool := false
  gap : Bool := false
  latew : Bool := false
  /-- trigger: kind, sample number, position, its NCC, FRC and ns -/
  tkind : Nat := 0
  tcount : Nat := 0
  tpos : Nat := 0
  tpre : Nat := 0
  tncc : Word := 0
  tfrc : BitVec 64 := 0
  tfine : Nat := 0
  /-- POST samples still to take -/
  left : Nat := 0
  waiting : Option HvTrig := none
  /-- level trigger primed for a rising, for a falling edge (R491) -/
  primedUp : Bool := false
  primedDown : Bool := false
  armFrc : BitVec 64 := 0
  freezeFrc : Option (BitVec 64) := none
  /-- trigger events since the freeze, and counter periods of the hold-off spent in thermal state HOLD (R493, Table 15.3) -/
  events : Nat := 0
  holdLost : Nat := 0
  /-- the mask anchor fell at this cycle and the signals restart (R498) -/
  anchor : Bool := false
  /-- sampled in HOLD meanwhile -/
  suspended : Bool := false
  rate : Nat := 0
deriving DecidableEq, Repr, Inhabited

/-- A comparator slot (spec/15 R497): its set; the mask signal and its points, or a level trigger. -/
structure HvSlot where
  set_ : Nat := 0
  level : Bool := false
  sig : Nat := 0
  points : Nat := 0
  /-- next point to compare; none until an anchor -/
  next : Option Nat := none
deriving DecidableEq, Repr, Inhabited

/-- The harvest engine (spec/15 Tables 15.5 to 15.14). -/
structure HvsSt where
  dbase : Nat := 0
  bbase : Nat := 0
  blen : Nat := 0
  mbase : Nat := 0
  derr : Nat := 0
  sets : Tab HvSet := []
  slots : Tab (Option HvSlot) := []
  xfilt : Nat := 0
  xlevel : BitVec 4 := 0
  didx : Nat := 0
  calOk : Bool := false
  /-- c and d of R503, signed ns and ns -/
  dcomp : Int := 0
  tcomp : Nat := 0
  /-- NCC of S0, and whether S0 + 64 has passed (R503) -/
  s0 : Option Word := none
  domOn : Bool := false
  /-- values in force at the present sync point (R484) -/
  fpAt : Tab FpPort := []
  inAt : Tab Word := []
  outAt : Tab Word := []
  stpAt : Tab StpAxis := []
  pnowAt : F32 := 0
  /-- effects of this cycle that are mask anchors: kind 1 servo, 2 stepper, 3 queue, and index (R498) -/
  anchors : List (Nat × Nat) := []
  /-- HVS_STAT and HVS_Sn_STAT as they stood at the last sync point (R504) -/
  shownStat : Word := 0
  shownSets : List Word := List.replicate 8 0
deriving DecidableEq, Repr, Inhabited

/-- Bank memory controller and semaphores (spec/16 Tables 16.5 to 16.19). -/
structure MemSt where
  arb : Bool := false
  pwrOn : BitVec 8 := 0
  clrBusy : BitVec 8 := 0
  clrDone : BitVec 8 := 0
  /-- banks that spares S0 and S1 replace (R523) -/
  s0 : Option Nat := none
  s1 : Option Nat := none
  retmark : BitVec 32 := 0
  pcrc : Nat := 0
  pcrcSat : Bool := false
  sweepUs : Nat := 0
  /-- static pages as ranges: first page, number of pages (R519) -/
  static : List (Nat × Nat) := []
  /-- the store of page CRCs by page; the CRC of a page of zeros is not listed (R520) -/
  pageCrc : Tab Nat := []
  ueValid : Bool := false
  ueMid : Nat := 0
  ueKind : Nat := 0
  ueAddr : Nat := 0
  conf : Tab Nat := []
  confSat : BitVec 32 := 0
  cerr : Tab Nat := []
  cerrSat : BitVec 32 := 0
  /-- banks whose first corrected error since the last read of their counter has been logged (R516) -/
  cerrLogged : BitVec 32 := 0
  /-- stored codes that do not match: 1 single-bit error, 2 uncorrectable (R515) -/
  ecc : Tab Nat := []
  /-- addresses whose corrected word is still to be written back (R516) -/
  writeBack : List Nat := []
  /-- static pages whose CRC has failed (R521) -/
  badPages : List Nat := []
  /-- an access to a group that is off was the last access to it (R525) -/
  offRun : BitVec 8 := 0
  /-- semaphore holders: MID + 1, 0 free (R527) -/
  sems : Tab Nat := []
deriving DecidableEq, Repr, Inhabited

/-- One side of a mailbox channel: its staging words, the queue from it to the other side, its flags (spec/17
Table 17.1). -/
structure MbxSide where
  sd : List Word := List.replicate 8 0
  queue : List (List Word) := []
  slost : Nat := 0
  slostSat : Bool := false
  aborted : Bool := false
  /-- a run of discarded sends is under way (R538) -/
  lostRun : Bool := false
deriving DecidableEq, Repr, Inhabited

/-- A mailbox channel (spec/17 Table 17.2). -/
structure MbxChan where
  valid : Bool := false
  midA : Nat := 0
  midB : Nat := 0
  a : MbxSide := {}
  b : MbxSide := {}
  /-- a run of accesses by a MID that is neither side is under way (R536) -/
  strangerRun : Bool := false
deriving DecidableEq, Repr, Inhabited

/-- The mailboxes (spec/17). -/
structure MbxSt where
  chans : Tab MbxChan := []
  lock : Bool := false
  /-- MBX_PEND of MIDs 0 and 1 was not zero when last seen (spec/20 Table 20.2, source 8) -/
  pendHost : Bool := false
  pendSpi : Bool := false
deriving DecidableEq, Repr, Inhabited

/-- Where the start-up of spec/18 Table 18.3 stands. -/
inductive Startup where
  /-- PORST_N low, or held by a thermal trip -/
  | held
  | settle
  | judge
  | locking
  | clearing
  /-- BOOT entered: the sequence is over -/
  | done
deriving DecidableEq, Repr, Inhabited

/-- Clocks, power domains, reset and boot (spec/18 Tables 18.9 to 18.25). -/
structure BootSt where
  start : Startup := .done
  /-- levels of the strap pins, and the straps as read at the last entry to BOOT (R568) -/
  strapUnit : Nat := 0
  strapMode : Nat := 0
  unitId : Nat := 0
  bootMode : Nat := 0
  img0Bad : Bool := false
  image : Bool := false
  /-- the host has written GO; the check of its image is under way -/
  go : Bool := false
  /-- BOOT_OK and STAT[2:0] while the device has not left BOOT_HOLD -/
  bootOk : Bool := true
  holdStat : Nat := 0
  /-- firmware accepted: the configuration load of BOOT is under way -/
  verified : Bool := false
  /-- held in reset by a thermal trip (R30) -/
  tripped : Bool := false
  /-- PORST_N is low while the trip holds the device -/
  tripLow : Bool := false
  /-- XO failed after BOOT: every unit has stopped (R552) -/
  dead : Bool := false
  /-- external REFCLK lost (R553) -/
  refLost : Bool := false
  passes : Nat := 0
  fails : Nat := 0
  lastC : Nat := 0
  agePpm : Nat := 0
  perstWhole : Bool := true
  cfgBusy : Bool := false
  cfgLen : Nat := 0
  ptrEmpty : Bool := false
  slot : Nat := 0
  cfgId : Word := 0
  refsrc : Bool := false
  refLock : Bool := false
  mBusy : Bool := false
  meas : Nat := 0
  mref : Nat := 0
  nref : Nat := 0
  mcnt : Nat := 0
  /-- CLK_GATE as bits, none before the first write: the variant's reset value (Table 18.21); likewise CLK_GATECE -/
  gate : Option Nat := none
  gateCe : Option Nat := none
  prune : Bool := false
  domEn : Bool := false
  domLoss : Bool := false
  domLate : Bool := false
  /-- a non-master waits for DCLK after its entry to DISCOVER (R555) -/
  domWait : Bool := false
  /-- counter value at the last rising edge of DCLK (R555, R556) -/
  dclkAt : Option (BitVec 64) := none
  bgrp : BitVec 8 := 0xFF
  /-- the test access port's instruction (spec/22 R629); IEEE 1149.1 resets it to IDCODE (log 98) -/
  tapIr : TapIr := .idcode
deriving DecidableEq, Repr, Inhabited

/-- The QSPI flash and the direct access to it (spec/18 R572, R577): bytes other than 0xFF by address. -/
structure FlashSt where
  cells : Tab Nat := []
  busy : Bool := false
  err : Bool := false
  /-- the operation in progress: OP, address, length -/
  op : Option (Nat × Nat × Nat) := none
  /-- spares S0 and S1 that the ledger has marked (spec/16 R524) -/
  spareBad : BitVec 2 := 0
  /-- ring-oscillator reference counts by 8 * band + monitor, plus one, and the first 24 hourly rate words ever, which the
  ledger keeps beside its records (spec/19 R579, R580) -/
  refs : Tab Nat := []
  firstRates : List Word := []
  addr : Nat := 0
  buf : Tab Nat := []
deriving DecidableEq, Repr, Inhabited

/-- One hour of the ledger (spec/19 Table 19.1): rate word, largest |e| of rings A and B, corrected errors by bank. -/
structure AgeHour where
  rate : Word := 0
  eA : Nat := 0
  eB : Nat := 0
  cerr : Tab Nat := []
deriving DecidableEq, Repr, Inhabited

/-- The ageing ledger (spec/19 Tables 19.3 to 19.8). -/
structure AgeSt where
  base : Nat := 0x700000
  cerrLim : Nat := 64
  fresh : Bool := false
  recNone : Bool := false
  recMode : Nat := 0
  exhA : Bool := false
  exhB : Bool := false
  /-- MARGIN_EXHAUSTED has been logged in the mode in force -/
  exhRunA : Bool := false
  exhRunB : Bool := false
  ceilOn : Bool := false
  ceil_ : Nat := 0
  xoUnk : Bool := false
  xoAged : Bool := false
  /-- guards in force in 4 ns units (R590), and the last G_req (Table 19.8) -/
  guardA : Nat := 0
  guardB : Nat := 0
  reqA : Nat := 0
  reqB : Nat := 0
  /-- guards of the last PLAN -/
  planA : Nat := 0
  planB : Nat := 0
  /-- largest |e| of the present second and of the present hour on rings A and B -/
  eSecA : Nat := 0
  eSecB : Nat := 0
  eHourA : Nat := 0
  eHourB : Nat := 0
  /-- an aborted guard revision that is to be proposed again (R589) -/
  retry : Option (Nat × Nat) := none
  seq : Word := 0
  /-- operating time, seconds -/
  secs : Word := 0
  /-- hourly values, the newest first, at most 720 -/
  hours : List AgeHour := []
  /-- slowdown of the ring-oscillator monitors in 0.01 % (R580) -/
  slow : List Int := List.replicate 8 0
  /-- controller receivers DQA P0, P1, DQB P0, P1: horizontal and vertical opening, preset in use, and the horizontal
  openings of the presets at the last DISCOVER -/
  eyes : List (Nat × Nat × Nat) := List.replicate 4 (0, 0, 0)
  presets : List (List Nat) := List.replicate 4 []
  /-- corrected errors of this hour by bank -/
  cerrHour : Tab Nat := []
  /-- milliseconds in the eight temperature bands; thermal trips; peak temperature -/
  tempMs : List Nat := List.replicate 8 0
  trips : Nat := 0
  tPeak : BitVec 9 := 0
  /-- place of the next record in the flash region, 0 to 1919 -/
  place : Nat := 0
  /-- period of the dynamic sweep is 0.5 s (Table 19.2) -/
  fastScrub : Bool := false
deriving DecidableEq, Repr, Inhabited

end Sys2Proof.Machine
end

