-- ==== Sys2Proof/Machine/State.lean ====
section
/-! DEFINITION. The state of the VX1284 as plain data: Dev gathers one structure per unit of the spec, and State holds it
with the variant, the bank memory and the queue of waiting commands (INVENTORY.md, State). -/

namespace Sys2Proof.Machine

/-- Everything but the bank memory, the variant and the queue: the units of spec/01 Table 1.1. -/
structure Dev where
  sys : SysSt := {}
  phase : PhaseSt := {}
  cmd : CmdSt := {}
  pln : PlnSt := {}
  ce : CeSt := {}
  fd : Tab FdUnit := []
  stp : StpSt := {}
  fp : Tab FpPort := []
  /-- ring controllers DQA (0) and DQB (1) -/
  dq : Tab RingSt := []
  /-- their registers as they stood at the last sync point (spec/11 R383) -/
  dqShown : Tab RingSt := []
  trl : TrlSt := {}
  egv : EgvSt := {}
  therm : ThermSt := {}
  tdu : TduSt := {}
  grf : GrfSt := {}
  hdg : HdgSt := {}
  hvs : HvsSt := {}
  mem : MemSt := {}
  mbx : MbxSt := {}
  boot : BootSt := {}
  flash : FlashSt := {}
  age : AgeSt := {}
  hif : HifSt := {}
  ptm : PtmSt := {}
  /-- messages sent out of the block, oldest first (log 3) -/
  out : List OutMsg := []
  /-- the model's own counter of free values used (log 5) -/
  freeCtr : Nat := 0
deriving DecidableEq, Repr, Inhabited

/-- The bank memory: word address and word, addresses rising, no zero word listed; an unlisted word reads zero, as the
clear of spec/16 R526 leaves it. -/
abbrev Mem := Tab Word

/-- One effect of a command on the bank memory. -/
inductive MemOp where
  /-- one word written -/
  | word (a : Nat) (v : Word)
  /-- the n words from lo on that lie in the banks whose bit is set become zero (spec/16 R526, spec/18 R564) -/
  | clear (banks : BitVec 32) (lo n : Nat)
deriving DecidableEq, Repr

/-- The machine: its variant (spec/00 Table 0.1), its bank memory, its units, and the commands that wait. -/
structure State where
  variant : Variant
  mem : Mem
  dev : Dev
  pending : List Instr
deriving DecidableEq, Repr

/-- Why the machine would stop. No command of this block stops it: the spec reports every failure in a status, a flag
or an event, so no meaning raises this; it is safe, since nothing runs past it. -/
inductive Fault where
  /-- never raised -/
  | none_
deriving DecidableEq, Repr

/-- Why a command has no meaning here. -/
inductive Refusal where
  /-- raised by exec's arms for a command not modelled yet (safe: the command does nothing provable) -/
  | notModelled (mnemonic : String)
deriving DecidableEq, Repr

/-- The machine right after reset: every unit at its reset values, nothing in bank memory, no command waiting. The
variant is the VX1284 (log 2). -/
def State.reset : State := { variant := .vx1284, mem := [], dev := {}, pending := [] }

end Sys2Proof.Machine
end

