-- ==== Sys2Proof/Machine/Work.lean ====
section
/-! DEFINITION. The working copy a command's meaning acts on: the units, the bank memory as the command found it, and the
list of memory effects so far. `run` takes them back into State: the queue and the variant are never touched, and every
change of the bank memory goes through `memApply`. -/

namespace Sys2Proof.Machine

/-- The working copy: variant and bank memory as found, memory effects so far (newest first), units. -/
structure Work where
  variant : Variant
  base : Mem
  ops : List MemOp
  d : Dev
deriving DecidableEq, Repr

/-- The first bank word address (spec/00 Conventions). -/
def bankLo : Nat := 0x400000

/-- One past the last bank word address. -/
def bankHi : Nat := 0x800000

/-- A bank word address (spec/00 Conventions, spec/16 R505). -/
def isBank (a : Nat) : Bool := decide (bankLo ≤ a) && decide (a < bankHi)

/-- Read one word of the bank memory. -/
def memRead (m : Mem) (a : Nat) : Word := tabGet 0 m a

/-- Write one word of the bank memory, keeping the canonical form; an address outside the banks holds nothing. -/
def memWrite (m : Mem) (a : Nat) (v : Word) : Mem := if isBank a then tabSet 0 m a v else m

/-- An address lies in the n words from lo on, in a bank whose bit is set: bank b holds the addresses with address bits
[4:0] = b (spec/16 R505). -/
def clearHits (banks : BitVec 32) (lo n a : Nat) : Bool := banks.getLsbD (a % 32) && decide (lo ≤ a) && decide (a < lo + n)

/-- Clear words of banks. -/
def memClear (m : Mem) (banks : BitVec 32) (lo n : Nat) : Mem := tabKeep (fun a => !clearHits banks lo n a) m

/-- One effect on the bank memory. -/
def memDo (m : Mem) : MemOp → Mem
  | .word a v => memWrite m a v
  | .clear banks lo n => memClear m banks lo n

/-- The effects of a command, the newest first in the list, applied oldest first. -/
def memApply (m : Mem) (ops : List MemOp) : Mem := ops.foldr (fun o m => memDo m o) m

/-- The memory is in its canonical form and lists bank words only. -/
def memWf (m : Mem) : Bool := tabWf 0 m && m.all (fun kv => isBank kv.1)

/-- Read a bank word through the effects of the command so far. -/
def opsRead (m : Mem) (a : Nat) : List MemOp → Word
  | [] => memRead m a
  | .word b v :: r => if a = b then (if isBank b then v else opsRead m a r) else opsRead m a r
  | .clear banks lo n :: r => if clearHits banks lo n a then 0 else opsRead m a r

/-- Read one bank word as the command now sees it. -/
def rd (a : Nat) (w : Work) : Word := opsRead w.base a w.ops

/-- The bank group of an address (spec/16 R505, R525). -/
def groupOf (a : Nat) : Nat := a % 32 / 4

/-- The group of an address is on (spec/18 R564). -/
def groupOn (a : Nat) (w : Work) : Bool := w.d.boot.bgrp.getLsbD (groupOf a)

/-- A page marked static (spec/16 R519). -/
def isStatic (page : Nat) (w : Work) : Bool := w.d.mem.static.any (fun r => decide (r.1 ≤ page) && decide (page < r.1 + r.2))

/-- The CRC of a page that holds zeros only: R316 over 1,280 bytes of zero. -/
def zeroPageCrc : Nat := 0xFCC39D65

/-- The CRC of a page: R316 over its 256 words in address order, 5 bytes a word (spec/16 R520). -/
def pageCrc (page : Nat) (w : Work) : Nat :=
  fcs (wordBytes5 ((List.range 256).map (fun k => rd (256 * page + k) w)))

/-- The store of page CRCs follows a write to a page, where the page is static (spec/16 R520). -/
def crcPage (page : Nat) (w : Work) : Work :=
  if isStatic page w then { w with d.mem.pageCrc := tabSet zeroPageCrc w.d.mem.pageCrc page (pageCrc page w) } else w

/-- Write one bank word: the write stores the code of the word (spec/16 R515) and the CRC of its page follows (R520); one
to a group that is off is discarded (R525). -/
def wr (a : Nat) (v : Word) (w : Work) : Work :=
  if groupOn a w then
    crcPage (a / 256) { w with ops := .word a v :: w.ops, d.mem.ecc := tabSet 0 w.d.mem.ecc a 0 }
  else w

/-- Write consecutive bank words. -/
def wrs : Nat → List Word → Work → Work
  | _, [], w => w
  | a, v :: r, w => wrs (a + 1) r (wr a v w)

/-- Read consecutive bank words. -/
def rds (a n : Nat) (w : Work) : List Word := (List.range n).map (fun k => rd (a + k) w)

/-- Clear banks. -/
def clearBanks (banks : BitVec 32) (w : Work) : Work := { w with ops := .clear banks bankLo (bankHi - bankLo) :: w.ops }

/-- The banks whose group is on (spec/18 R564). -/
def banksOn (w : Work) : BitVec 32 :=
  BitVec.ofNat 32 (((List.range 32).filter (fun b => groupOn b w)).map (fun b => 2 ^ b)).sum


/-- The addresses of n consecutive words that may hold something other than zero. -/
def touched (a n : Nat) (w : Work) : List Nat :=
  (w.base.map (fun kv => kv.1) ++ w.ops.filterMap (fun o => match o with | .word b _ => some b | .clear _ _ _ => none)).filter
    (fun b => decide (a ≤ b) && decide (b < a + n))

/-- The pages that may hold something other than zero. -/
def touchedPages (w : Work) : List Nat := ((touched bankLo (bankHi - bankLo) w).map (fun a => a / 256)).eraseDups

/-- The store of page CRCs as the words of the static pages give it (spec/16 R519, R520). -/
def crcAll (w : Work) : Work := each (touchedPages w) crcPage { w with d.mem.pageCrc := [] }

/-- Write zero to n consecutive words; a group that is off discards it (R525). -/
def wrZeros (a n : Nat) (w : Work) : Work :=
  let banks := banksOn w
  crcAll { w with
    ops := .clear banks a n :: w.ops
    d.mem.ecc := tabKeep (fun k => !clearHits banks a n k) w.d.mem.ecc }

/-- Begin a command on a state. -/
def begin_ (s : State) : Work := { variant := s.variant, base := s.mem, ops := [], d := s.dev }

/-- End a command: the units and the memory effects go into the state; nothing else changes. -/
def commit (s : State) (w : Work) : State := { s with mem := memApply s.mem w.ops, dev := w.d }

/-- The main device runs: its start-up is over and its oscillator lives (spec/18 R547 to R552). -/
def live (s : State) : Bool := s.dev.boot.start == .done && !s.dev.boot.dead

/-- One count of the free-running counter, which counts 4 ns periods from the end of its start-up on (spec/02 Table 2.1). -/
def idle (s : State) : State := if live s then { s with dev := { s.dev with ptm := { s.dev.ptm with frc := s.dev.ptm.frc + 1 } } } else s

/-- A meaning that acts whatever the main device does: start-up, reset and the Hedge island. It always answers a next
state. -/
def runAny (f : Work → Work) (s : State) : Host.Outcome State Fault Refusal := .next (commit s (f (begin_ s)))

/-- A meaning of the main device run on a state: it always answers a next state, and acts only while the device runs
(spec/18 R552, R565). -/
def run (f : Work → Work) (s : State) : Host.Outcome State Fault Refusal := if live s then runAny f s else .next s

/-- Apply a function when a condition holds. -/
def when_ (c : Bool) (f : Work → Work) (w : Work) : Work := if c then f w else w

/-- A fresh free word (log 5). -/
def freeW (w : Work) : Word × Work := (Config.freeWord w.d.freeCtr, { w with d.freeCtr := w.d.freeCtr + 1 })

/-- A fresh free number below n (log 5). -/
def freeN (n : Nat) (w : Work) : Nat × Work :=
  (Config.freeNat w.d.freeCtr % n, { w with d.freeCtr := w.d.freeCtr + 1 })

/-- Send a message out of the block. -/
def send (m : OutMsg) (w : Work) : Work := { w with d.out := w.d.out ++ [m] }

end Sys2Proof.Machine
end

