-- ==== Sys2Proof/Machine/Ops.lean ====
section
/-! DEFINITION. The operations every family shares: what the variant has, plant time, interrupts, the event log, queues,
result slots and the journal (spec/00 R2, spec/03 R82 to R94, spec/04 R132 to R134, spec/20 R597 to R611). -/

namespace Sys2Proof.Machine

/-! What the variant has (spec/00 Tables 0.1 to 0.3). -/

def hasHedge (v : Variant) : Bool := match v with | .vx1284 | .vx1264 => true | .vx1284n | .vx1264n => false
def isBig (v : Variant) : Bool := match v with | .vx1284 | .vx1284n => true | .vx1264 | .vx1264n => false
def hasGraft (v : Variant) : Bool := isBig v
def hasRingB (v : Variant) : Bool := isBig v
def numCE (v : Variant) : Nat := if isBig v then 16 else 8
def numFD (v : Variant) : Nat := if isBig v then 4 else 2
def servoMax16 (v : Variant) : Nat := if isBig v then 256 else 128
def stepMax (v : Variant) : Nat := if isBig v then 1024 else 512

/-- SYS_CAP0 (spec/00 Table 0.2). -/
def sysCap0 (v : Variant) : Word :=
  wd (putB 24 true + putB 23 (hasHedge v) + putB 22 (hasGraft v) + putB 21 (hasRingB v) + putB 20 true
    + put 16 4 (2 ^ numFD v - 1) + put 0 16 (2 ^ numCE v - 1))

/-- SYS_CAP1 (spec/00 Table 0.3). -/
def sysCap1 (v : Variant) : Word := wd (put 19 9 (servoMax16 v) + put 15 4 8 + put 11 4 8 + put 0 11 (stepMax v))

/-- Servo axis capacity at a rate code 0 to 3 (spec/00 R3). -/
def servoCap (v : Variant) (rate : Nat) : Nat :=
  match rate with | 3 => servoMax16 v / 4 | 2 => servoMax16 v / 2 | _ => servoMax16 v

/-- Device state encodings (spec/01 Table 1.7). -/
def stCode : DevState → Nat
  | .off => 0 | .bootHold => 1 | .boot => 2 | .config => 3 | .discover => 4 | .plan => 5 | .commission => 6
  | .run => 7 | .recovery => 8 | .test => 9 | .safeLock => 10

/-- The state an encoding names. -/
def stOf : Nat → Option DevState
  | 0 => some .off | 1 => some .bootHold | 2 => some .boot | 3 => some .config | 4 => some .discover
  | 5 => some .plan | 6 => some .commission | 7 => some .run | 8 => some .recovery | 9 => some .test
  | 10 => some .safeLock | _ => none

/-- A state from CONFIG on (spec/03 Table 3.2, All). -/
def fromConfig (s : DevState) : Bool := decide (3 ≤ stCode s)

/-- Servo capacity as R6 of spec/00 counts it: of the rate in force, or SERVO_MAX16 while no mode of the image is. -/
def servoPresent (w : Work) : Nat :=
  match w.d.sys.st with
  | .config | .discover | .plan | .test => servoMax16 w.variant
  | _ => servoCap w.variant w.d.sys.rate

/-- A trellis mode of the image is in force and its cycles run: not the built-in schedule of DISCOVER and PLAN, not the
listening time before it (spec/11 R361, R377). -/
def modeOn (w : Work) : Bool := w.d.sys.cycOn && !w.d.trl.builtIn && !w.d.trl.listening && !w.d.trl.conflict

/-- Role code of SYS_STATE (spec/01 Table 1.10). -/
def roleCode : Role → Nat | .solo => 0 | .active => 1 | .standby => 2

/-! Plant time (spec/20 R603). -/

/-- Plant time from the counter and the three parameters. -/
def plantTime (p : PtmSt) (frc : BitVec 64) : BitVec 64 :=
  let dn := (frc - p.frcB).toNat
  let c : Int := (((dn : Int) * p.rate.toInt : Int)) / (2 ^ 40 : Nat)
  p.ofs + BitVec.ofNat 64 dn + BitVec.ofInt 64 c

/-- Plant time now. -/
def ptNow (w : Work) : BitVec 64 := plantTime w.d.ptm w.d.ptm.frc

/-- The plant time stamp of an event: at most 2 microseconds (500 counter periods) after the instant (R609, log 6). -/
def ptStamp (w : Work) : BitVec 64 × Work :=
  let (k, w) := freeN 501 w
  (plantTime w.d.ptm (w.d.ptm.frc + BitVec.ofNat 64 k), w)

/-! Interrupts (spec/20 R597 to R599). -/

/-- One assertion of a source's vector: an MSI-X message, or a pending bit while masked (R598). -/
def irqAssert (i : Nat) (w : Work) : Work :=
  let v := nth 0 w.d.hif.ivec i
  if !w.d.hif.msixEn then w
  else if w.d.hif.funcMask || w.d.hif.vecMask.getLsbD v then
    { w with d.hif.pba := w.d.hif.pba ||| (1 <<< v) }
  else send (.msix v) w

/-- A source's event: its bit becomes 1, and asserts where its enable is set (R597, R598). -/
def irq (i : Nat) (w : Work) : Work :=
  let was := w.d.hif.istat.getLsbD i
  let w := { w with d.hif.istat := w.d.hif.istat ||| (1 <<< i) }
  if !was && w.d.hif.ienp.getLsbD i then irqAssert i w else w

/-- The level of IRQ_N: low while an enabled source bit is set (R599). -/
def irqN (w : Work) : Bool := (w.d.hif.istat &&& w.d.hif.iens) == 0

/-! The event log (spec/03 R92, R93, Tables 3.9 and 3.10). -/

/-- Source block numbers (spec/03 Table 3.10). -/
inductive Blk where
  | sys | clk | pwr | egv | cmd | mbx | sem | tdu | ce | fd | pln | stp | fp | dqa | dqb | trl | grf | hdg | hvs | mem
  | age | ptm | hif
deriving DecidableEq, Repr

def blkCode : Blk → Nat
  | .sys => 0 | .clk => 1 | .pwr => 2 | .egv => 3 | .cmd => 4 | .mbx => 5 | .sem => 6 | .tdu => 7 | .ce => 8
  | .fd => 9 | .pln => 10 | .stp => 11 | .fp => 12 | .dqa => 13 | .dqb => 14 | .trl => 15 | .grf => 16 | .hdg => 17
  | .hvs => 18 | .mem => 19 | .age => 20 | .ptm => 21 | .hif => 22

/-- Records of the log (spec/03 Table 3.21). -/
def evLength (w : Work) : Nat := 256 * 2 ^ (min w.d.cmd.evLen 8)

/-- Write one event record and advance the log (R93); extra interrupt sources of Table 20.2 are the caller's. -/
def logEvent (b : Blk) (inst code detail : Nat) (w : Work) : Work :=
  let (pt, w) := ptStamp w
  let a := w.d.cmd.evBase + 4 * w.d.cmd.evWr
  let w := wrs a [wd pt.toNat, w.d.phase.ncc,
    wd (put 28 8 (blkCode b) + put 16 12 inst + put 0 16 code), wd detail] w
  let n := (w.d.cmd.evWr + 1) % evLength w
  let full := n == w.d.cmd.evRd
  let w := { w with d.cmd.evWr := n }
  let w := irq 5 w
  if full then irq 6 { w with d.cmd.evRd := (w.d.cmd.evRd + 1) % evLength w, d.cmd.evOvr := true } else w

/-- One CNT_SAT event for a saturating counter that reaches its maximum (spec/02 R52). -/
def logCntSat (b : Blk) (inst addr mid : Nat) (w : Work) : Work :=
  logEvent b inst 0xFF (put 24 5 mid + put 0 20 addr) w

/-! Queues and result slots. -/

def getQ (q : Nat) (w : Work) : Queue := tabGet {} w.d.cmd.queues q
def setQ (q : Nat) (x : Queue) (w : Work) : Work := { w with d.cmd.queues := tabSet {} w.d.cmd.queues q x }
def modQ (q : Nat) (f : Queue → Queue) (w : Work) : Work := setQ q (f (getQ q w)) w
def getSlot (q e : Nat) (w : Work) : Slot := tabGet {} (getQ q w).slots e

/-- Fill of a queue (spec/03 R59). -/
def queueFill (x : Queue) : Nat := (x.tail + 512 - x.head) % 512

/-- Interrupt source 7: a rise of BP, SLOT_WAIT or DMA_ERR in any queue (spec/20 Table 20.2). -/
def irqQueueStat (w : Work) : Work :=
  let c := (List.range 5).any (fun q => let x := getQ q w; x.bp || x.slotWait || x.dmaErr)
  let was := w.d.hif.cmdCond
  let w := { w with d.hif.cmdCond := c }
  if c && !was then irq 7 w else w

/-- The result words of a slot padded to twelve. -/
def pad12 (l : List Word) : List Word := (l ++ List.replicate 12 0).take 12

/-- The order in which an update writes the words of a slot: the result words, then words 3, 2, 1 and 0 (spec/03 R85). -/
def slotOrder : List Nat := (List.range 12).map (fun k => k + 4) ++ [3, 2, 1, 0]

/-- The sixteen words of a slot (spec/03 Table 3.6). -/
def slotWords (x : Slot) : List Word :=
  [wd (put 26 10 x.opcode + put 20 6 x.gen + put 8 12 x.seq + put 0 8 x.status),
   wd (put 32 4 x.rlen + putB 31 x.effKnown + put 16 8 x.detail + put 0 16 x.delay), x.acc, x.eff] ++ pad12 x.res

/-- Write a slot's words to the mirror in host memory, 8 bytes a word, in the order of R85 (spec/20 R596). -/
def mirrorWords (addr : Nat) (ws : List Word) (w : Work) : Work :=
  each slotOrder (fun k w => send (.dma (addr + 8 * k) (nth 0 ws k)) w) w

/-- Store a slot: its record, its words in bank memory, and its mirror, both in the order of R85 (R82). -/
def putSlot (q e : Nat) (x : Slot) (w : Work) : Work :=
  let w := modQ q (fun k => { k with slots := tabSet {} k.slots e x }) w
  let k := getQ q w
  let w := each slotOrder (fun j w => wr (k.rslt + 16 * e + j) (nth 0 (slotWords x) j) w) w
  if k.rmir then mirrorWords ((k.mirH * 2 ^ 32 + k.mirL) + 128 * e) (slotWords x) w else w

/-- A status that is final (spec/03 Table 3.7). -/
def isFinal (st : Nat) : Bool := st != 1 && st != 2

/-- The status codes of spec/03 Table 3.7. -/
def stOK : Nat := 0x00
def stPending : Nat := 0x01
def stAccepted : Nat := 0x02
def stBadOpcode : Nat := 0x10
def stBadParam : Nat := 0x11
def stUnitAbsent : Nat := 0x12
def stRefused : Nat := 0x13
def stLate : Nat := 0x20
def stBudget : Nat := 0x21
def stTakeover : Nat := 0x30
def stAborted : Nat := 0x31
def stAxisFault : Nat := 0x40
def stLimit : Nat := 0x41

/-- Identities of the commands the journal, the admitted effects and the bundles know. -/
def knownIds (w : Work) : List Nat :=
  w.d.cmd.journal.map (fun j => j.id) ++ w.d.cmd.effects.map (fun e => e.cmd.id)
    ++ w.d.cmd.bundles.flatMap (fun (b : Bundle) => b.commit.id :: b.members.map (fun e => e.cmd.id))

/-- The identity of the next command: the counter's, past every identity known (log 4). -/
def freshId (w : Work) : Nat := (knownIds w).foldl (fun m i => max m (i + 1)) (max 1 w.d.cmd.nextId)

/-- What a report changes in a command's slot and journal entry. -/
structure Report where
  status : Nat := 0
  detail : Nat := 0
  delay : Option Nat := none
  acc : Option Word := none
  eff : Option Word := none
  res : List Word := []
  member : Bool := false
deriving Repr

/-- SEQ, opcode and the flags of a header word (spec/03 Table 3.1). -/
def hSeq (h : Word) : Nat := fld h 8 12
def hOpcode (h : Word) : Nat := fld h 26 10
def hLen (h : Word) : Nat := fld h 20 6
def hUrgent (h : Word) : Bool := bit h 3
def hNoResult (h : Word) : Bool := bit h 2
def hInBundle (h : Word) : Bool := bit h 1
def hPhased (h : Word) : Bool := bit h 0

/-- The words of a journal entry (spec/04 Table 4.5). -/
def jWords (j : JEntry) : List Word :=
  [wd (put 26 10 j.opcode + put 23 3 j.q + putB 22 j.member + put 8 12 j.seq + put 0 8 j.status),
   wd (putB 31 j.effKnown + putB 30 j.tko + put 16 8 j.detail + put 0 16 j.delay), j.acc, j.eff]

/-- Entries of one queue, oldest first. -/
def jOf (q : Nat) (w : Work) : List JEntry := w.d.cmd.journal.filter (fun j => j.q == q)

/-- The oldest entry of a full journal is not final, so the queue's next command waits (spec/04 R133). -/
def jFull (q : Nat) (w : Work) : Bool :=
  match (jOf q w) with
  | [] => false
  | j :: r => decide (4095 ≤ r.length) && !isFinal j.status

/-- Put a journal entry: the entry of this command changed, or a new one at the next place of the ring (R132, R133). -/
def putJournal (c : CmdRef) (f : JEntry → JEntry) (w : Work) : Work :=
  match w.d.cmd.journal.find? (fun j => j.id == c.id) with
  | some j =>
    let x := f j
    let w := { w with d.cmd.journal := w.d.cmd.journal.map (fun y => if y.id == c.id then x else y) }
    wrs (w.d.cmd.jBase + 16384 * x.q + 4 * x.pos) (jWords x) w
  | none =>
    let mine := jOf c.q w
    let pos := match mine.getLast? with | some j => (j.pos + 1) % 4096 | none => 0
    let x := f { id := c.id, pos := pos, opcode := hOpcode c.hdr, q := c.q, seq := hSeq c.hdr }
    let old := if 4096 ≤ mine.length then mine.head? else none
    let kept := match old with
      | some o => w.d.cmd.journal.filter (fun y => y.id != o.id)
      | none => w.d.cmd.journal
    let w := { w with d.cmd.journal := kept ++ [x] }
    wrs (w.d.cmd.jBase + 16384 * x.q + 4 * x.pos) (jWords x) w

/-- Report a status of a command (identity 0 is the device's own act and has none): the slot where it is still its own, the journal always, CMD_LATE_FAIL where the slot
is not and the command was not inherited at a takeover (spec/03 R73, R83 to R88, spec/04 R132, R136). -/
def report (c : CmdRef) (r : Report) (w : Work) : Work :=
  let old := w.d.cmd.journal.find? (fun j => j.id == c.id)
  if c.id == 0 then w else
  if (match old with | some j => isFinal j.status | none => false) then w
  else
    let w := putJournal c (fun j => { j with
      status := r.status, detail := r.detail, delay := r.delay.getD j.delay, acc := r.acc.getD j.acc,
      eff := r.eff.getD j.eff, effKnown := j.effKnown || r.eff.isSome, member := j.member || r.member }) w
    let x := getSlot c.q c.entry w
    if x.owner == some c.id then
      let x := { x with
        status := r.status, detail := r.detail, delay := r.delay.getD x.delay, acc := r.acc.getD x.acc,
        eff := r.eff.getD x.eff, effKnown := x.effKnown || r.eff.isSome, rlen := r.res.length, res := r.res }
      let fin := isFinal r.status
      let x := if hNoResult c.hdr && r.status == stOK then
        { x with status := stPending, rlen := 0, res := [], owner := none, released := true } else x
      let w := putSlot c.q c.entry x w
      if fin then irq c.q w else w
    else if isFinal r.status && r.status != stOK && !(match old with | some j => j.tko | none => false) then
      logEvent .cmd c.q 4 (put 28 8 r.status + put 12 12 (hSeq c.hdr) + put 0 3 c.q) w
    else w

/-- Set EFF_KNOWN and EFF_NCC without a change of status (spec/03 R84, spec/04 R123). -/
def reportEff (c : CmdRef) (eff : Word) (w : Work) : Work :=
  let old := w.d.cmd.journal.find? (fun j => j.id == c.id)
  match old with
  | none => w
  | some j =>
    if isFinal j.status then w
    else
      let w := putJournal c (fun j => { j with eff := eff, effKnown := true }) w
      let x := getSlot c.q c.entry w
      if x.owner == some c.id then putSlot c.q c.entry { x with eff := eff, effKnown := true } w else w

/-- A final status that needs no effect cycle. -/
def finish (c : CmdRef) (st det : Nat) (w : Work) : Work :=
  report c { status := st, detail := det, acc := some w.d.phase.ncc } w

/-- OK in n with result words (spec/03 Table 3.3, "OK in n"). -/
def finishOk (c : CmdRef) (res : List Word) (w : Work) : Work :=
  report c { status := stOK, acc := some w.d.phase.ncc, res := res } w

/-! Device state (spec/01 R27, Table 1.10). -/

/-- Enter a device state (interrupt source 10 of spec/20 Table 20.2 on a change). -/
def setState (t : DevState) (w : Work) : Work :=
  if w.d.sys.st = t then w
  else irq 10 { w with d.sys.prev := w.d.sys.st, d.sys.st := t }

/-- Take a role. -/
def setRole (r : Role) (w : Work) : Work :=
  if w.d.sys.role = r then w else irq 10 { w with d.sys.role := r }

/-- Network cycles per slow group of a rate code (spec/01, path W). -/
def slowOf (rate : Nat) : Nat := match rate with | 0 => 1 | 1 => 2 | 2 => 4 | _ => 8

/-- Units of 15.625 microseconds in a network cycle of a rate code (spec/02 R42, M). -/
def unitsOf (rate : Nat) : Nat := match rate with | 0 => 8 | 1 => 4 | 2 => 2 | _ => 1

/-- The network cycle time in seconds. -/
def cycleTime (rate : Nat) : ℚ := (unitsOf rate : ℚ) / 64000

/-- The present network cycle as a number. -/
def nccN (w : Work) : Nat := w.d.phase.ncc.toNat

/-- Network cycles per slow group now, SYS_CYC.SLOW_DIV, never less than 1 (spec/04 R99). -/
def slowS (w : Work) : Nat := max 1 w.d.sys.slowDiv

/-- The cycle k cycles ahead. -/
def nccPlus (k : Nat) (w : Work) : Word := w.d.phase.ncc + wd k

/-- First sync point of slow group g+2, g the group of the present cycle (spec/03 R78). -/
def slowBound (w : Work) : Word := wd (nccN w - nccN w % slowS w + 2 * slowS w)

/-- Add an admitted effect. -/
def addEffect (e : Effect) (w : Work) : Work := { w with d.cmd.effects := w.d.cmd.effects ++ [e] }

/-- An effect the device itself starts, with the effect the command would have if admitted now (spec/09 R297). -/
def ownEffect (op : Nat) (ps : List Word) (slow : Bool) (w : Work) : Work :=
  addEffect { op := op, ps := ps, slow := slow, time := .at (if slow then slowBound w else nccPlus 2 w) } w

/-! Parts of the motion units. -/

def getCe (a : Nat) (w : Work) : CeAxis := tabGet {} w.d.ce.axes a
def setCe (a : Nat) (x : CeAxis) (w : Work) : Work := { w with d.ce.axes := tabSet {} w.d.ce.axes a x }
def modCe (a : Nat) (f : CeAxis → CeAxis) (w : Work) : Work := setCe a (f (getCe a w)) w
/-- A servo axis at the start of a cycle: no record, no compute, no result; the position of the previous cycle as given
(spec/06 R186, R205). -/
def ceFresh (pos : Option (Word × Nat)) (x : CeAxis) : CeAxis :=
  { x with posUsed := pos, landed := none, started := false, ready := none, discarded := false, startDue := false }
def getPln (a : Nat) (w : Work) : PlnAxis := tabGet {} w.d.pln.axes a
def setPln (a : Nat) (x : PlnAxis) (w : Work) : Work := { w with d.pln.axes := tabSet {} w.d.pln.axes a x }
def modPln (a : Nat) (f : PlnAxis → PlnAxis) (w : Work) : Work := setPln a (f (getPln a w)) w
def getSp (a : Nat) (w : Work) : SetPoint := tabGet {} w.d.pln.setPoints a
/-- The set-point record of an axis. The spec puts it into bank memory and gives it no address, so that nothing but the
planner and the engines reaches it: it stands under its axis (spec/05 R142, log 144). -/
def setSp (a : Nat) (x : SetPoint) (w : Work) : Work := { w with d.pln.setPoints := tabSet {} w.d.pln.setPoints a x }
def getStp (a : Nat) (w : Work) : StpAxis := tabGet {} w.d.stp.axes a
def setStp (a : Nat) (x : StpAxis) (w : Work) : Work := { w with d.stp.axes := tabSet {} w.d.stp.axes a x }
def modStp (a : Nat) (f : StpAxis → StpAxis) (w : Work) : Work := setStp a (f (getStp a w)) w
def getFp (n : Nat) (w : Work) : FpPort := tabGet {} w.d.fp n
def setFp (n : Nat) (x : FpPort) (w : Work) : Work := { w with d.fp := tabSet {} w.d.fp n x }
def modFp (n : Nat) (f : FpPort → FpPort) (w : Work) : Work := setFp n (f (getFp n w)) w
def getFd (u : Nat) (w : Work) : FdUnit := tabGet {} w.d.fd u
def setFd (u : Nat) (x : FdUnit) (w : Work) : Work := { w with d.fd := tabSet {} w.d.fd u x }
def getEng (n : Nat) (w : Work) : Engine := tabGet {} w.d.ce.engines n
def setEng (n : Nat) (x : Engine) (w : Work) : Work := { w with d.ce.engines := tabSet {} w.d.ce.engines n x }
def modEng (n : Nat) (f : Engine → Engine) (w : Work) : Work := setEng n (f (getEng n w)) w

/-- The key of a ring: 0 for A, 1 for B. -/
def ringKey (b : Bool) : Nat := if b then 1 else 0
def getR (b : Bool) (w : Work) : RingSt := tabGet {} w.d.dq (ringKey b)
def setR (b : Bool) (x : RingSt) (w : Work) : Work := { w with d.dq := tabSet {} w.d.dq (ringKey b) x }
def modR (b : Bool) (f : RingSt → RingSt) (w : Work) : Work := setR b (f (getR b w)) w
def getNode (b : Bool) (id : Nat) (w : Work) : RNode := tabGet {} (getR b w).nodes id
def setNode (b : Bool) (id : Nat) (n : RNode) (w : Work) : Work :=
  modR b (fun r => { r with nodes := tabSet {} r.nodes id n }) w
def modNode (b : Bool) (id : Nat) (f : RNode → RNode) (w : Work) : Work := setNode b id (f (getNode b id w)) w

/-- Stepper axes a command may name on this variant: remote below STEP_MAX, local 1024 to 1031 (spec/00 R6). -/
def stpPresent (a : Nat) (w : Work) : Bool := decide (a < stepMax w.variant) || (decide (1024 ≤ a) && decide (a < 1032))

/-! Clock gates (spec/18 Tables 18.21, 18.22, R559). -/

/-- Bits of CLK_GATE that exist on the variant (R5). -/
def gateMask (v : Variant) : Nat := if isBig v then 0x7FC000 else 0x1CC000

/-- CLK_GATE and CLK_GATECE; their reset values have every gate of the variant on. -/
def gateNow (w : Work) : Nat := w.d.boot.gate.getD (gateMask w.variant)
def gateCeNow (w : Work) : Nat := w.d.boot.gateCe.getD (2 ^ numCE w.variant - 1)

/-- An engine, a Furrow unit, a ring's SerDes has its clock; SD_G is the graft's. -/
def ceClk (n : Nat) (w : Work) : Bool := (gateCeNow w).testBit n
def fdClk (n : Nat) (w : Work) : Bool := (gateNow w).testBit (14 + n)
def ringClk (b : Bool) (w : Work) : Bool := (gateNow w).testBit (if b then 21 else 20)
def graftClk (w : Work) : Bool := (gateNow w).testBit 22

/-- The SerDes reference runs: an external REFCLK has not been lost (R553). -/
def refRuns (w : Work) : Bool := !(w.d.boot.refsrc && w.d.boot.refLost)

/-- Every stepper axis present. -/
def stpAll (w : Work) : List Nat := (List.range 1032).filter (fun a => stpPresent a w)

end Sys2Proof.Machine
end

