-- ==== Sys2Proof/Machine/Mailbox.lean ====
section
/-! DEFINITION. Mailboxes: bindings, sides, sends, pops and side resets (spec/17 R533 to R543). -/

namespace Sys2Proof.Machine

def getChan (c : Nat) (w : Work) : MbxChan := tabGet {} w.d.mbx.chans c
def setChan (c : Nat) (x : MbxChan) (w : Work) : Work := { w with d.mbx.chans := tabSet {} w.d.mbx.chans c x }

/-- A bound channel: VALID, with two different MIDs (R535). -/
def bound (x : MbxChan) : Bool := x.valid && x.midA != x.midB

/-- The side of a MID: true for side B, none for a MID that is neither (R536). -/
def sideOf (mid : Nat) (x : MbxChan) : Option Bool :=
  if !bound x then none else if mid == x.midA then some false else if mid == x.midB then some true else none

/-- A side, and the other one. -/
def side (sb : Bool) (x : MbxChan) : MbxSide := if sb then x.b else x.a
def setSide (sb : Bool) (y : MbxSide) (x : MbxChan) : MbxChan := if sb then { x with b := y } else { x with a := y }

/-- Words a queue holds; it has room for 8 (R533). -/
def queueWords (q : List (List Word)) : Nat := (q.map List.length).sum

/-- The word of MBX_PEND as a MID sees it (Table 17.9). -/
def mbxPend (mid : Nat) (w : Work) : Word :=
  wd (((List.range 16).map (fun c =>
    let x := getChan c w
    match sideOf mid x with
    | some sb => putB c (!(side (!sb) x).queue.isEmpty)
    | none => 0)).sum)

/-- Interrupt source 8: MBX_PEND of the ports' MIDs 0 and 1 becomes other than zero (spec/20 Table 20.2). -/
def mbxIrq (w : Work) : Work :=
  let h := mbxPend 0 w != 0
  let s := mbxPend 1 w != 0
  let rise := (h && !w.d.mbx.pendHost) || (s && !w.d.mbx.pendSpi)
  let w := { w with d.mbx.pendHost := h, d.mbx.pendSpi := s }
  if rise then irq 8 w else w

/-- An access of a MID to a channel register: the side it acts for. A MID that is neither side of a bound channel is
logged once for each run of such accesses (R536). -/
def mbxAccess (mid c : Nat) (w : Work) : Option Bool × Work :=
  let x := getChan c w
  match sideOf mid x with
  | some sb => (some sb, setChan c { x with strangerRun := false } w)
  | none =>
    if bound x && !x.strangerRun then
      (none, logEvent .mbx c 1 mid (setChan c { x with strangerRun := true } w))
    else (none, w)

/-- Queue the first len staging words as one message, or discard the whole send (R537, R538). -/
def mbxQueue (sb : Bool) (c len : Nat) (w : Work) : Work :=
  let x := getChan c w
  let y := side sb x
  if len == 0 || 8 < len then w
  else if queueWords y.queue + len ≤ 8 then
    mbxIrq (setChan c (setSide sb { y with queue := y.queue ++ [y.sd.take len], lostRun := false } x) w)
  else
    let (n, hit) := satInc 65535 y.slost
    let z := { y with slost := n, slostSat := y.slostSat || hit, lostRun := true }
    let w := setChan c (setSide sb z x) w
    let w := if hit then logCntSat .mbx c (0x28004 + 32 * c) (if sb then x.midB else x.midA) w else w
    if y.lostRun then w else logEvent .mbx c 3 0 w

/-- MBX_SEND: a write of LEN to MBXc_SEND by a MID (R537, R538). -/
def mbxSend (mid c len : Nat) (w : Work) : Work :=
  let (s, w) := mbxAccess mid c w
  match s with
  | some sb => mbxQueue sb c len w
  | none => w

/-- A unit of the device sends a message: its words into the staging words, and the send. -/
def mbxPut (mid c : Nat) (ws : List Word) (w : Work) : Work :=
  let (s, w) := mbxAccess mid c w
  match s with
  | some sb =>
    let x := getChan c w
    let y := side sb x
    mbxQueue sb c ws.length (setChan c (setSide sb { y with sd := ws ++ y.sd.drop ws.length } x) w)
  | none => w

/-- The head message of the queue toward a MID (R540). -/
def mbxHead (mid c : Nat) (w : Work) : Option (List Word) :=
  let x := getChan c w
  match sideOf mid x with
  | some sb => (side (!sb) x).queue.head?
  | none => none

/-- Remove the head message of the queue toward a side (R540). -/
def mbxDrop (sb : Bool) (c : Nat) (w : Work) : Work :=
  let x := getChan c w
  let y := side (!sb) x
  mbxIrq (setChan c (setSide (!sb) { y with queue := y.queue.tail } x) w)

/-- MBX_POP: a write to MBXc_POP by a MID (R540). -/
def mbxPop (mid c : Nat) (w : Work) : Work :=
  let (s, w) := mbxAccess mid c w
  match s with
  | some sb => mbxDrop sb c w
  | none => w

/-- A unit of the device takes the head message of a channel. -/
def mbxTake (mid c : Nat) (w : Work) : Option (List Word) × Work :=
  match sideOf mid (getChan c w) with
  | some sb => (mbxHead mid c w, mbxDrop sb c w)
  | none => (none, w)

/-- A side reset of a MID (R541): both queues of each of its channels emptied, its staging words cleared, ABORTED of the
other side set. -/
def sideReset (mid : Nat) (w : Work) : Work :=
  mbxIrq (each (List.range 16) (fun c w =>
    let x := getChan c w
    match sideOf mid x with
    | some sb =>
      let mine := { side sb x with sd := List.replicate 8 0, queue := [] }
      let other := { side (!sb) x with queue := [], aborted := true }
      logEvent .mbx c 2 mid (setChan c (setSide (!sb) other (setSide sb mine x)) w)
    | none => w) w)

/-- Channels 12 to 15 of a variant without Hedge stay unbound, and their registers are those of an absent unit (R534,
spec/21 Table 21.11). -/
def chanAbsent (c : Nat) (w : Work) : Bool := !hasHedge w.variant && decide (12 ≤ c)

/-- Write MBXc_BIND; LOCK makes it read-only (R534), and the register of an absent unit ignores the write (spec/00 R5). -/
def mbxBind (c : Nat) (v : Word) (w : Work) : Work :=
  if w.d.mbx.lock || chanAbsent c w then w
  else setChan c { getChan c w with valid := bit v 11, midB := fld v 5 5, midA := fld v 0 5 } w

/-- The bindings the boot firmware makes of channels 12 to 15 (Table 14.1). -/
def mbxBoot (w : Work) : Work :=
  if !hasHedge w.variant then w
  else
    let host := if w.d.boot.bootMode == 1 then 1 else 0
    each [(12, host), (13, 26), (14, 27), (15, 2)]
      (fun p w => mbxBind p.1 (wd (putB 11 true + put 5 5 31 + put 0 5 p.2)) w) w

/-- MBXc_BIND (Table 17.2). -/
def mbxBindWord (c : Nat) (w : Work) : Word :=
  let x := getChan c w
  wd (putB 11 x.valid + put 5 5 x.midB + put 0 5 x.midA)

/-- MBXc_STAT of the side of a MID (Table 17.3). -/
def mbxStat (mid c : Nat) (w : Work) : Word :=
  let x := getChan c w
  match sideOf mid x with
  | none => 0
  | some sb =>
    let me := side sb x
    let rx := (side (!sb) x).queue
    wd (put 11 4 (8 - queueWords me.queue) + put 7 4 (queueWords rx) + put 3 4 ((rx.head?.getD []).length)
      + putB 2 me.slostSat + putB 1 me.aborted + putB 0 (!rx.isEmpty))

/-- Registers of a channel a MID reads, by their offset within the channel (Tables 17.3 to 17.7). -/
def mbxRead (mid c off : Nat) (w : Work) : Word :=
  let x := getChan c w
  match sideOf mid x with
  | none => 0
  | some sb =>
    let me := side sb x
    if off == 1 then mbxStat mid c w
    else if off == 4 then wd me.slost
    else if 8 ≤ off && off < 16 then nth 0 me.sd (off - 8)
    else if 16 ≤ off && off < 24 then nth 0 ((side (!sb) x).queue.head?.getD []) (off - 16)
    else 0

/-- Change the record of the side of a MID. -/
def mbxModSide (mid c : Nat) (f : MbxSide → MbxSide) (w : Work) : Work :=
  let x := getChan c w
  match sideOf mid x with
  | some sb => setChan c (setSide sb (f (side sb x)) x) w
  | none => w

/-- Write of a channel register other than BIND, SEND and POP: STAT's W1C flags and the staging words. -/
def mbxWrite (mid c off : Nat) (v : Word) (w : Work) : Work :=
  if off == 1 then mbxModSide mid c (fun y => { y with
    slostSat := y.slostSat && !bit v 2, aborted := y.aborted && !bit v 1 }) w
  else if 8 ≤ off && off < 16 then mbxModSide mid c (fun y => { y with sd := y.sd.set (off - 8) v }) w
  else w

/-- MBX_LOCK: a write to MBX_CTL; LOCK is set by a 1 and cleared by none (Table 17.8). -/
def mbxLock (v : Word) (w : Work) : Work := { w with d.mbx.lock := w.d.mbx.lock || bit v 0 }

/-- MBX_SEND (R537). -/
def execMbxSend (mid : Fin 32) (c : Fin 16) (v : Word) (s : State) : Host.Outcome State Fault Refusal :=
  run (mbxSend mid.val c.val (fld v 0 4)) s

/-- MBX_POP (R540). -/
def execMbxPop (mid : Fin 32) (c : Fin 16) (s : State) : Host.Outcome State Fault Refusal :=
  run (mbxPop mid.val c.val) s

/-- MBX_LOCK (R534). -/
def execMbxLock (v : Word) (s : State) : Host.Outcome State Fault Refusal := run (mbxLock v) s

end Sys2Proof.Machine
end

