-- ==== Sys2Proof/Machine/Semaphore.lean ====
section
/-! DEFINITION. The 64 hardware semaphores (spec/16 R527 to R531). -/

namespace Sys2Proof.Machine

/-- Holder of a semaphore as MID + 1; 0 while it is free. -/
def semHolder (n : Nat) (w : Work) : Nat := tabGet 0 w.d.mem.sems n

def setSem (n h : Nat) (w : Work) : Work := { w with d.mem.sems := tabSet 0 w.d.mem.sems n h }

/-- SEM_READ: test and set for the reading MID; the word answered (R527, R528, Table 16.16). -/
def semRead (mid n : Nat) (w : Work) : Word × Work :=
  let h := semHolder n w
  if h == 0 then (1, setSem n (mid + 1) w) else (wd (put 8 5 (h - 1)), w)

/-- SEM_WRITE: the holder releases; another MID's write is logged (R529). -/
def semWrite (mid n : Nat) (w : Work) : Work :=
  if semHolder n w == mid + 1 then setSem n 0 w else logEvent .sem n 1 mid w

/-- SEM_FORCE_WRITE by MID 0 or 1 releases whoever holds; by any other MID it is ignored (R530). A free semaphore has no
former holder, and nothing is logged. -/
def semForce (mid n : Nat) (w : Work) : Work :=
  let h := semHolder n w
  if mid ≤ 1 && h != 0 then logEvent .sem n 2 (h - 1) (setSem n 0 w) else w

/-- Release every semaphore a MID holds (R530). -/
def semReleaseAll (mid : Nat) (w : Work) : Work :=
  each ((List.range 64).filter (fun n => semHolder n w == mid + 1)) (fun n => setSem n 0) w

/-- SEM_HELDL and SEM_HELDH: held bits from semaphore lo on (Table 16.17). -/
def semHeld (lo : Nat) (w : Work) : Word :=
  wd (((List.range 32).map (fun k => putB k (semHolder (lo + k) w != 0))).sum)

/-- SEM_PEEKn (Table 16.18). -/
def semPeek (n : Nat) (w : Work) : Word :=
  let h := semHolder n w
  wd (putB 5 (h != 0) + put 0 5 (h - 1))

/-- SEM_READ of SEMn by a MID; the word goes to the reader. -/
def execSemRead (mid : Fin 32) (n : Fin 64) (s : State) : Host.Outcome State Fault Refusal :=
  run (fun w => let (v, w) := semRead mid.val n.val w; send (.readData [v]) w) s

/-- SEM_WRITE of SEMn by a MID. -/
def execSemWrite (mid : Fin 32) (n : Fin 64) (s : State) : Host.Outcome State Fault Refusal :=
  run (semWrite mid.val n.val) s

/-- SEM_FORCE_WRITE by a MID; bits [5:0] of the value name the semaphore. -/
def execSemForceWrite (mid : Fin 32) (v : Word) (s : State) : Host.Outcome State Fault Refusal :=
  run (semForce mid.val (fld v 0 6)) s

end Sys2Proof.Machine
end

