-- ==== Sys2Proof/Machine/Reset.lean ====
section
/-! DEFINITION. Resets: the whole device, the PCI Express side, named units, memory death, and the sources that ask for
them (spec/18 R563 to R567, Table 18.5, spec/01 R27, R30, spec/16 R518). -/

namespace Sys2Proof.Machine

/-- Every unit of the main device at its reset values, with a cause; the Hedge island, the flash and the levels at the
strap pins stay, and so do MEM_UEINFO and AGE_PPM where the cause is not 0 (Table 18.5). The device is OFF and its
start-up begins again at the given step. -/
def resetDev (cause : Nat) (start : Startup) (d : Dev) : Dev :=
  let fresh : Dev := {}
  let keep := cause != 0
  { fresh with
    sys := { st := .off, prev := d.sys.st, rstCause := cause }
    hdg := { d.hdg with fromHedge := [], hbNext := 0, btCmd := none }
    mem := { fresh.mem with
      ueValid := keep && d.mem.ueValid, ueMid := if keep then d.mem.ueMid else 0
      ueKind := if keep then d.mem.ueKind else 0, ueAddr := if keep then d.mem.ueAddr else 0
      s0 := d.mem.s0, s1 := d.mem.s1 }
    boot := { fresh.boot with
      start := start, bootOk := false, strapUnit := d.boot.strapUnit, strapMode := d.boot.strapMode, tapIr := d.boot.tapIr
      agePpm := if keep then d.boot.agePpm else 0 }
    flash := { fresh.flash with
      cells := d.flash.cells, spareBad := d.flash.spareBad, refs := d.flash.refs, firstRates := d.flash.firstRates }
    therm := { fresh.therm with sens := d.therm.sens }
    out := d.out
    freeCtr := d.freeCtr }

/-- A whole-device reset: registers, and every word of bank memory discarded (R565). -/
def wholeReset (cause : Nat) (start : Startup) (w : Work) : Work :=
  let w := { w with d := resetDev cause start w.d }
  clearBanks (BitVec.allOnes 32) w

/-- Memory death: MEM_UEINFO written, then a whole-device reset with cause 2 (spec/16 R518). -/
def memoryDeath (mid kind addr : Nat) (w : Work) : Work :=
  wholeReset 2 .settle { w with
    d.mem.ueValid := true, d.mem.ueMid := mid, d.mem.ueKind := kind, d.mem.ueAddr := addr }

/-- A PCI Express side reset (R566, spec/21 R621): the endpoint, its registers of the host interface, EN of Q0 to Q3, the
semaphores and mailbox sides of MID 0. -/
def pcieSideReset (w : Work) : Work :=
  let w := { w with
    d.hif.msixEn := false, d.hif.linkUp := false, d.hif.speed := 0, d.hif.width := 0, d.hif.funcMask := false
    d.hif.vecMask := BitVec.allOnes 32, d.hif.pba := 0, d.hif.ienp := 0, d.hif.ivec := List.range 20, d.hif.cto := false }
  let w := each (List.range 4) (fun q w => modQ q (fun k => { k with en := false }) w) w
  sideReset 0 (semReleaseAll 0 w)

/-- The key of SYS_RST is right (R567). -/
def rstKey (v : Word) : Bool := fld v 28 8 == 0x5A

/-- SYS_RST_WHOLE (R567). -/
def rstWhole (v : Word) (w : Work) : Work := if rstKey v && bit v 0 then wholeReset 2 .settle w else w

/-- One unit of SYS_RST.UNIT at its reset values (Table 18.12). -/
def unitReset (k : Nat) (w : Work) : Work :=
  match k with
  | 1 => { w with d.ce := {} }
  | 2 => { w with d.fd := [] }
  | 3 => { w with d.dq := tabSet {} w.d.dq 0 {}, d.dqShown := tabSet {} w.d.dqShown 0 {} }
  | 4 => { w with d.dq := tabSet {} w.d.dq 1 {}, d.dqShown := tabSet {} w.d.dqShown 1 {} }
  | 5 => { w with d.grf := {} }
  | 6 => { w with d.hvs := {} }
  | _ => w

/-- SYS_RST_UNIT: in CONFIG or TEST the named units are reset (R567). -/
def rstUnit (v : Word) (w : Work) : Work :=
  if rstKey v && (w.d.sys.st == .config || w.d.sys.st == .test) then
    each ((List.range 7).filter (fun k => k != 0 && bit v k)) unitReset w
  else w

/-- PERST_N goes low (Table 18.5). -/
def perstLow (w : Work) : Work := if w.d.boot.perstWhole then wholeReset 1 .settle w else pcieSideReset w

/-- SYS_RST_WHOLE: a write of v to SYS_RST with WHOLE. -/
def execSysRstWhole (v : Word) (s : State) : Host.Outcome State Fault Refusal := run (rstWhole v) s

/-- SYS_RST_UNIT: a write of v to SYS_RST with UNIT. -/
def execSysRstUnit (v : Word) (s : State) : Host.Outcome State Fault Refusal := run (rstUnit v) s

/-- A whole-device reset that leaves the hold of a thermal trip standing (spec/01 R30); low is PORST_N's level from here. -/
def tripReset (start : Startup) (low : Bool) (w : Work) : Work :=
  let t := w.d.boot.tripped
  let w := wholeReset 0 start w
  { w with d.boot.tripped := t, d.boot.tripLow := t && low }

/-- PORST_N_LOW: everything is reset with cause 0 and held until PORST_N rises (R565). -/
def execPorstNLow (s : State) : Host.Outcome State Fault Refusal := runAny (tripReset .held true) s

/-- PORST_N is low: nothing of the main device runs until it rises (R547). -/
def porstHeld (w : Work) : Bool := w.d.boot.start == .held && (!w.d.boot.tripped || w.d.boot.tripLow)

/-- VDD_MONITOR: a reset as PORST_N makes, with cause 0 (R563); the start-up begins again unless PORST_N is still low or a
thermal trip holds the device (spec/01 R30). -/
def vddMonitor (w : Work) : Work :=
  tripReset (if w.d.boot.start == .held then .held else .settle) w.d.boot.tripLow w

/-- VDD_MONITOR (R563). -/
def execVddMonitor (s : State) : Host.Outcome State Fault Refusal := runAny vddMonitor s

/-- PERST_N_LOW (R565). -/
def execPerstNLow (s : State) : Host.Outcome State Fault Refusal := run perstLow s

/-- PCIE_SIDE_RESET: hot reset, link disable or link down (R566). -/
def execPcieSideReset (s : State) : Host.Outcome State Fault Refusal := run pcieSideReset s

/-- THERMAL_TRIP: a junction reaches 125 °C; a whole-device reset with cause 3, held (spec/01 R30). The ledger counts
the trip from its flash record on (spec/19 Table 19.1). While PORST_N is low, and once the oscillator has failed (R552),
nothing is left to reset. -/
def thermalTrip (w : Work) : Work :=
  if porstHeld w || w.d.boot.dead then w
  else
    let n := w.d.age.trips
    let w := wholeReset 3 .held w
    { w with d.boot.tripped := true, d.age.trips := n + 1 }

/-- THERMAL_TRIP. -/
def execThermalTrip (s : State) : Host.Outcome State Fault Refusal := runAny thermalTrip s

/-- THERMAL_TRIP_END: every sensor is below 115 °C, and the device starts from OFF (spec/01 R30), unless PORST_N holds it. -/
def thermalTripEnd (w : Work) : Work :=
  if w.d.boot.tripped then
    { w with d.boot.tripped := false, d.boot.tripLow := false, d.boot.start := if w.d.boot.tripLow then .held else .settle }
  else w

/-- THERMAL_TRIP_END. -/
def execThermalTripEnd (s : State) : Host.Outcome State Fault Refusal := runAny thermalTripEnd s

/-- XO_FAILURE after BOOT: every unit stops until PORST_N (R552). -/
def execXoFailure (s : State) : Host.Outcome State Fault Refusal :=
  run (fun w => { w with d.boot.dead := true }) s

/-- REFCLK_LOSS: every ring and graft transmitter of the unit stops while CLK_CTL selects the external REFCLK (R553). -/
def execRefclkLoss (s : State) : Host.Outcome State Fault Refusal :=
  run (fun w => if w.d.boot.refsrc then { w with d.boot.refLost := true, d.boot.refLock := false } else w) s

end Sys2Proof.Machine
end

