-- ==== Sys2Proof/Machine/Memory.lean ====
section
/-! DEFINITION. Bank memory's controller: the codes, corrected and uncorrectable errors, the sweeps, static pages, spare
banks, bank groups and their clearing (spec/16 R505 to R532). -/

namespace Sys2Proof.Machine

/-- Bank of an address (R505). -/
def bankOf (a : Nat) : Nat := a % 32

/-- A word's stored code: 0 right, 1 single-bit error, 2 uncorrectable. -/
def eccAt (a : Nat) (w : Work) : Nat := tabGet 0 w.d.mem.ecc a

/-- Number of static pages (MEM_SWEEP.STATIC). -/
def staticPages (w : Work) : Nat := cnt (fun p => isStatic (16384 + p) w) (List.range 16384)

/-- A single-bit error found by a read: counted, logged at the first of a bank since its counter was read, and queued for
write-back (R516). -/
def foundSingle (a : Nat) (w : Work) : Work :=
  let b := bankOf a
  let (n, hit) := satInc 0xFFFFFF (tabGet 0 w.d.mem.cerr b)
  let first := !w.d.mem.cerrLogged.getLsbD b
  let w := { w with
    d.mem.cerr := tabSet 0 w.d.mem.cerr b n
    d.mem.cerrSat := if hit then bvPut b true w.d.mem.cerrSat else w.d.mem.cerrSat
    d.mem.cerrLogged := bvPut b true w.d.mem.cerrLogged
    d.mem.ecc := tabSet 0 w.d.mem.ecc a 1
    d.mem.writeBack := w.d.mem.writeBack ++ [a]
    d.age.cerrHour := tabSet 0 w.d.age.cerrHour b (tabGet 0 w.d.age.cerrHour b + 1) }
  let w := when_ hit (logCntSat .mem b (0xF8100 + b) 0) w
  when_ first (logEvent .mem b 3 a) w

/-- MEM_UE is logged (Table 16.3). -/
def logUe (a : Nat) (w : Work) : Work := logEvent .mem (bankOf a) 1 a w

/-- Words in ranges of addresses whose stored code is wrong. -/
def badIn (rs : List (Nat × Nat)) (w : Work) : List (Nat × Nat) :=
  w.d.mem.ecc.filter (fun kv => rs.any (fun r => decide (r.1 ≤ kv.1) && decide (kv.1 < r.1 + r.2)))

/-- A control-path read of ranges of words by a MID: singles are corrected and counted, an uncorrectable word is memory
death and nothing else happens (R516 to R518). -/
def guardReads (mid : Nat) (rs : List (Nat × Nat)) (f : Work → Work) (w : Work) : Work :=
  let bad := badIn rs w
  match bad.find? (fun kv => kv.2 == 2) with
  | some kv => memoryDeath mid 0 kv.1 w
  | none => f (each bad (fun kv w => foundSingle kv.1 w) w)

/-- A read of one word by a master that survives an uncorrectable error: the word, zero where it is uncorrectable, and
whether it was (Table 16.3: hosts, harvest, the Hedge-P window). -/
def softRead (a : Nat) (w : Work) : Word × Bool × Work :=
  match eccAt a w with
  | 0 => (rd a w, false, w)
  | 1 => (rd a w, false, foundSingle a w)
  | _ => (0, true, logUe a w)

/-- ECC_WRITE_BACK: the corrected word goes back, unless a write came first (R516). -/
def eccWriteBack (a : Nat) (w : Work) : Work :=
  if w.d.mem.writeBack.contains a then
    { w with
      d.mem.writeBack := w.d.mem.writeBack.filter (fun x => x != a)
      d.mem.ecc := if eccAt a w == 1 then tabSet 0 w.d.mem.ecc a 0 else w.d.mem.ecc }
  else w

/-- States in which a page that cannot be trusted is memory death (R521). -/
def pageFatal (s : DevState) : Bool := s == .commission || s == .run || s == .recovery

/-- A page CRC failure (kind 1) or an uncorrectable word of a static page (kind 2). The scrubber has no MID: a free value
stands in MEM_UEINFO.MID (log 49). -/
def pageFailed (kind a : Nat) (w : Work) : Work :=
  let page := a / 256 * 256
  let (n, hit) := satInc 65535 w.d.mem.pcrc
  let w := { w with
    d.mem.pcrc := n, d.mem.pcrcSat := w.d.mem.pcrcSat || hit, d.mem.badPages := page :: w.d.mem.badPages }
  let w := when_ hit (logCntSat .mem 0 0xF8004 0) w
  let w := logEvent .mem (bankOf page) 2 page w
  if pageFatal w.d.sys.st then
    let (m, w) := freeN 32 w
    memoryDeath m kind (if kind == 1 then page else a) w
  else w

/-- A finding as the scrubber makes it: a word already known to be uncorrectable is found so again (R517). -/
def found (f : MemFind) (w : Work) : MemFind :=
  match f with | .single a => if eccAt a w == 2 then .double a else f | _ => f

/-- One finding of the static sweep: a page fails where the CRC worked out of the words as read is not the one the store
holds for it (R520, R521). -/
def staticFind (f : MemFind) (w : Work) : Work :=
  match found f w with
  | .single a => if isStatic (a / 256) w then foundSingle a w else w
  | .double a =>
    if isStatic (a / 256) w then pageFailed 2 a { w with d.mem.ecc := tabSet 0 w.d.mem.ecc a 2 } else w
  | .page a c =>
    if isStatic (a / 256) w && tabGet zeroPageCrc w.d.mem.pageCrc (a / 256) != c.toNat then pageFailed 1 a w else w

/-- SCRUB_SWEEP: a static sweep ends after us microseconds with its findings in order; the first that is memory death ends
it (R521). -/
def scrubSweep (finds : List MemFind) (us : Nat) (w : Work) : Work :=
  let w := { w with d.mem.sweepUs := min us 4095 }
  each (finds.filter (fun f => match f with | .single a => isBank a | .double a => isBank a | .page a _ => isBank a))
    staticFind w

/-- One finding of the dynamic sweep: singles are corrected; an uncorrectable word is logged and left (R522, Table 16.3). -/
def dynamicFind (f : MemFind) (w : Work) : Work :=
  match found f w with
  | .single a => if isBank a && !isStatic (a / 256) w then foundSingle a w else w
  | .double a =>
    if isBank a && !isStatic (a / 256) w then logUe a { w with d.mem.ecc := tabSet 0 w.d.mem.ecc a 2 } else w
  | .page _ _ => w

/-- DYNAMIC_SCRUB (R522). -/
def dynamicScrub (finds : List MemFind) (w : Work) : Work := each finds dynamicFind w

/-! Bank groups (R525, R526, spec/18 R564). -/

/-- The banks of a group as a set of bits. -/
def groupBanks (g : Nat) : BitVec 32 := 0xF <<< (4 * g)

/-- Switch a group on: its words are cleared, and the clear engine is at work until BANK_CLEAR_DONE. -/
def groupUp (g : Nat) (w : Work) : Work :=
  clearBanks (groupBanks g) { w with
    d.mem.pwrOn := bvPut g true w.d.mem.pwrOn, d.mem.clrBusy := bvPut g true w.d.mem.clrBusy
    d.mem.clrDone := bvPut g false w.d.mem.clrDone, d.boot.bgrp := bvPut g true w.d.boot.bgrp
    d.mem.ecc := w.d.mem.ecc.filter (fun kv => groupOf kv.1 != g) }

/-- Switch a group off: its words read as zero from here (R525). -/
def groupDown (g : Nat) (w : Work) : Work :=
  clearBanks (groupBanks g) { w with
    d.mem.pwrOn := bvPut g false w.d.mem.pwrOn, d.mem.clrBusy := bvPut g false w.d.mem.clrBusy
    d.mem.clrDone := bvPut g false w.d.mem.clrDone, d.boot.bgrp := bvPut g false w.d.boot.bgrp
    d.mem.ecc := w.d.mem.ecc.filter (fun kv => groupOf kv.1 != g) }

/-- An access to a word of a group: MEM_GROUP_OFF once for each run of accesses while the group is off (R525). -/
def groupAccess (a : Nat) (w : Work) : Work :=
  let g := groupOf a
  if groupOn a w then { w with d.mem.offRun := bvPut g false w.d.mem.offRun }
  else if w.d.mem.offRun.getLsbD g then w
  else logEvent .mem (bankOf a) 6 a { w with d.mem.offRun := bvPut g true w.d.mem.offRun }

/-- PWR_BGRP_WRITE: in TEST only (R564). -/
def bgrpWrite (v : Word) (w : Work) : Work :=
  if w.d.sys.st == .test then
    each (List.range 8) (fun g w =>
      let on := w.d.boot.bgrp.getLsbD g
      if bit v g && !on then groupUp g w else if !bit v g && on then groupDown g w else w) w
  else w

/-- At exit from TEST every group that is off is switched on and cleared (R564). -/
def groupsBack (w : Work) : Work :=
  each (List.range 8) (fun g w => if w.d.boot.bgrp.getLsbD g then w else groupUp g w) w

/-- Registers of Tables 16.5 to 16.13. -/
def memClrWord (w : Work) : Word :=
  wd (put 16 8 w.d.mem.pwrOn.toNat + put 8 8 w.d.mem.clrBusy.toNat + put 0 8 w.d.mem.clrDone.toNat)
def memSpareWord (w : Work) : Word :=
  wd (putB 11 w.d.mem.s1.isSome + put 6 5 (w.d.mem.s1.getD 0) + putB 5 w.d.mem.s0.isSome + put 0 5 (w.d.mem.s0.getD 0))
def memUeWord (w : Work) : Word :=
  wd (putB 35 w.d.mem.ueValid + put 30 5 w.d.mem.ueMid + put 28 2 w.d.mem.ueKind + put 0 23 w.d.mem.ueAddr)
def memSweepWord (w : Work) : Word := wd (put 15 12 w.d.mem.sweepUs + put 0 15 (staticPages w))

/-- ECC_WRITE_BACK at a word address. -/
def execEccWriteBack (a : Nat) (s : State) : Host.Outcome State Fault Refusal := run (eccWriteBack a) s

/-- SCRUB_SWEEP (R521). -/
def execScrubSweep (finds : List MemFind) (us : Nat) (s : State) : Host.Outcome State Fault Refusal :=
  run (scrubSweep finds us) s

/-- DYNAMIC_SCRUB (R522). -/
def execDynamicScrub (finds : List MemFind) (s : State) : Host.Outcome State Fault Refusal := run (dynamicScrub finds) s

/-- PWR_BGRP_WRITE (spec/18 R564). -/
def execPwrBgrpWrite (v : Word) (s : State) : Host.Outcome State Fault Refusal := run (bgrpWrite v) s

end Sys2Proof.Machine
end

