-- ==== Sys2Proof/Machine/Boot.lean ====
section
/-! DEFINITION. Start-up from reset to the accepted firmware, the start-up judge, the flash and direct access to it, the
frequency counter and the clock gates (spec/18 R544 to R577). -/

namespace Sys2Proof.Machine

/-! The flash (R572, R577); a byte never written reads 0xFF (log 61). -/

def flashByte (a : Nat) (w : Work) : Nat := tabGet 255 w.d.flash.cells a
def flashPut (a v : Nat) (w : Work) : Work := { w with d.flash.cells := tabSet 255 w.d.flash.cells a (v % 256) }

/-- Bytes written from an address on. -/
def flashPuts : Nat → List Nat → Work → Work
  | _, [], w => w
  | a, v :: r, w => flashPuts (a + 1) r (flashPut a v w)

/-- A native word in 5-byte form (spec/02 R36). -/
def flashWord (a : Nat) (w : Work) : Word := wd (ofBytesBE ((List.range 5).map (fun k => flashByte (a + k) w)))

/-- Clear the 64 KiB sector of an address. -/
def flashErase (a : Nat) (w : Work) : Work :=
  { w with d.flash.cells := w.d.flash.cells.filter (fun kv => kv.1 / 65536 != a / 65536) }

/-! Ledger records in flash (spec/19 R581, R582). -/

/-- Byte address of record place p of the ledger region. -/
def recordAddr (p : Nat) : Nat := 0x810000 + 512 * p

/-- The 64 summary words at a place, where the CRC checks. -/
def recordAt (p : Nat) (w : Work) : Option (List Word) :=
  let ws := (List.range 64).map (fun k => flashWord (recordAddr p + 5 * k) w)
  if flashWord (recordAddr p + 320) w == wd (fcs (wordBytes5 ws)) then some ws else none

/-- The places of the ledger region that hold a byte other than 0xFF, rising; an erased place holds no valid record. -/
def recordPlaces (w : Work) : List Nat :=
  w.d.flash.cells.foldr (fun kv l =>
    let p := (kv.1 - 0x810000) / 512
    if kv.1 < 0x810000 || 1920 ≤ p || l.head? == some p then l else p :: l) []

/-- The valid records with their places. -/
def records (w : Work) : List (Nat × List Word) :=
  (recordPlaces w).filterMap (fun p => (recordAt p w).map (fun r => (p, r)))

/-- The valid record with the highest SEQ. -/
def lastRecord (w : Work) : Option (Nat × List Word) :=
  (records w).foldl (fun b r => match b with
    | some x => if (nth 0 x.2 0).toNat < (nth 0 r.2 0).toNat then some r else some x
    | none => some r) none

/-! Start-up (R547 to R549, Table 18.3). -/

/-- PORST_N_RELEASE: the straps are sampled and the RC starts its settle count (R547, R628); while a thermal trip holds the
device the count waits for its end (spec/01 R30). -/
def porstRelease (unit mode : Nat) (w : Work) : Work :=
  if w.d.boot.start == .held && (!w.d.boot.tripped || w.d.boot.tripLow) then
    { w with
      d.boot.strapUnit := unit, d.boot.strapMode := mode, d.boot.tripLow := false
      d.boot.start := if w.d.boot.tripped then .held else .settle }
  else w

/-- RC_SETTLE_END: the judge starts (R547). -/
def settleEnd (w : Work) : Work :=
  if w.d.boot.start == .settle then { w with d.boot.start := .judge, d.boot.passes := 0, d.boot.fails := 0 } else w

/-- A window's count passes (R547). -/
def judgePass (age c : Nat) : Bool :=
  let v : ℚ := 3 / 100 + (min age 100 : ℚ) / 1000000
  c != 0 && decide (2560 * (1 - v) ≤ (c : ℚ)) && decide ((c : ℚ) ≤ 2560 * (1 + v))

/-- Enter BOOT_HOLD with a status code (spec/01 Table 1.7). -/
def bootHold (stat : Nat) (w : Work) : Work := setState .bootHold { w with d.boot.holdStat := stat }

/-- JUDGE_WINDOW: a window ends with count c (R547, R548). -/
def judgeWindow (c : Nat) (w : Work) : Work :=
  if w.d.boot.start == .judge && w.d.sys.st != .bootHold then
    let w := { w with d.boot.lastC := c }
    if judgePass w.d.boot.agePpm c then
      let n := w.d.boot.passes + 1
      let w := { w with d.boot.passes := n }
      if n == 8 then { w with d.boot.start := .locking } else w
    else
      let n := w.d.boot.fails + 1
      let w := { w with d.boot.passes := 0, d.boot.fails := n }
      if n == 8 then bootHold 3 w else w
  else w

/-- PLL_LOCKED: the main PLLs have locked; every bank group is powered on and cleared (R545, R564). -/
def pllLocked (w : Work) : Work :=
  if w.d.boot.start == .locking then
    each (List.range 8) groupUp { w with d.boot.start := .clearing, d.boot.refLock := true }
  else w

/-- The marked banks take the free spares, lowest bank first; a spare that is itself marked is passed over (spec/16 R523,
R524). -/
def mapSpares (w : Work) : Work :=
  let marks := match lastRecord w with | some r => (nth 0 r.2 53).toNat | none => 0
  let w := { w with d.mem.s0 := none, d.mem.s1 := none, d.mem.retmark := BitVec.ofNat 32 marks }
  each ((List.range 32).filter (fun b => marks.testBit b)) (fun b w =>
    if w.d.mem.s0.isNone && !w.d.flash.spareBad.getLsbD 0 then
      logEvent .mem b 4 b { w with d.mem.s0 := some b }
    else if w.d.mem.s1.isNone && !w.d.flash.spareBad.getLsbD 1 then
      logEvent .mem b 4 b { w with d.mem.s1 := some b }
    else logEvent .mem b 5 b w) w

/-- Entry to BOOT: straps read, BOOT_OK rises; a reserved BOOT_MODE is held (R568). -/
def enterBoot (w : Work) : Work :=
  let w := { w with
    d.boot.start := .done, d.boot.bootOk := true, d.boot.unitId := w.d.boot.strapUnit
    d.boot.bootMode := w.d.boot.strapMode, d.sys.prev := w.d.sys.st, d.sys.st := .boot }
  let w := if w.d.sys.rstCause == 0 then mapSpares w else w
  if w.d.boot.bootMode == 3 then bootHold 7 w else w

/-- BANK_CLEAR_DONE of a group; at start-up the last one enters BOOT (spec/16 R526, Table 18.3). -/
def bankClearDone (g : Nat) (w : Work) : Work :=
  if w.d.mem.clrBusy.getLsbD g then
    let w := { w with d.mem.clrBusy := bvPut g false w.d.mem.clrBusy, d.mem.clrDone := bvPut g true w.d.mem.clrDone }
    if w.d.boot.start == .clearing && w.d.mem.clrBusy == 0 then enterBoot w else w
  else w

/-- The firmware is accepted: it binds the mailboxes and the configuration load starts (R534 of spec/17, R574). -/
def firmwareOk (w : Work) : Work := mbxBoot { w with d.boot.verified := true, d.boot.cfgBusy := true }

/-- BOOT_IMAGE_CHECK: the check of the present image ends; R569's cryptography is its operand (log 63). -/
def bootImageCheck (ok : Bool) (w : Work) : Work :=
  if w.d.sys.st != .boot || w.d.boot.verified then w
  else if w.d.boot.bootMode == 2 then
    if !w.d.boot.go then w else if ok then firmwareOk w else bootHold 7 w
  else if ok then
    let second := w.d.boot.img0Bad
    let w := firmwareOk { w with d.boot.image := second }
    if second then logEvent .sys 0 2 0 w else w
  else if w.d.boot.img0Bad then bootHold 7 w
  else { w with d.boot.img0Bad := true }

/-- GO: the host has placed its image (R571). -/
def bootGo (w : Work) : Work :=
  if w.d.sys.st == .boot && w.d.boot.bootMode == 2 && !w.d.boot.verified then { w with d.boot.go := true } else w

/-- GO_TIMEOUT: 10 s after BOOT_OK without GO (R571). -/
def goTimeout (w : Work) : Work :=
  if w.d.sys.st == .boot && w.d.boot.bootMode == 2 && !w.d.boot.go then bootHold 7 w else w

/-- STAT[2:0] (spec/01 Table 1.7). -/
def statPins (w : Work) : Nat :=
  match w.d.sys.st with
  | .off => 0 | .bootHold => w.d.boot.holdStat | .boot => 1 | .config => 1 | .discover => 2 | .plan => 2
  | .commission => 4 | .run => 5 | .recovery => 6 | .test => 4 | .safeLock => 6

/-- SYS_BOOT (Table 18.9). -/
def sysBootWord (w : Work) : Word :=
  wd (putB 7 w.d.boot.img0Bad + putB 6 w.d.boot.image + put 2 4 w.d.boot.unitId + put 0 2 w.d.boot.bootMode)

/-- SYS_CFG (Table 18.10). -/
def sysCfgWord (w : Work) : Word :=
  wd (putB 24 w.d.boot.cfgBusy + put 4 19 w.d.boot.cfgLen + putB 3 w.d.boot.ptrEmpty + put 0 3 w.d.boot.slot)

/-- RELOAD: a write of SYS_CFG with RELOAD set, in CONFIG (R574). -/
def cfgReload (v : Word) (w : Work) : Work :=
  if w.d.sys.st == .config && bit v 23 then { w with d.boot.cfgBusy := true } else w

/-! Direct flash access (R577): outside CONFIG, and while an operation is in progress, a command sets ERR. -/

/-- Start an operation; ERR's W1C acts first. -/
def flashStart (op len : Nat) (clr : Bool) (w : Work) : Work :=
  let w := if clr then { w with d.flash.err := false } else w
  if w.d.sys.st == .config && !w.d.flash.busy then
    { w with d.flash.busy := true, d.flash.op := some (op, w.d.flash.addr, len) }
  else { w with d.flash.err := true }

/-- Byte address i of a transfer: it stays within one 256-byte page. -/
def flashPage (a i : Nat) : Nat := a / 256 * 256 + (a + i) % 256

/-- Byte i of the buffer words, the lowest address in bits [31:24] of a word. -/
def flashBufByte (i : Nat) (w : Work) : Nat := ((tabGet 0 w.d.flash.buf (i / 4)) >>> (24 - 8 * (i % 4))) % 256
def flashBufPut (i v : Nat) (w : Work) : Work :=
  let k := i / 4
  let o := tabGet 0 w.d.flash.buf k
  let sh := 24 - 8 * (i % 4)
  let n := o - (((o >>> sh) % 256) <<< sh) + ((v % 256) <<< sh)
  { w with d.flash.buf := tabSet 0 w.d.flash.buf k n }

/-- A byte of a transfer, or a free value where the flash reported an error (log 61). -/
def flashMove (bad : Bool) (v : Nat) (w : Work) : Nat × Work := if bad then freeN 256 w else (v, w)

/-- FLASH_OPERATION_DONE: the transfer takes place and BUSY clears; ERR on a flash error (R577). -/
def flashDone (err : Bool) (w : Work) : Work :=
  match w.d.flash.op with
  | none => w
  | some (op, a, len) =>
    let w := { w with d.flash.busy := false, d.flash.op := none, d.flash.err := w.d.flash.err || err }
    if op == 1 then each (List.range len) (fun i w =>
      let (v, w) := flashMove err (flashByte (flashPage a i) w) w
      flashBufPut i v w) w
    else if op == 2 then each (List.range len) (fun i w =>
      let (v, w) := flashMove err (flashBufByte i w) w
      flashPut (flashPage a i) v w) w
    else if err then
      each (w.d.flash.cells.filter (fun kv => kv.1 / 65536 == a / 65536)) (fun kv w =>
        let (v, w) := freeN 256 w
        flashPut kv.1 v w) w
    else flashErase a w

/-- SYS_FLCMD (Table 18.14). -/
def flCmdWord (w : Work) : Word := wd (putB 33 w.d.flash.busy + putB 32 w.d.flash.err)

/-! CLKMEAS (R558). -/

/-- Multiple of the XO of a clock derived from it (Table 18.2). -/
def xoMult (c : Nat) : Option Nat :=
  match c with | 0 => some 1 | 3 => some 32 | 4 => some 24 | 5 => some 40 | 6 => some 48 | 7 => some 10 | _ => none

/-- A write of CLK_MSEL: its fields and, with START, a measurement; while BUSY it is ignored. -/
def mselWrite (v : Word) (w : Work) : Work :=
  if w.d.boot.mBusy then w
  else { w with d.boot.meas := fld v 28 4, d.boot.mref := fld v 24 4, d.boot.nref := fld v 0 24, d.boot.mBusy := bit v 35 }

/-- MEASUREMENT_DONE: the count appears. Between clocks of the XO it is exact to ±1, which is free; else it is what was
counted (log 62). -/
def measureDone (k : Nat) (w : Work) : Work :=
  if !w.d.boot.mBusy then w
  else
    let n := max 1 w.d.boot.nref
    let (c, w) := match xoMult w.d.boot.meas, xoMult w.d.boot.mref with
      | some m, some r => let (e, w) := freeN 3 w; (n * m / r + e - 1, w)
      | _, _ => (k, w)
    { w with d.boot.mBusy := false, d.boot.mcnt := c % 2 ^ 32 }

/-- CLK_MSEL (Table 18.19). -/
def mselWord (w : Work) : Word :=
  wd (putB 34 w.d.boot.mBusy + put 28 4 w.d.boot.meas + put 24 4 w.d.boot.mref + put 0 24 w.d.boot.nref)

/-! Clock gates (R559 to R561). -/

/-- The two gate words leave an enabled child under a gated parent (R560). -/
def gateBad (g ce : Nat) : Bool := (fld (wd g) 14 4 != 0 && !g.testBit 19) || (ce % 65536 != 0 && !g.testBit 18)

/-- CLK_GATE_WRITE of CLK_GATE, or of CLK_GATECE (R560, R561). -/
def gateWrite (ce : Bool) (v : Word) (w : Work) : Work :=
  if w.d.sys.st != .config && w.d.sys.st != .test then w
  else
    let g := if ce then gateNow w else v.toNat &&& gateMask w.variant
    let c := if ce then v.toNat &&& (2 ^ numCE w.variant - 1) else gateCeNow w
    if gateBad g c then logEvent .clk 0 1 (fld v 0 23) { w with d.boot.prune := true }
    else { w with d.boot.gate := some g, d.boot.gateCe := some c }

/-- PORST_N_RELEASE with the levels of UNIT_ID and BOOT_MODE. -/
def execPorstNRelease (unit : Fin 16) (mode : Fin 4) (s : State) : Host.Outcome State Fault Refusal :=
  runAny (porstRelease unit.val mode.val) s

/-- RC_SETTLE_END. -/
def execRcSettleEnd (s : State) : Host.Outcome State Fault Refusal := runAny settleEnd s

/-- JUDGE_WINDOW. -/
def execJudgeWindow (c : Fin 4096) (s : State) : Host.Outcome State Fault Refusal := runAny (judgeWindow c.val) s

/-- PLL_LOCKED. -/
def execPllLocked (s : State) : Host.Outcome State Fault Refusal := runAny pllLocked s

/-- BANK_CLEAR_DONE. -/
def execBankClearDone (g : Fin 8) (s : State) : Host.Outcome State Fault Refusal :=
  if s.dev.boot.dead then .next s else runAny (bankClearDone g.val) s

/-- BOOT_IMAGE_CHECK. -/
def execBootImageCheck (ok : Bool) (s : State) : Host.Outcome State Fault Refusal := run (bootImageCheck ok) s

/-- GO. -/
def execGo (s : State) : Host.Outcome State Fault Refusal := run bootGo s

/-- GO_TIMEOUT. -/
def execGoTimeout (s : State) : Host.Outcome State Fault Refusal := run goTimeout s

/-- RELOAD. -/
def execReload (v : Word) (s : State) : Host.Outcome State Fault Refusal := run (cfgReload v) s

/-- FLASH_READ of len + 1 bytes; clr is the ERR bit of the write. -/
def execFlashRead (len : Fin 256) (clr : Bool) (s : State) : Host.Outcome State Fault Refusal :=
  run (flashStart 1 (len.val + 1) clr) s

/-- FLASH_PROGRAM of len + 1 bytes. -/
def execFlashProgram (len : Fin 256) (clr : Bool) (s : State) : Host.Outcome State Fault Refusal :=
  run (flashStart 2 (len.val + 1) clr) s

/-- SECTOR_ERASE. -/
def execSectorErase (clr : Bool) (s : State) : Host.Outcome State Fault Refusal := run (flashStart 3 0 clr) s

/-- FLASH_OPERATION_DONE. -/
def execFlashOperationDone (err : Bool) (s : State) : Host.Outcome State Fault Refusal := run (flashDone err) s

/-- MEASUREMENT_START: a write of CLK_MSEL. -/
def execMeasurementStart (v : Word) (s : State) : Host.Outcome State Fault Refusal := run (mselWrite v) s

/-- MEASUREMENT_DONE. -/
def execMeasurementDone (k : Nat) (s : State) : Host.Outcome State Fault Refusal := run (measureDone k) s

/-- CLK_GATE_WRITE. -/
def execClkGateWrite (ce : Bool) (v : Word) (s : State) : Host.Outcome State Fault Refusal := run (gateWrite ce v) s

end Sys2Proof.Machine
end

