-- ==== Sys2Proof/Machine/F32.lean ====
section
/-! DEFINITION. Binary32 arithmetic by exact rationals: round to nearest even, denormals taken and delivered as zero
(spec/02 Table 2.1, spec/06 R180). -/

namespace Sys2Proof.Machine

/-- 2^k for an integer k. -/
def pow2 (k : Int) : ℚ := if 0 ≤ k then ((2 ^ k.toNat : Nat) : ℚ) else 1 / ((2 ^ (-k).toNat : Nat) : ℚ)

/-- The largest e with 2^e ≤ q, for q > 0. -/
def ratLog2 (q : ℚ) : Int :=
  let e : Int := (Nat.log2 q.num.natAbs : Int) - (Nat.log2 q.den : Int)
  if pow2 e ≤ q then (if pow2 (e + 1) ≤ q then e + 1 else e) else e - 1

/-- Round a rational to an integer, ties to even. -/
def rneInt (q : ℚ) : Int :=
  let f := q.floor
  let r := q - f
  if r < 1 / 2 then f else if 1 / 2 < r then f + 1 else if f % 2 = 0 then f else f + 1

/-- Sign bit, exponent field and fraction field of a binary32 value. -/
def fSign (x : F32) : Bool := x.getLsbD 31
def fExp (x : F32) : Nat := (x.toNat >>> 23) % 256
def fFrac (x : F32) : Nat := x.toNat % 2 ^ 23

/-- A NaN or an infinity (spec/02 R40). -/
def fSpecial (x : F32) : Bool := fExp x == 255

/-- A zero; a denormal reads as zero (spec/06 R180). -/
def fIsZero (x : F32) : Bool := fExp x == 0

/-- The value of a finite binary32 number, denormals as zero; infinities read as 2^128 with their sign. -/
def fVal (x : F32) : ℚ :=
  if fExp x = 0 then 0
  else
    let m : ℚ := if fExp x = 255 then pow2 128 else ((2 ^ 23 + fFrac x : Nat) : ℚ) * pow2 ((fExp x : Int) - 150)
    if fSign x then -m else m

/-- The binary32 value with the given sign and magnitude bits. -/
def fPack (neg : Bool) (mag : Nat) : F32 := BitVec.ofNat 32 ((if neg then 2 ^ 31 else 0) + mag)

/-- Round a rational to binary32: nearest even, results below the normal range to zero, overflow to infinity. -/
def fOf (neg : Bool) (q : ℚ) : F32 :=
  if q = 0 then fPack neg 0
  else
    let a := |q|
    let e := ratLog2 a
    let m := rneInt (a * pow2 (23 - e))
    let (m, e) := if m = 2 ^ 24 then ((2 ^ 23 : Int), e + 1) else (m, e)
    let s := decide (q < 0)
    if 127 < e then fPack s 0x7F800000
    else if e < -126 then fPack s 0
    else fPack s (((e + 127).toNat) * 2 ^ 23 + (m.toNat - 2 ^ 23))

/-- The nearest binary32 value of a rational. -/
def fRat (q : ℚ) : F32 := fOf (decide (q < 0)) q

/-- The quiet NaN the engines deliver. -/
def fNaN : F32 := 0x7FC00000

def fIsNaN (x : F32) : Bool := fSpecial x && fFrac x != 0
def fIsInf (x : F32) : Bool := fSpecial x && fFrac x == 0

/-- Binary32 negation: the sign bit inverted. -/
def fNeg (x : F32) : F32 := x ^^^ 0x80000000

/-- Binary32 absolute value: the sign bit cleared. -/
def fAbs (x : F32) : F32 := x &&& 0x7FFFFFFF

/-- Binary32 addition. -/
def fAdd (x y : F32) : F32 :=
  if fIsNaN x || fIsNaN y then fNaN
  else if fIsInf x then (if fIsInf y && fSign x != fSign y then fNaN else x)
  else if fIsInf y then y
  else
    let q := fVal x + fVal y
    fOf (if q = 0 then fSign x && fSign y else decide (q < 0)) q

/-- Binary32 subtraction. -/
def fSub (x y : F32) : F32 := fAdd x (fNeg y)

/-- Binary32 multiplication. -/
def fMul (x y : F32) : F32 :=
  if fIsNaN x || fIsNaN y then fNaN
  else if fIsInf x || fIsInf y then
    (if fIsZero x || fIsZero y then fNaN else fPack (fSign x != fSign y) 0x7F800000)
  else fOf (fSign x != fSign y) (fVal x * fVal y)

/-- Binary32 division. -/
def fDiv (x y : F32) : F32 :=
  if fIsNaN x || fIsNaN y then fNaN
  else if fIsInf x then (if fIsInf y then fNaN else fPack (fSign x != fSign y) 0x7F800000)
  else if fIsInf y then fPack (fSign x != fSign y) 0
  else if fIsZero y then (if fIsZero x then fNaN else fPack (fSign x != fSign y) 0x7F800000)
  else fOf (fSign x != fSign y) (fVal x / fVal y)

/-- Ordered comparison x < y of numbers (false when one is a NaN). -/
def fLt (x y : F32) : Bool := !fIsNaN x && !fIsNaN y && decide (fVal x < fVal y)

/-- Ordered comparison x ≤ y of numbers (false when one is a NaN). -/
def fLe (x y : F32) : Bool := !fIsNaN x && !fIsNaN y && decide (fVal x ≤ fVal y)

/-- A denormal flushed to zero with its sign; any other value as it is (spec/06 R180). -/
def fFlush (x : F32) : F32 := if fExp x == 0 then x &&& 0x80000000 else x

/-- The smaller and the larger of two numbers, denormals as zero. -/
def fMin (x y : F32) : F32 := fFlush (if fLe x y then x else y)
def fMax (x y : F32) : F32 := fFlush (if fLe y x then x else y)

/-- An integer as binary32, rounded to nearest even. -/
def fInt (n : Int) : F32 := fRat n

/-- The low 32 bits of a native word as binary32 (spec/02 R39). -/
def fOfWord (w : Word) : F32 := BitVec.ofNat 32 w.toNat

/-- A binary32 value in a native word, bits [35:32] zero. -/
def fToWord (x : F32) : Word := wd x.toNat

/-- The value of an F32 word as a rational. -/
def fWordVal (w : Word) : ℚ := fVal (fOfWord w)

/-- A word fit for an F32 parameter: bits [35:32] zero, no NaN, no infinity (spec/02 R40). -/
def fWordOk (w : Word) : Bool := fld w 32 4 == 0 && !fSpecial (fOfWord w)

end Sys2Proof.Machine
end

