-- ==== Sys2Proof/Machine/OpTable.lean ====
section
/-! DEFINITION. The opcode table of the command packets as data: counts, flags, states and the objects a command names
(spec/03 Tables 3.1 to 3.3, R75 to R78). -/

namespace Sys2Proof.Machine

/-- The opcodes of spec/03 Table 3.3. -/
def opcodes : List Nat :=
  [0x000, 0x001, 0x002, 0x003, 0x040, 0x041, 0x042, 0x043, 0x044, 0x045, 0x046, 0x047, 0x048, 0x049, 0x080, 0x081,
   0x082, 0x0C0, 0x0C1, 0x0C2, 0x0C3, 0x100, 0x101, 0x140, 0x141, 0x142, 0x180, 0x181, 0x1C0, 0x1C1, 0x1C2, 0x200,
   0x201, 0x240, 0x241, 0x280]

/-- The parameter counts an opcode allows, without the phase word (Table 3.3). -/
def lenOk (op n : Nat) : Bool :=
  match op with
  | 0x000 | 0x142 | 0x201 | 0x141 => n == 0
  | 0x001 | 0x040 | 0x041 | 0x046 | 0x047 | 0x048 | 0x082 | 0x0C3 | 0x1C1 | 0x200 | 0x280 => n == 1
  | 0x002 | 0x049 | 0x1C0 | 0x240 | 0x241 => n == 2
  | 0x003 | 0x042 | 0x043 | 0x044 | 0x0C0 | 0x0C1 | 0x0C2 | 0x181 => n == 3
  | 0x045 => decide (4 ≤ n) && decide (n ≤ 6)
  | 0x080 | 0x081 => n == 5
  | 0x100 => n % 2 == 0 && decide (2 ≤ n) && decide (n ≤ 62)
  | 0x101 => decide (1 ≤ n) && decide (n ≤ 12)
  | 0x140 => decide (n ≤ 1)
  | 0x180 => decide (3 ≤ n) && decide (n ≤ 62)
  | 0x1C2 => n == 4
  | _ => false

/-- PHASED allowed (Table 3.3, flag P). -/
def phasedOk (op : Nat) : Bool :=
  [0x040, 0x041, 0x042, 0x043, 0x044, 0x045, 0x046, 0x047, 0x049, 0x080, 0x082, 0x0C0, 0x0C1, 0x0C2, 0x0C3, 0x100,
   0x141, 0x180, 0x1C0].contains op

/-- IN_BUNDLE allowed (Table 3.3, flag B). -/
def bundleOk (op : Nat) : Bool :=
  [0x040, 0x041, 0x042, 0x043, 0x044, 0x045, 0x046, 0x047, 0x049, 0x080, 0x081, 0x082, 0x0C0, 0x0C1, 0x0C2, 0x0C3,
   0x100, 0x180].contains op

/-- The device states an opcode is allowed in (Table 3.3); PARAM_WRITE and PARAM_READ go by their class (R80). -/
def statesOk (op : Nat) (s : DevState) : Bool :=
  match op with
  | 0x002 | 0x140 | 0x141 | 0x200 | 0x280 => s == .commission || s == .run
  | 0x041 => s == .commission || s == .run || s == .recovery || s == .safeLock
  | 0x040 | 0x042 | 0x043 | 0x044 | 0x045 | 0x046 | 0x047 | 0x048 | 0x049 | 0x080 | 0x081 | 0x082 | 0x0C0 | 0x0C1
  | 0x0C2 | 0x0C3 | 0x142 => s == .commission || s == .run || s == .recovery
  | 0x100 | 0x1C0 | 0x1C1 => s == .commission || s == .run || s == .recovery || s == .test
  | 0x101 => s == .commission || s == .run || s == .recovery || s == .test || s == .safeLock
  | 0x1C2 => s == .config || s == .commission || s == .run || s == .recovery || s == .test
  | _ => fromConfig s

/-- Stop commands, never refused for lateness or budget and never delayed (R77). -/
def stopClass (op : Nat) : Bool := [0x041, 0x046, 0x047, 0x082, 0x0C3].contains op

/-- Commands completing at admission of a standby unit other than with STATE_REFUSED (R67). -/
def standbyOk (op : Nat) : Bool := [0x000, 0x181, 0x240, 0x241, 0x001].contains op

/-- Slow-class opcodes (R78); gearing and parameters of a stepper follow their object. -/
def slowOp (op : Nat) (ps : List Word) : Bool :=
  match op with
  | 0x0C0 | 0x0C1 | 0x0C2 | 0x0C3 | 0x100 => true
  | 0x080 | 0x081 | 0x082 => fld (nth 0 ps 0) 32 4 == 2
  | _ => false

/-- A word of the parameter list, 1-based as DETAIL counts it. -/
def prm (ps : List Word) (k : Nat) : Word := nth 0 ps (k - 1)

/-- Servo axes of a MOVE_COORD axis word: k - 1 in [33:32], eight bits each, first lowest. -/
def coordAxes (a : Word) : List Nat := (List.range (fld a 32 2 + 1)).map (fun j => fld a (8 * j) 8)

/-- Object kind and index of an object word (spec/03 R81). -/
def objKind (o : Word) : Nat := fld o 32 4
def objIndex (o : Word) : Nat := fld o 0 32

/-- The servo axes a command names; QUICK_STOP with 0x3FF names every one (Table 3.3). -/
def opServos (op : Nat) (ps : List Word) (w : Work) : List Nat :=
  match op with
  | 0x040 | 0x041 | 0x042 | 0x043 | 0x044 | 0x046 | 0x048 | 0x049 => [fld (prm ps 1) 0 10]
  | 0x047 => if fld (prm ps 1) 0 10 == 0x3FF then List.range (servoPresent w) else [fld (prm ps 1) 0 10]
  | 0x045 => coordAxes (prm ps 1)
  | 0x080 | 0x081 | 0x082 => if objKind (prm ps 1) == 1 then [objIndex (prm ps 1)] else []
  | _ => []

/-- The stepper axes a command names; STEP_STOP with 0xFFF names every one. -/
def opSteppers (op : Nat) (ps : List Word) (w : Work) : List Nat :=
  match op with
  | 0x0C0 | 0x0C1 | 0x0C2 => [fld (prm ps 1) 0 12]
  | 0x0C3 => if fld (prm ps 1) 0 12 == 0xFFF then stpAll w else [fld (prm ps 1) 0 12]
  | 0x080 | 0x081 | 0x082 => if objKind (prm ps 1) == 2 then [objIndex (prm ps 1)] else []
  | _ => []

/-- The servo and stepper axes of the parameters' object, for a PARAM_WRITE in a bundle (spec/04 R116). -/
def opObject (op : Nat) (ps : List Word) : Option (Nat × Nat) :=
  if op == 0x180 then some (objKind (prm ps 1), objIndex (prm ps 1)) else none

/-- The I/O points an IO_WRITE names. -/
def opPoints (op : Nat) (ps : List Word) : List Nat :=
  if op == 0x100 then (List.range (ps.length / 2)).map (fun j => (nth 0 ps (2 * j)).toNat) else []

/-- Planner units a command needs (spec/04 Table 4.2), for servo axes. -/
def plannerUnits (op : Nat) (ps : List Word) : Nat :=
  match op with
  | 0x042 | 0x043 | 0x044 => 1
  | 0x045 => (coordAxes (prm ps 1)).length
  | 0x080 => if objKind (prm ps 1) == 1 then 1 else 0
  | _ => 0

/-- Stepper plans a command needs (spec/08 R270). -/
def stepperPlans (op : Nat) (ps : List Word) : Nat :=
  match op with
  | 0x0C1 | 0x0C2 => 1
  | 0x080 => if objKind (prm ps 1) == 2 then 1 else 0
  | _ => 0

end Sys2Proof.Machine
end

