-- ==== Sys2Proof/Machine/Effects.lean ====
section
/-! DEFINITION. What becomes of admitted commands and bundles when a bundle is aborted, and which commands a fault concerns
(spec/04 R117, R126, spec/06 R216, spec/08 R287). -/

namespace Sys2Proof.Machine

/-- Take a governor curve out of the timeline's list (spec/12 R390). -/
def dropCurve (e : Effect) (w : Work) : Work :=
  match e.curve with
  | some k => { w with d.egv.curves := w.d.egv.curves.filter (fun c => c.id != k) }
  | none => w

/-! What an effect has done ahead of its sync point (Table 4.3), taken back when it does not take place (R97). -/

/-- An engine's axis as it was before the effect: the enable state, or the page and its words. -/
def ceUndo (u : CeUndo) (w : Work) : Work :=
  let w := each u.words (fun p w => wr p.1 p.2 w) w
  modCe u.axis (fun x =>
    if u.op == 0x040 then
      { x with enabled := false, enableCycle := false, tapInit := u.old.tapInit, ip := u.old.ip, iv := u.old.iv }
    else if u.op == 0x041 then
      { x with
        enabled := u.old.enabled && x.fcode == 0, tapInit := u.old.tapInit, ip := u.old.ip, iv := u.old.iv
        satt := u.old.satt, bt := u.old.bt }
    else { x with page := u.old.page }) w

/-- A stepper axis plans again as before the effect; what has been exchanged and measured since stays. -/
def stpUndo (a : Nat) (old : StpAxis) (w : Work) : Work :=
  modStp a (fun x => { old with
    p := x.p, pPrev := x.pPrev, pOld := x.pOld, fcode := x.fcode, missRun := x.missRun, penc := x.penc, encRem := x.encRem
    encLast := x.encLast, stallRun := x.stallRun, dev := x.dev, devPeak := x.devPeak, ret := x.ret, ref0 := x.ref0
    ref1 := x.ref1, nodeFault := x.nodeFault, exchanged := x.exchanged, statShown := x.statShown, devShown := x.devShown }) w

/-- What is kept of a command's early part is let go. -/
def forgetEarly (id : Nat) (w : Work) : Work :=
  { w with
    d.ce.undo := w.d.ce.undo.filter (fun u => u.id != id), d.stp.undo := w.d.stp.undo.filter (fun u => u.1 != id)
    d.trl.undoOut := w.d.trl.undoOut.filter (fun u => u.1 != id) }

/-- Take a command's early part back. -/
def undoEarly (id : Nat) (w : Work) : Work :=
  let w := each (w.d.ce.undo.filter (fun u => u.id == id)).reverse ceUndo w
  let w := each (w.d.stp.undo.filter (fun u => u.1 == id)).reverse (fun u w => stpUndo u.2.1 u.2.2 w) w
  let w := each (w.d.trl.undoOut.filter (fun u => u.1 == id)).reverse (fun u w =>
    let (k, lo, n, v) := u.2
    let keep := tabGet 0 w.d.trl.outImg k &&& ~~~(wd (put lo n (2 ^ 36 - 1)))
    { w with d.trl.outImg := tabSet 0 w.d.trl.outImg k (keep ||| wd (put lo n v)) }) w
  forgetEarly id w

/-- The transfer of a class-N command is given up. -/
def dropXfer (id : Nat) (w : Work) : Work :=
  let l := w.d.cmd.xfers.filter (fun x => x.cmd.id == id)
  each l (fun x => modR x.ringB (fun r => { r with acyc := r.acyc.filter (fun y => y.kind != .param id) }))
    { w with d.cmd.xfers := w.d.cmd.xfers.filter (fun x => x.cmd.id != id) }

/-- Complete a pending effect that will not take place; what it did ahead of its sync point is taken back (R97). -/
def failEffect (e : Effect) (st det : Nat) (w : Work) : Work :=
  report e.cmd { status := st, detail := det } (dropXfer e.cmd.id (undoEarly e.cmd.id (dropCurve e w)))

/-- The members of a bundle complete with BUNDLE_ABORTED and this DETAIL. -/
def failMembers (b : Bundle) (det : Nat) (w : Work) : Work := each b.members (fun e => failEffect e stAborted det) w

/-- Take a bundle out of the list. -/
def removeBundle (id : Nat) (w : Work) : Work :=
  { w with d.cmd.bundles := w.d.cmd.bundles.filter (fun b => b.id != id) }

/-- Replace a bundle. -/
def putBundle (b : Bundle) (w : Work) : Work :=
  { w with d.cmd.bundles := w.d.cmd.bundles.map (fun x => if x.id == b.id then b else x) }

/-- A committed bundle: staging or armed. -/
def committed (b : Bundle) : Bool := b.state == .staging || b.state == .armed

/-- Abort a committed bundle: the commit and every member complete with BUNDLE_ABORTED (R122, R125, R126, R128). -/
def abortCommitted (b : Bundle) (det : Nat) (w : Work) : Work :=
  removeBundle b.id (report b.commit { status := stAborted, detail := det } (failMembers b det w))

/-- Doom an open bundle: its accepted members complete with BUNDLE_ABORTED, and so will the later ones and the commit, with
the same DETAIL (R117; for a fault log 134). -/
def doomBundle (b : Bundle) (det : Nat) (w : Work) : Work :=
  putBundle { b with state := .doomed, members := [], doom := det } (failMembers b det w)

/-- A higher-ranked decision in a cycle from D to C-1 aborts every armed bundle (R31, R126). -/
def abortArmed (w : Work) : Work :=
  each (w.d.cmd.bundles.filter (fun b => b.state == .armed)) (fun b => abortCommitted b 0x04) w

/-- A pending effect names this axis (kind 1 servo, 2 stepper), as its axis or as the object of a PARAM_WRITE. -/
def namesAxis (kind a : Nat) (w : Work) (e : Effect) : Bool :=
  opObject e.op e.ps == some (kind, a) ||
  (if kind == 1 then (opServos e.op e.ps w).contains a && !(e.op == 0x047 && fld (prm e.ps 1) 0 10 == 0x3FF)
  else (opSteppers e.op e.ps w).contains a && !(e.op == 0x0C3 && fld (prm e.ps 1) 0 12 == 0xFFF))

/-- The commands a fault leaves to complete OK (spec/06 R216, spec/08 R287). -/
def faultExempt (kind op : Nat) : Bool :=
  if kind == 1 then [0x041, 0x046, 0x047, 0x082].contains op else [0x0C3, 0x082].contains op

/-- The servo axes whose planned state a command changes: those its motion or gearing names, or the one whose limits it
writes. -/
def plansOf (op : Nat) (ps : List Word) (w : Work) : List Nat :=
  if [0x040, 0x041, 0x042, 0x043, 0x044, 0x045, 0x046, 0x047, 0x080, 0x081, 0x082].contains op then opServos op ps w
  else match opObject op ps with
    | some (1, a) => if (prm ps 2).toNat < 0x104 then [a] else []
    | _ => []

/-- The plan of an object has changed, for the graft set of the cycle (spec/13 R421): a servo axis, or a stepper from 0x1000
on. -/
def planMade (x : Nat) (w : Work) : Work :=
  if w.d.grf.newPlans.contains x then w else { w with d.grf.newPlans := w.d.grf.newPlans ++ [x] }

/-- The planner units a member uses; those of a slow-class effect are stepper plans. -/
def effUnits (e : Effect) : Nat := if e.slow then 0 else e.units
def effPlans (e : Effect) : Nat := if e.slow then e.units else 0

/-- A command outside a bundle that changes, from sync point t on, the plan of a member's axis makes the planner stage that
member again; own is the bundle the command itself belongs to (R124). -/
def restage (own : Option Nat) (t : Word) (op : Nat) (ps : List Word) (w : Work) : Work :=
  let l := plansOf op ps w
  { w with d.cmd.bundles := w.d.cmd.bundles.map (fun (b : Bundle) =>
      let n := ((b.members.filter (fun m => (opServos m.op m.ps w).any (fun a => l.contains a)
        || (match opObject m.op m.ps with | some (1, a) => l.contains a | _ => false))).map effUnits).sum
      if b.state == .staging && some b.id != own && n != 0 then { b with redo := b.redo ++ [(t, n)] } else b) }

/-- The staging flags of Table 4.11: those of PLN and of the step generators while units and plans of theirs are to be
staged; the other units take their part with the commit (R120). -/
def stageFlags (units plans : Nat) : Nat := 11 + (if units == 0 then 16 else 0) + (if plans == 0 then 4 else 0)

/-- Every part of the bundle that counts at c was staged at the last sync point (R122, R124). -/
def stagedFor (b : Bundle) (c : Word) : Bool := b.flagsAtSync == 31 && b.redoAtSync.all (fun t => atOrPast t c)

end Sys2Proof.Machine
end

