-- ==== Sys2Proof/Machine/Profile.lean ====
section
/-! DEFINITION. The profile mathematics of the planner: constant-jerk segments, ramps, stop legs, rest-to-rest profiles
and re-planning (spec/05 R148 to R153, R156, R160). Arithmetic is exact but for square roots, taken to 2^-80 (log 20). -/

namespace Sys2Proof.Machine

/-- Square root of a rational to 2^-80, from below (log 20). -/
def rsqrt (q : ℚ) : ℚ := (ratSqrtScaled 80 q : ℚ) / (2 ^ 80 : Nat)

/-- The sign of a rational. -/
def qsgn (q : ℚ) : ℚ := if q < 0 then -1 else if 0 < q then 1 else 0

/-- The state after a time t within a segment of jerk j (spec/05 R148). -/
def segAt (s : PState) (j t : ℚ) : PState :=
  { p := s.p + s.v * t + s.a * t * t / 2 + j * t * t * t / 6
    v := s.v + s.a * t + j * t * t / 2
    a := s.a + j * t }

/-- The state at the end of a list of segments. -/
def segsEnd (s : PState) : List Seg → PState
  | [] => s
  | g :: r => segsEnd (segAt s g.jerk g.dur) r

/-- The state at time t from the start of a list of segments, and the number of the segment then running; after the
last one, velocity and acceleration as at its end and the position carried on. -/
def segsAt (s : PState) (t : ℚ) : List Seg → PState × Nat
  | [] => ({ s with p := s.p + s.v * t }, 0)
  | g :: r => if t < g.dur then (segAt s g.jerk t, g.tag) else segsAt (segAt s g.jerk g.dur) (t - g.dur) r

/-- Total duration of a list of segments. -/
def segsDur (l : List Seg) : ℚ := (l.map (fun g => g.dur)).sum

/-- Instant at which a profile ends. -/
def profEnd (f : Prof) : ℚ := f.t0 + segsDur f.segs

/-- The state of a profile at instant t, and the segment number; at and after the end the target exactly (R150). -/
def profAt (f : Prof) (t : ℚ) : PState × Nat :=
  match f.target with
  | some x => if profEnd f ≤ t then ({ p := x }, 0) else segsAt f.start (t - f.t0) f.segs
  | none => segsAt f.start (t - f.t0) f.segs

/-- Segments of zero duration dropped. -/
def segsTrim (l : List Seg) : List Seg := l.filter (fun g => decide (0 < g.dur))

/-- A change of velocity from (v0, a0) to v1 with zero acceleration at the end, acceleration limit a, jerk j: at most
three segments, the middle one absent when the limit is not reached (spec/05 ramp table, stop leg). The tags are those
of the three segments. -/
def velChange (v0 a0 v1 a j : ℚ) (t1 t2 t3 : Nat) : List Seg :=
  let vs := v0 + a0 * |a0| / (2 * j)
  let s : ℚ := if vs ≤ v1 then 1 else -1
  let b := s * a0
  let dv := s * (v1 - v0)
  let ap2 := j * dv + b * b / 2
  let peak := rsqrt ap2
  if a < b then
    let t2d := (dv - (b * b - a * a) / (2 * j) - a * a / (2 * j)) / a
    segsTrim [⟨-s * j, (b - a) / j, t1⟩, ⟨0, t2d, t2⟩, ⟨-s * j, a / j, t3⟩]
  else if peak ≤ a then
    segsTrim [⟨s * j, (peak - b) / j, t1⟩, ⟨-s * j, peak / j, t3⟩]
  else
    let t2d := (dv - (2 * a * a - b * b) / (2 * j)) / a
    segsTrim [⟨s * j, (a - b) / j, t1⟩, ⟨0, t2d, t2⟩, ⟨-s * j, a / j, t3⟩]

/-- The stop leg from a state: velocity and acceleration to zero together (spec/05 R152). -/
def stopLeg (s : PState) (d j : ℚ) : List Seg := velChange s.v s.a 0 d j 5 6 7

/-- The position at which a stop leg comes to rest. -/
def stopPoint (s : PState) (d j : ℚ) : ℚ := (segsEnd s (stopLeg s d j)).p

/-- Ramp of the acceleration toward a limit it exceeds, and of the velocity toward VMAX (spec/05 R152, leg 0). -/
def leg0 (s : PState) (l : Lim) : List Seg :=
  let rising := decide (0 ≤ s.v * s.a)
  let lim := if rising then l.amax else l.dmax
  let g1 : List Seg := if lim < |s.a| then [⟨-(qsgn s.a) * l.jmax, (|s.a| - lim) / l.jmax, 0⟩] else []
  let s1 := segsEnd s g1
  if l.vmax < |s1.v| then g1 ++ velChange s1.v s1.a (qsgn s1.v * l.vmax) l.dmax l.jmax 0 0 0 else g1

/-- Bisection: the largest x in [lo, hi] for which ok holds, ok being true at lo and falling once (n halvings). -/
def bisect (ok : ℚ → Bool) : Nat → ℚ → ℚ → ℚ
  | 0, lo, _ => lo
  | n + 1, lo, hi => let m := (lo + hi) / 2; if ok m then bisect ok n m hi else bisect ok n lo m

/-- The first of x, x/2, x/4, … for which ok holds, within n halvings. -/
def firstFit (ok : ℚ → Bool) : Nat → ℚ → ℚ
  | 0, x => x
  | n + 1, x => if ok x then x else firstFit ok n (x / 2)

/-- The largest value up to x for which ok holds, to a relative 2^-100, ok being true near 0 and falling once (spec/05
R149 asks 2^-40; log 20). -/
def largest (ok : ℚ → Bool) (x : ℚ) : ℚ :=
  let lo := firstFit ok 300 x
  bisect ok 100 lo (2 * lo)

/-- The velocity left when the acceleration has been brought to zero by the jerk alone: a ramp to a velocity raises it up to
there and lowers it beyond (spec/05 R152). -/
def velCoast (v a j : ℚ) : ℚ := v + a * |a| / (2 * j)

/-- The forward profile over distance dist ≥ 0 from a state (v0, a0) moving in the positive direction, with peak
velocity pv: start ramp, cruise, final ramp; the start ramp uses AMAX while it raises the speed and DMAX while it lowers it
(spec/05 R149, R152). -/
def forwardWith (v0 a0 dist : ℚ) (l : Lim) (pv : ℚ) : List Seg × ℚ :=
  let up := velChange v0 a0 pv (if velCoast v0 a0 l.jmax ≤ pv then l.amax else l.dmax) l.jmax 1 2 3
  let dn := velChange pv 0 0 l.dmax l.jmax 5 6 7
  let d := (segsEnd ⟨0, v0, a0⟩ up).p + (segsEnd ⟨0, pv, 0⟩ dn).p
  let cruise := if 0 < pv then (dist - d) / pv else 0
  (segsTrim (up ++ [⟨0, cruise, 4⟩] ++ dn), d)

/-- The peak velocity of a rest-to-rest profile whose ramps both reach their limits: the root of S_acc + S_dec = L (spec/05
R149). -/
def peakClosed (dist : ℚ) (l : Lim) : ℚ :=
  let c := 1 / l.amax + 1 / l.dmax
  let b := (l.amax + l.dmax) / l.jmax
  (rsqrt (b * b + 8 * dist * c) - b) / (2 * c)

/-- The forward profile: the largest peak velocity whose ramps fit the distance, in closed form where both ramps reach their
limits from rest, else by bisection. A peak below VMAX has no segment 4; a distance that is the stopping distance takes the
stop leg (spec/05 R149, R152). -/
def forward (v0 a0 dist : ℚ) (l : Lim) : List Seg :=
  let stop := stopLeg { p := 0, v := v0, a := a0 } l.dmax l.jmax
  if dist ≤ (segsEnd { p := 0, v := v0, a := a0 } stop).p then stop
  else if (forwardWith v0 a0 dist l l.vmax).2 ≤ dist then (forwardWith v0 a0 dist l l.vmax).1
  else
    let cl := peakClosed dist l
    let pv := if v0 = 0 ∧ a0 = 0 ∧ max (l.amax * l.amax) (l.dmax * l.dmax) / l.jmax ≤ cl then cl
      else largest (fun x => decide ((forwardWith v0 a0 dist l x).2 ≤ dist)) l.vmax
    (forwardWith v0 a0 dist l pv).1.filter (fun g => g.tag != 4)

/-- Every jerk of a list of segments inverted (spec/05 Table 5.3, negative motion). -/
def segsNeg (l : List Seg) : List Seg := l.map (fun g => { g with jerk := -g.jerk })

/-- A rest-to-rest profile over a signed distance (spec/05 R149). -/
def restToRest (dist : ℚ) (l : Lim) : List Seg :=
  if dist = 0 then [] else if 0 < dist then forward 0 0 dist l else segsNeg (forward 0 0 (-dist) l)

/-- Re-plan from any state to a target (spec/05 R152, R153). -/
def replan (s0 : PState) (target : ℚ) (l : Lim) : List Seg :=
  let g0 := leg0 s0 l
  let s := segsEnd s0 g0
  let stop := stopLeg s l.dmax l.jmax
  let ps := (segsEnd s stop).p
  let dir := if s.v = 0 then qsgn s.a else qsgn s.v
  if (target - ps) * dir < 0 then g0 ++ stop ++ restToRest (target - ps) l
  else
    let dist := target - s.p
    if 0 < dir ∨ (dir = 0 ∧ 0 ≤ dist) then g0 ++ (if dir = 0 ∧ dist = 0 then [] else forward s.v s.a dist l)
    else g0 ++ segsNeg (forward (-s.v) (-s.a) (-dist) l)

/-- A velocity ramp from any state to a commanded velocity, under AMAX while it raises the speed and DMAX while it lowers it;
where the velocity is, or is carried by the acceleration, on the other side of zero, the ramp passes through standstill
(R160). -/
def velRamp (s0 : PState) (v1 : ℚ) (l : Lim) : List Seg :=
  let g0 := leg0 s0 { l with vmax := |s0.v| + |v1| + l.vmax }
  let s := segsEnd s0 g0
  let vc := velCoast s.v s.a l.jmax
  if s.v * v1 < 0 ∨ vc * v1 < 0 then
    g0 ++ stopLeg s l.dmax l.jmax ++ velChange 0 0 v1 l.amax l.jmax 1 2 3
  else g0 ++ velChange s.v s.a v1 (if v1 ≠ 0 ∧ |vc| ≤ |v1| then l.amax else l.dmax) l.jmax 1 2 3

/-- A profile scaled along a line: jerks and start state multiplied by c (spec/05 R156). -/
def profScale (f : Prof) (base c : ℚ) (target : ℚ) : Prof :=
  { t0 := f.t0
    start := { p := base + c * f.start.p, v := c * f.start.v, a := c * f.start.a }
    segs := f.segs.map (fun g => { g with jerk := c * g.jerk })
    target := some target }

end Sys2Proof.Machine
end

