-- ==== Sys2Proof/Machine/Planner.lean ====
section
/-! DEFINITION. The motion planner: what each motion command does to an axis' plan at its effect sync point, coordinated
moves, soft start, gearing, the travel guard and the set-point records (spec/05 R139 to R179, R647). -/

namespace Sys2Proof.Machine

/-- The instant of the present sync point in seconds (R139). -/
def syncTime (w : Work) : ℚ := (w.d.pln.tick : ℚ) / 64000

/-- A parameter of a servo axis by number. -/
def plnParam (x : PlnAxis) (n : Nat) : Word := tabGet 0 x.params n

/-- An F32 parameter of a servo axis as a rational. -/
def plnQ (x : PlnAxis) (n : Nat) : ℚ := fWordVal (plnParam x n)

/-- The limits of Table 5.2 in force. -/
def axisLim (x : PlnAxis) : Lim := { vmax := plnQ x 0x100, amax := plnQ x 0x101, dmax := plnQ x 0x102, jmax := plnQ x 0x103 }

/-- The soft-start limits (R164). -/
def ssLim (x : PlnAxis) : Lim := { vmax := plnQ x 0x106, amax := plnQ x 0x107, dmax := plnQ x 0x107, jmax := plnQ x 0x108 }

/-- The state of the profile part at instant t. -/
def profPart (prof : Option Prof) (hold : ℚ) (t : ℚ) : PState × Nat :=
  match prof with
  | some f => profAt f t
  | none => ({ p := hold }, 0)

/-- The planned state at instant t: profile part plus the geared part (R140, R168). -/
def planAt (x : PlnAxis) (rate : Nat) (t : ℚ) : PState :=
  let s := (profPart x.prof x.hold t).1
  match x.gear with
  | some g => { p := s.p + (g.pos.floor : ℚ), v := s.v + g.step / cycleTime rate, a := s.a + g.accel }
  | none => s

/-- A planned position on the POS36 circle. -/
def posWord (q : ℚ) : Word := wdI q.floor

/-- The unwrapped position of a POS36 target seen from a planned position (R151). -/
def unwrap (p : ℚ) (target : Word) : ℚ := (p.floor : ℚ) + (modDiff target (posWord p) : ℚ)

/-- End the coordination an axis takes part in (R159): the others keep their profiles, PLN_PATH_BROKEN is logged. -/
def breakCoord (a : Nat) (w : Work) : Work :=
  match (getPln a w).coord with
  | none => w
  | some g =>
    let ms := (w.d.pln.coords.filter (fun c => c.first == g)).flatMap (fun c => c.members.map (fun m => m.1))
    let w := each ms (fun m w => modPln m (fun x => { x with coord := none }) w) w
    let w := { w with d.pln.coords := w.d.pln.coords.filter (fun c => c.first != g) }
    logEvent .pln g 2 g w

/-- Put a profile in force on an axis. -/
def setProf (a : Nat) (k : MKind) (s : PState) (segs : List Seg) (target : Option ℚ) (w : Work) : Work :=
  modPln a (fun x => { x with
    kind := k, prof := some { t0 := syncTime w, start := s, segs := segs, target := target }, ssActive := false }) w

/-- Position move to an unwrapped target (R151, R152, R163). A move admitted before the gearing that it finds at its effect
ends it (log 129). -/
def moveTo (a : Nat) (target : ℚ) (w : Work) : Work :=
  let x := getPln a w
  let s := planAt x w.d.sys.rate (syncTime w)
  let w := setProf a .posMove s (replan s target (axisLim x)) (some target) w
  modPln a (fun x => { x with gear := none, moveTarget := some target, commanded := some (posWord target) }) w

/-- MOVE_ABS at its effect (R151). -/
def fxMoveAbs (a : Nat) (target : Word) (w : Work) : Work :=
  let x := getPln a w
  if x.kind == .disabled then w
  else moveTo a (unwrap (planAt x w.d.sys.rate (syncTime w)).p target) (breakCoord a w)

/-- The origin of a MOVE_REL: the target of the position move in force, else the integer part of the plan (R151). -/
def relOrigin (x : PlnAxis) (rate : Nat) (t : ℚ) : ℚ :=
  match x.kind, x.moveTarget with
  | .posMove, some g => g
  | _, _ => ((planAt x rate t).p.floor : ℚ)

/-- MOVE_REL at its effect; on a geared slave it is superposed, its target one of the superposed part alone (R151, R169). -/
def fxMoveRel (a : Nat) (dist : Word) (w : Work) : Work :=
  let x := getPln a w
  if x.kind == .disabled then w
  else
    match x.gear with
    | some _ =>
      let s := (profPart x.prof x.hold (syncTime w)).1
      let target := s.p + (dist.toInt : ℚ)
      modPln a (fun x => { x with
        moveTarget := some target
        prof := some { t0 := syncTime w, start := s, segs := replan s target (axisLim x), target := some target } }) w
    | none => moveTo a (relOrigin x w.d.sys.rate (syncTime w) + (dist.toInt : ℚ)) (breakCoord a w)

/-- MOVE_VEL at its effect (R160). -/
def fxMoveVel (a : Nat) (v : Word) (w : Work) : Work :=
  let x := getPln a w
  if x.kind == .disabled then w
  else
    let w := breakCoord a w
    let s := planAt x w.d.sys.rate (syncTime w)
    let vq := fWordVal v
    let w := setProf a .velMove s (velRamp s vq (axisLim x)) none w
    modPln a (fun x => { x with gear := none, moveTarget := none, velCmd := vq }) w

/-- A stop leg under given deceleration and jerk; it ends gearing, and the rest point becomes the commanded position
(R161, R163). -/
def stopAxis (a : Nat) (k : MKind) (d j : ℚ) (w : Work) : Work :=
  let x := getPln a w
  let s := planAt x w.d.sys.rate (syncTime w)
  let segs := stopLeg s d j
  let rest := (segsEnd s segs).p
  let w := setProf a k s segs (some rest) w
  modPln a (fun x => { x with gear := none, moveTarget := none, commanded := some (posWord rest) }) w

/-- The straight-line coordinated move axis a belongs to (R156). -/
def lineOf (a : Nat) (w : Work) : Option Coord :=
  match (getPln a w).coord with
  | none => none
  | some g => w.d.pln.coords.find? (fun c => c.first == g && c.straight)

/-- The smallest over the members of limit * L / |delta| (R156). -/
def lineLim (c : Coord) (f : PlnAxis → ℚ) (w : Work) : ℚ :=
  ((c.members.filter (fun m => m.2.2 != 0)).map (fun m => f (getPln m.1 w) * c.len / |m.2.2|)).foldl
    (fun r v => if r = 0 then v else min r v) 0

/-- Every member of a straight-line move stops together along the line (R158). -/
def stopLine (c : Coord) (quick : Bool) (w : Work) : Work :=
  let t := syncTime w
  let s := (profAt c.path t).1
  let d := lineLim c (fun x => plnQ x (if quick then 0x104 else 0x102)) w
  let j := lineLim c (fun x => plnQ x (if quick then 0x105 else 0x103)) w
  let segs := stopLeg s d j
  let rest := (segsEnd s segs).p
  let path : Prof := { t0 := t, start := s, segs := segs, target := some rest }
  let w := each c.members (fun m w =>
    let k := m.2.2 / c.len
    let fin := m.2.1 + k * rest
    modPln m.1 (fun x => { x with
      kind := if quick then .quickStop else .stop, prof := some (profScale path m.2.1 k fin), moveTarget := none,
      ssActive := false, commanded := some (posWord fin) }) w) w
  { w with d.pln.coords := w.d.pln.coords.map (fun e => if e.first == c.first then { e with path := path } else e) }

/-- One axis stops by its own limits (R158, R161). -/
def stopOwn (quick : Bool) (a : Nat) (w : Work) : Work :=
  let x := getPln a w
  stopAxis a (if quick then .quickStop else .stop) (plnQ x (if quick then 0x104 else 0x102))
    (plnQ x (if quick then 0x105 else 0x103)) w

/-- The axes that still take part in the coordinated move of axis a; axis a alone where it is in none. -/
def coordWith (a : Nat) (w : Work) : List Nat :=
  match (getPln a w).coord with
  | none => [a]
  | some g => ((w.d.pln.coords.filter (fun c => c.first == g)).flatMap (fun c => c.members.map (fun m => m.1))).filter
      (fun m => (getPln m w).coord == some g)

/-- STOP or QUICK_STOP at its effect: a member of a coordinated move stops with the others, along the line in the form of
R156, each by its own limits in that of R157 (R158, R161, R647). -/
def fxStop (a : Nat) (quick : Bool) (w : Work) : Work :=
  if (getPln a w).kind == .disabled then w
  else
    match lineOf a w with
    | some c => stopLine c quick w
    | none => each (coordWith a w) (stopOwn quick) w

/-- The plan of an axis ends: disable or fault (R163, R215). -/
def plnDisable (a : Nat) (w : Work) : Work :=
  let x := getPln a w
  if x.kind == .disabled then w
  else
    let s := planAt x w.d.sys.rate (syncTime w)
    let resting := match x.prof with | some f => decide (profEnd f ≤ syncTime w) && f.target.isSome | none => true
    let cut := x.kind == .velMove || x.gear.isSome || ((x.kind == .stop || x.kind == .quickStop) && !resting)
    let w := breakCoord a w
    modPln a (fun x => { x with
      kind := .disabled, prof := none, hold := s.p, gear := none, moveTarget := none, ssActive := false,
      commanded := if cut then some (posWord s.p) else x.commanded, overSpeed := false }) w

/-- AXIS_ENABLE in the planner: soft start from the measured position to the commanded one (R164). -/
def plnEnable (a : Nat) (w : Work) : Work :=
  let x := getPln a w
  if x.kind != .disabled then w
  else
    let p := x.hold
    let far := match x.commanded with
      | some c => decide (((plnParam x 0x109).toNat : ℚ) < |unwrap p c - p|)
      | none => false
    match x.commanded, far with
    | some c, false =>
      let target := unwrap p c
      modPln a (fun x => { x with
        kind := .hold, ssActive := target != p, moveTarget := none
        prof := if target = p then none else
          some { t0 := syncTime w, start := { p := p }, segs := restToRest (target - p) (ssLim x), target := some target } }) w
    | c, _ =>
      let w := modPln a (fun x => { x with
        kind := .hold, prof := none, ssActive := false, moveTarget := none, commanded := some (posWord p) }) w
      when_ c.isSome (logEvent .pln a 4 0) w

/-- Duration of a re-plan under a lowered velocity limit (R157). -/
def planDur (s : PState) (target : ℚ) (l : Lim) (v : ℚ) : ℚ := segsDur (replan s target { l with vmax := v })

/-- MOVE_COORD at its effect: the straight line when every member rests, else equal arrival times (R156, R157). -/
def fxMoveCoord (axes : List Nat) (targets : List Word) (w : Work) : Work :=
  if axes.any (fun a => (getPln a w).kind == .disabled) then w
  else
    let w := each axes breakCoord w
    let t := syncTime w
    let st := axes.map (fun a => planAt (getPln a w) w.d.sys.rate t)
    let goals := (st.zip targets).map (fun x => unwrap x.1.p x.2)
    let first := axes.headD 0
    let deltas := (st.zip goals).map (fun x => x.2 - x.1.p)
    let mark := fun (a : Nat) (g : ℚ) (f : Prof) (w : Work) => modPln a (fun x => { x with
      kind := .posMove, prof := some f, moveTarget := some g, commanded := some (posWord g), ssActive := false,
      coord := some first }) w
    if st.all (fun s => s.v = 0 ∧ s.a = 0) then
      let len := rsqrt ((deltas.map (fun x => x * x)).sum)
      if len = 0 then each (axes.zip goals) (fun x w => moveTo x.1 x.2 w) w
      else
        let c : Coord := {
          first := first, straight := true, len := len,
          members := (axes.zip (st.zip deltas)).map (fun x => (x.1, x.2.1.p, x.2.2)) }
        let l : Lim := {
          vmax := lineLim c (fun x => plnQ x 0x100) w, amax := lineLim c (fun x => plnQ x 0x101) w,
          dmax := lineLim c (fun x => plnQ x 0x102) w, jmax := lineLim c (fun x => plnQ x 0x103) w }
        let path : Prof := { t0 := t, segs := restToRest len l, target := some len }
        let w := each (c.members.zip goals) (fun x w => mark x.1.1 x.2 (profScale path x.1.2.1 (x.1.2.2 / len) x.2) w) w
        { w with d.pln.coords := w.d.pln.coords ++ [{ c with path := path }] }
    else
      let durs := (axes.zip (st.zip goals)).map (fun x => segsDur (replan x.2.1 x.2.2 (axisLim (getPln x.1 w))))
      let longest := durs.foldl max 0
      let w := each (axes.zip (st.zip goals)) (fun x w =>
        let l := axisLim (getPln x.1 w)
        let s := x.2.1
        let g := x.2.2
        let v := if segsDur (replan s g l) = longest ∨ (s.v = 0 ∧ s.a = 0 ∧ g = s.p) then l.vmax
          else largest (fun v => decide (longest < planDur s g l v)) l.vmax
        mark x.1 g { t0 := t, start := s, segs := replan s g { l with vmax := v }, target := some g } w) w
      let c : Coord := { first := first, straight := false, members := axes.map (fun a => (a, 0, 0)) }
      { w with d.pln.coords := w.d.pln.coords ++ [c] }

/-- A straight line one of whose axes is planned anew alone is no line any more; its members go on each to its target
(R154, log 130). -/
def unline (a : Nat) (w : Work) : Work :=
  match lineOf a w with
  | some c => { w with d.pln.coords := w.d.pln.coords.map (fun e => if e.first == c.first then { e with straight := false } else e) }
  | none => w

/-- A position move in flight: on a geared slave, a superposed one (R169). -/
def posInFlight (a : Nat) (w : Work) : Bool :=
  let x := getPln a w
  (x.kind == .posMove || x.kind == .geared) && x.moveTarget.isSome
    && (match x.prof with | some f => decide (syncTime w < profEnd f) | none => false)

/-- A move is in flight on axis a: a position or velocity move that has not ended (spec/04 Table 4.2). -/
def moveInFlight (a : Nat) (w : Work) : Bool := posInFlight a w || (getPln a w).kind == .velMove

/-- A class-B limit write re-plans the move in flight to the same target under the new limits (R154). -/
def fxReplan (a : Nat) (w : Work) : Work :=
  let x := getPln a w
  let s := if x.gear.isSome then (profPart x.prof x.hold (syncTime w)).1 else planAt x w.d.sys.rate (syncTime w)
  if posInFlight a w then
    match x.moveTarget with
    | some g => modPln a (fun x => { x with
        prof := some { t0 := syncTime w, start := s, segs := replan s g (axisLim x), target := some g } }) (unline a w)
    | none => w
  else if x.kind == .velMove then
    modPln a (fun x => { x with
      prof := some { t0 := syncTime w, start := s, segs := velRamp s x.velCmd (axisLim x), target := none } }) w
  else w

/-! Gearing (R166 to R175). -/

/-- The master an object word names: bit [31] selects an axis' feedback (spec/05, Electronic gearing). -/
def masterOf (o : Word) : Master :=
  { kind := objKind o, index := if objKind o == 1 then fld o 0 31 else fld o 0 32, feedback := objKind o == 1 && bit o 31 }

/-- Signed 24-bit numerator, unsigned 24-bit denominator. -/
def gearN (v : Word) : Int := sgn24 v
where
  sgn24 (v : Word) : Int := (BitVec.ofNat 24 v.toNat).toInt
def gearD (v : Word) : Nat := fld v 0 24

/-- Extrapolation of a measured master: m(i) + h (m(i) - m(i-1)), the samples newest first (R47, R166, spec/04 R111). -/
def extrapolate (l : List Word) (h : Nat) : Word :=
  match l with
  | a :: b :: _ => a + wdI ((h : Int) * modDiff a b)
  | [a] => a
  | [] => 0

/-- Units of 15.625 microseconds of the advance into the sync point k ahead of the present one (spec/02 R42). -/
def unitsInto (k : Nat) (w : Work) : Nat :=
  match w.d.phase.rateNext with
  | some (n, r) => if modDiff (nccPlus k w) n ≤ 0 then unitsOf w.d.sys.rate else unitsOf r
  | none => unitsOf w.d.sys.rate

/-- VM_RATE governing the advance into the sync point k ahead (spec/02 R44). -/
def vmRateInto (k : Nat) (w : Work) : Word :=
  (w.d.phase.vmDirect.foldl (fun r e => if atOrPast (nccPlus k w) e.1 then e.2 else r) w.d.phase.vmInForce)

/-- The exact virtual master k sync points ahead (spec/02 R42, R47). -/
def vmAhead (k : Nat) (w : Work) : Word :=
  (List.range k).foldl (fun v i => v + wdI ((vmRateInto (i + 1) w).toInt * (unitsInto (i + 1) w : Int))) w.d.phase.vm

/-- The master value predicted for the sync point k ahead of the present one, k = 0 or more (R166); an axis set-point
master is read from its plan at that instant. -/
def masterAt (m : Master) (k : Nat) (w : Work) : Word :=
  let t := syncTime w + ((List.range k).map (fun i => (unitsInto (i + 1) w : ℚ) / 64000)).sum
  match m.kind with
  | 0 => vmAhead k w
  | 3 => extrapolate ((getFp m.index w).hist.drop (2 - k)) (max 2 k)
  | _ =>
    if m.feedback then
      let x := getCe m.index w
      let ahead := if x.started then 2 else 1
      if k ≤ ahead then extrapolate (x.posHist.drop (ahead - k)) 2 else extrapolate x.posHist (2 + (k - ahead))
    else posWord (planAt (getPln m.index w) w.d.sys.rate t).p

/-- A rational truncated to a denominator, toward minus infinity (R175). -/
def truncDen (q : ℚ) (d : Nat) : ℚ := ((q * d).floor : ℚ) / d

/-- F(x) of a ratio ramp (R174). -/
def rampF (r : RatioRamp) (x : ℚ) : ℚ :=
  (2 * r.r * r.no * r.dn * x + ((r.nn * r.do_ - r.no * r.dn : Int) : ℚ) * x * x) / (2 * r.r * r.do_ * r.dn)

/-- The slave position of a ratio change at a master position (R174). -/
def rampPos (r : RatioRamp) (m : Word) : ℚ :=
  let x : ℚ := (r.sigma * modDiff m r.mc : Int)
  let s : ℚ := r.sigma
  if x < 0 then r.sc + s * (r.no : ℚ) / r.do_ * x
  else if x ≤ r.r then (if r.r = 0 then r.sc else r.sc + s * rampF r x)
  else
    let sr := if r.r = 0 then r.sc else truncDen (r.sc + s * rampF r r.r) r.dn
    sr + s * (r.nn : ℚ) / r.dn * (x - r.r)

/-- The ramp is in progress: 0 ≤ x ≤ R with R not zero. -/
def rampIn (g : Gear) : Bool :=
  match g.ramp with
  | some r => let x := r.sigma * modDiff g.m r.mc; decide (0 ≤ x) && decide (x ≤ (r.r : Int)) && r.r != 0
  | none => false

/-- Advance a gear to the master value m (R167, R172 to R175): the carried fraction goes to the new denominator at x = 0, and
again at x = R (R175). With it, the pending ratio change that took effect. -/
def gearStep (g : Gear) (m : Word) : Gear × Option RatioPend :=
  let old := g.pos
  let g := { g with ramp := g.ramp.map (fun (r : RatioRamp) =>
    if r.sigma = 0 then { r with sigma := (modDiff m r.mc).sign } else r) }
  let (g, done) := match g.pend with
    | some p =>
      if 0 ≤ p.sigma * modDiff m p.mc then
        let sc := match g.ramp with
          | some r => rampPos r p.mc
          | none => g.pos + (g.n : ℚ) / g.d * (modDiff p.mc g.m : ℚ)
        let sc := truncDen sc p.d
        ({ g with
            pend := none, n := p.n, d := p.d,
            ramp := some { mc := p.mc, sigma := p.sigma, r := p.r, sc := sc, no := g.n, do_ := g.d, nn := p.n, dn := p.d } },
         some p)
      else (g, none)
    | none => (g, none)
  let g := match g.ramp with
    | some r =>
      let g := { g with pos := rampPos r m }
      if 2 ^ 34 ≤ r.sigma * modDiff m r.mc then { g with ramp := none } else g
    | none => { g with pos := g.pos + (g.n : ℚ) / g.d * (modDiff m g.m : ℚ) }
  ({ g with m := m, step := g.pos - old }, done)

/-- GEAR_ENGAGE of a servo slave at its effect: ratio 0 ramping to N/D from the master value of this sync point, any
motion superposed as a stop leg (R168). The direction of the ramp is that of the master's first movement from there
(log 110). -/
def fxGearEngage (a : Nat) (m : Master) (n : Int) (d r : Nat) (w : Work) : Work :=
  let x := getPln a w
  if x.kind == .disabled then w
  else
    let w := breakCoord a w
    let s := planAt x w.d.sys.rate (syncTime w)
    let l := axisLim x
    let mv := masterAt m 0 w
    let g : Gear := {
      master := m, n := n, d := d, m := mv,
      ramp := some { mc := mv, sigma := 0, r := r, sc := 0, no := 0, do_ := 1, nn := n, dn := d } }
    let segs := stopLeg s l.dmax l.jmax
    modPln a (fun x => { x with
      kind := .geared, gear := some g, moveTarget := none, ssActive := false, hold := s.p
      prof := if s.v = 0 ∧ s.a = 0 then none else
        some { t0 := syncTime w, start := s, segs := segs, target := some (segsEnd s segs).p } }) w

/-- GEAR_DISENGAGE at its effect (R170). -/
def fxGearDisengage (a : Nat) (w : Work) : Work :=
  let x := getPln a w
  if x.gear.isNone then w else stopAxis a .stop (plnQ x 0x102) (plnQ x 0x103) w

/-! The set-point records (R142, R143, R150, R162, R171). -/

/-- The stopping point of the axis lies at or beyond a travel limit in its direction of motion (R162). A stopping point is
computed with square roots, so a limit is met within 2^-30 counts (log 20). -/
def travelHit (x : PlnAxis) (s : PState) : Bool :=
  let sp := stopPoint s (plnQ x 0x102) (plnQ x 0x103)
  let lo : ℚ := (plnParam x 0x10A).toInt
  let hi : ℚ := (plnParam x 0x10B).toInt
  let base : ℚ := ((posWord s.p).toInt : ℚ) - (s.p.floor : ℚ)
  let q := sp + base
  let e : ℚ := 1 / (2 ^ 30 : Nat)
  let atGoal := fun (lim : ℚ) => x.kind == .posMove && (match x.moveTarget with | some g => decide (g + base = lim) | none => false)
  (s.v != 0) && ((decide (0 < s.v) && (decide (hi + e < q) || (decide (hi - e ≤ q) && !atGoal hi)))
    || (decide (s.v < 0) && (decide (q < lo - e) || (decide (q ≤ lo + e) && !atGoal lo))))

/-- The planned state at the sync point after the present one, geared motion going on as in the last cycle. -/
def planNext (x : PlnAxis) (w : Work) : PState :=
  let tc := cycleTime w.d.sys.rate
  let s := planAt x w.d.sys.rate (syncTime w + tc)
  match x.gear with
  | some g => { s with p := s.p + g.step }
  | none => s

/-- The travel guard of one moving axis at a sync point (R162): a stop leg that began only at the next sync point would pass
the limit, so the leg begins now. -/
def travelGuard (a : Nat) (w : Work) : Work :=
  let x := getPln a w
  let active := x.kind != .disabled && x.kind != .stop && x.kind != .quickStop && bit (plnParam x 0x10C) 0
  if !active then w
  else
    if travelHit x (planAt x w.d.sys.rate (syncTime w)) || travelHit x (planNext x w) then
      logEvent .pln a 1 0 (stopAxis a .stop (plnQ x 0x102) (plnQ x 0x103) (breakCoord a w))
    else w

/-- Every servo axis with a plan, a record or parameters. -/
def plnKnown (w : Work) : List Nat := w.d.pln.axes.map (fun kv => kv.1)

/-- End of profiles reached at the present sync point: soft start done, a stop at rest holds, and the axis leaves its
coordinated move, which is over when its last member ends. -/
def settleAxis (a : Nat) (w : Work) : Work :=
  let x := getPln a w
  match x.prof with
  | none => w
  | some f =>
    match f.target with
    | none => w
    | some g =>
      if syncTime w < profEnd f then w
      else
        let w := modPln a (fun x => { x with
          prof := none, hold := g, ssActive := false, coord := none
          kind := match x.kind with | .stop | .quickStop => .hold | k => k }) w
        match x.coord with
        | some c =>
          if (plnKnown w).any (fun b => (getPln b w).coord == some c) then w
          else { w with d.pln.coords := w.d.pln.coords.filter (fun e => e.first != c) }
        | none => w

/-- A position as a set-point record holds it, in 2^-16 counts: of a running profile one of the two values within 2^-16
counts of the exact one, which of them being free (R143, log 20). -/
def jitter (run : Bool) (q : ℚ) (w : Work) : ℚ × Work :=
  let n := (q * 65536).floor
  if run && decide ((n : ℚ) ≠ q * 65536) then
    let (k, w) := freeN 2 w
    (((n + (k : Int) : Int) : ℚ) / 65536, w)
  else ((n : ℚ) / 65536, w)

/-- The four words of a set-point record (spec/05 Table 5.1). -/
def spWords (x : SetPoint) : List Word := [x.pos, wd (put 0 16 x.frac), fToWord x.vel, fToWord x.acc]

/-- The set-point record of axis a for the sync point after the present one (R139, R142). The flags of the gearing that is
in force at the present one are kept for PLN_AXn_STATE (R179). -/
def plnSample (a : Nat) (w : Work) : Work :=
  let x := getPln a w
  let tc := cycleTime w.d.sys.rate
  let t := syncTime w + tc
  let (s, _) := profPart x.prof x.hold t
  let run := match x.prof with | some f => decide (t < profEnd f) || f.target.isNone | none => false
  let (g, done) : Option Gear × Option RatioPend := match x.gear with
    | some g => let (k, d) := gearStep g (masterAt g.master 1 w); (some k, d)
    | none => (none, none)
  let gv : ℚ := match g with | some k => k.step / tc | none => 0
  let ga : ℚ := match x.gear, g with | some o, some k => (k.step - o.step) / (tc * tc) | _, _ => 0
  let shown := match x.gear with | some o => (o.pend.isSome, rampIn o) | none => (false, false)
  let g := g.map (fun k => { k with accel := ga })
  let gp : ℚ := match g with | some k => (k.pos.floor : ℚ) | none => 0
  let (p, w) := jitter run (s.p + gp) w
  let v := s.v + gv
  let fast := x.gear.isSome && decide (plnQ x 0x100 < |v|)
  let w := when_ (fast && !x.overSpeed) (logEvent .pln a 3 0) w
  let w := setPln a { (getPln a w) with
    gear := g, overSpeed := fast, lastVel := v, pendShown := shown.1, rampShown := shown.2 } w
  let w := setSp a {
    pos := posWord p, frac := ((p - (p.floor : ℚ)) * 65536).floor.toNat, vel := fRat v, acc := fRat (s.a + ga) } w
  match done with
  | some pd =>
    restage none (nccPlus 1 w) 0x081 [wd (2 ^ 32 + a)]
      (addEffect { cmd := pd.cmd, op := 0x081, time := .at (nccPlus 1 w), ps := [] } (planMade a w))
  | none => w

/-- Length of the gearing chain above an axis, so that masters are sampled before their slaves. -/
def gearDepth : Nat → Nat → Work → Nat
  | 0, _, _ => 0
  | f + 1, a, w =>
    match (getPln a w).gear with
    | some g => if g.master.kind == 1 && !g.master.feedback then 1 + gearDepth f g.master.index w else 1
    | none => 0

/-- The sequencers' work at a sync point: profiles that ended, the travel guard, then every record, masters first
(R142, R155). -/
def plnSync (w : Work) : Work :=
  let l := plnKnown w
  let w := each l travelGuard (each l settleAxis w)
  let l := (l.map (fun a => (gearDepth 256 a w, a))).mergeSort (fun x y => x.1 < y.1 || (x.1 == y.1 && x.2 ≤ y.2))
  each (l.map (fun x => x.2)) plnSample w

/-- Motion kind code of PLN_AXn_STATE (Table 5.5). -/
def mkCode : MKind → Nat
  | .hold => 0 | .posMove => 1 | .velMove => 2 | .stop => 3 | .quickStop => 4 | .geared => 5 | .disabled => 6

/-- PLN_AXn_STATE (Table 5.5). -/
def plnStateWord (a : Nat) (w : Work) : Word :=
  let x := getPln a w
  let seg := (profPart x.prof x.hold (syncTime w)).2
  wd (put 16 8 (x.coord.getD 0) + putB 15 x.coord.isSome + putB 14 x.pendShown + putB 13 x.rampShown + putB 12 x.ssActive
    + put 8 4 seg + put 0 4 (mkCode x.kind))

/-! What commands make of the plans of servo axes, at their effect and where it is predicted. -/

/-- Values with their numbers. -/
def paramPairs (ps : List Word) : List (Nat × Word) := ((ps.drop 2).zipIdx).map (fun p => ((prm ps 2).toNat + p.2, p.1))

/-- Planner and energy parameters of a servo axis take their values, and its move in flight is planned anew under new limits
(spec/05 R154); with it, whether what the governor knows of the axis changes. -/
def fxServoParam (i : Nat) (vs : List (Nat × Word)) (w : Work) : Bool × Work :=
  let w := modPln i (fun x => { x with params := vs.foldl (fun t v => tabSet 0 t v.1 v.2) x.params }) w
  if vs.any (fun v => (0x100 ≤ v.1 && v.1 ≤ 0x103) || (0x110 ≤ v.1 && v.1 ≤ 0x117)) && moveInFlight i w then
    (true, fxReplan i w)
  else (false, w)

/-- What a command does to the plans of servo axes. -/
def fxServo (op : Nat) (ps : List Word) (w : Work) : Work :=
  let a := fld (prm ps 1) 0 10
  let o := prm ps 1
  match op with
  | 0x040 => plnEnable a w
  | 0x041 => plnDisable a w
  | 0x042 => fxMoveAbs a (prm ps 2) w
  | 0x043 => fxMoveRel a (prm ps 2) w
  | 0x044 => fxMoveVel a (prm ps 2) w
  | 0x045 => fxMoveCoord (coordAxes o) (ps.drop 1) w
  | 0x046 => fxStop a false w
  | 0x047 => if a == 0x3FF then each (plnKnown w) (fun x => fxStop x true) w else fxStop a true w
  | 0x080 => if objKind o == 1 then
      fxGearEngage (objIndex o) (masterOf (prm ps 2)) (gearN (prm ps 3)) (gearD (prm ps 4)) (prm ps 5).toNat w else w
  | 0x082 => if objKind o == 1 then fxGearDisengage (objIndex o) w else w
  | _ => w

/-- The planner's part of a command of either kind. -/
def planStep (op : Nat) (ps : List Word) (w : Work) : Work :=
  if op == 0x180 then
    (if objKind (prm ps 1) == 1 && (prm ps 2).toNat < 0x200 then (fxServoParam (objIndex (prm ps 1)) (paramPairs ps) w).2 else w)
  else fxServo op ps w

/-- Units of 15.625 microseconds from the present sync point to the one h ahead (spec/02 R42). -/
def unitsTo (h : Nat) (w : Work) : Nat :=
  match w.d.phase.rateNext with
  | some (n, r) => let k := min h (modDiff n w.d.phase.ncc).toNat; k * unitsOf w.d.sys.rate + (h - k) * unitsOf r
  | none => h * unitsOf w.d.sys.rate

/-- The plans w seen from a coming sync point c of the device as it stands, o: its instant and its virtual master. -/
def atCycle (o : Work) (c : Word) (w : Work) : Work :=
  let h := (modDiff c o.d.phase.ncc).toNat
  { w with d.pln.tick := o.d.pln.tick + unitsTo h o, d.phase.vm := vmAhead h o }

end Sys2Proof.Machine
end

