-- ==== Sys2Proof/Machine/Phase.lean ====
section
/-! DEFINITION. The machine phase: its sources, their samples, changes of source, the phase of coming sync points, the
evaluation of phased effects and the decision of bundles (spec/02 R41 to R51, R655, spec/04 R107, R111, R122, R125). -/

namespace Sys2Proof.Machine

/-- CPM as used: 0 is used as 1 (spec/02 Table 2.3). -/
def cpmUsed (c : Nat) : Nat := max 1 c

/-- The fields of SYS_PHSRC of a word (spec/02 Table 2.2). -/
def phSrcOf (v : Word) : PhSrc := { kind := fld v 0 3, port := fld v 3 3, axis := fld v 6 8 }

/-- The word of SYS_PHSRC. -/
def phSrcWord (s : PhSrc) : Word := wd (put 6 8 s.axis + put 3 3 s.port + put 0 3 s.kind)

/-- The phase source in force is the virtual master. -/
def phIsVm (w : Work) : Bool := w.d.phase.src.kind == 0

/-- The phase of the sync point k ahead, k from 0 to 2 (R47); where the sample of the present sync point has still to be
taken, the samples before it are used. -/
def mphAhead (k : Nat) (w : Work) : Word :=
  let f := w.d.phase
  if phIsVm w then vmAhead k w
  else
    let newest := if f.sampled then 2 else 1
    if k ≤ newest then extrapolate (f.hist.drop (newest - k)) 2 else extrapolate f.hist (2 + (k - newest))

/-- A coming change of mode that is known of: its cycle, its slow-group length, and whether it can still be aborted
(spec/11 R364, R366, R371). -/
def slowAfter (w : Work) : Option (Nat × Nat × Bool) :=
  let len := fun (m : Nat) => 2 ^ (tabGet {} w.d.trl.modes m).slowl
  match w.d.trl.heal with
  | some h => some (h.at_.toNat, len h.mode, false)
  | none =>
    match w.d.trl.prop with
    | some p => if p.revision.isNone then some (p.n.toNat, len p.mode, !p.agreed) else none
    | none => none

/-- Length of the slow group that ends at c (the S of R111, since that group carries the effect; log 106). -/
def slowAt (c : Nat) (w : Work) : Nat :=
  match slowAfter w with
  | some (n, s, _) => if n < c then s else slowS w
  | none => slowS w

/-- What a slow-group start at c is a multiple of: while a proposal can still be aborted, a start of both modes (R364). -/
def slowUnit (c : Nat) (w : Work) : Nat :=
  match slowAfter w with
  | some (n, s, open_) => if n ≤ c then (if open_ then max s (slowS w) else s) else slowS w
  | none => slowS w

/-- A cycle may carry a slow effect (R78, R364). -/
def slowStart (c : Nat) (w : Work) : Bool := c % slowUnit c w == 0

/-- The decision cycle C - S - 1 of the start at c lies at or before the present cycle (spec/04 R111). -/
def slowDecided (c : Nat) (w : Work) : Bool := decide (c ≤ nccN w + slowAt c w + 1)

/-- MPHS of a slow-group start c decided in the present cycle (spec/04 R111). -/
def mphSlow (c : Nat) (w : Work) : Word :=
  if phIsVm w then vmAhead (c - nccN w) w else extrapolate w.d.phase.hist (c - nccN w)

/-- The slow-group starts whose decision cycle is the present one, two at most (spec/04 R111). -/
def slowCandidates (w : Work) : List Nat :=
  ((List.range 16).map (fun i => nccN w + 2 + i)).filter (fun c =>
    slowStart c w && c == nccN w + slowAt c w + 1)

/-- The latest I/O start of an IO_WRITE whose effect is placed at slow-group start c; div is the largest divider of its
nodes (spec/01 R23). -/
def ioLatest (div : Nat) (c : Word) (w : Work) : Word :=
  wd (((List.range 129).map (fun i => c.toNat + i)).find? (fun k => k % (slowUnit k w * max 1 div) == 0)
    |>.getD c.toNat)

/-- The cycle an effect placed at c reports: for an IO_WRITE the latest start of its points. -/
def effNcc (e : Effect) (c : Word) (w : Work) : Word := if e.op == 0x100 then ioLatest e.carried c w else c

/-- A TBL_RELOAD (spec/08 R267). -/
def tblReload (op : Nat) (ps : List Word) : Bool := op == 0x180 && objKind (prm ps 1) == 0 && prm ps 2 == 0x300

/-- Where an effect whose bound is c takes place: a TBL_RELOAD outside a bundle at the first slow-group start after it, at
which the copies swap (spec/08 R267, spec/03 R84). -/
def placedAt (e : Effect) (c : Word) (w : Work) : Word :=
  if tblReload e.op e.ps then
    wd (((List.range 17).map (fun i => c.toNat + 1 + i)).find? (fun k => slowStart k w) |>.getD (c.toNat + 1))
  else c

/-- The movement of a measured source into the present sync point, in phase units without loss (R45). -/
def phaseCount (c : Word) (cpm : Nat) (f : PhaseSt) : PhaseSt :=
  let num : Int := modDiff c f.sample * 2 ^ 24 + f.rem
  let inc := num / (cpmUsed cpm : Int)
  let m := f.hist.headD f.mphm + wdI inc
  { f with sample := c, rem := (num - inc * cpmUsed cpm).toNat, hist := (m :: f.hist).take 80, mphm := m }

/-- A servo axis whose position counts as a sample in the present cycle: in the mode, computed, and not missing for
three cycles (R45, R655). -/
def phAxisSample (a : Nat) (w : Work) : Option Word :=
  let x := getCe a w
  if w.d.ce.order.contains a && x.started && !x.missHold then x.posHist.head? else none

/-- The sample of a source at the present sync point; none where it is held (R655). -/
def phSampleOf (s : PhSrc) (w : Work) : Option Word :=
  if s.kind == 1 then some (getFp s.port w).scnt else phAxisSample s.axis w

/-- A servo axis that will be computed in the present cycle, so that it brings a sample. -/
def phAxisComes (a : Nat) (w : Work) : Bool := modeOn w && w.d.ce.order.contains a

/-- The new source takes its reference sample; the virtual master takes the phase as its value (R46). An axis brings it with
its compute. -/
def phReference (w : Work) : Work :=
  let f := w.d.phase
  if f.src.kind == 0 then { w with d.phase.vm := f.mph, d.phase.refPending := false }
  else if f.src.kind == 1 then { w with d.phase.sample := (getFp f.src.port w).scnt, d.phase.refPending := false }
  else
    match phAxisSample f.src.axis w with
    | some c => { w with d.phase.sample := c, d.phase.refPending := false }
    | none => { w with d.phase.refPending := true }

/-- At a change: M(E) is MPH(E), the samples before it move with it, and the remainder is cleared (R46). The measured
phase of the old source at E is the newest of the list. -/
def phRebase (w : Work) : Work :=
  let f := w.d.phase
  let off := f.mph - f.hist.headD f.mph
  { w with d.phase := { f with hist := f.hist.map (fun m => m + off), mphm := f.mph, rem := 0 } }

/-- Count the movement into the present sync point with a source; a held source counts none, and the first sample of an axis
that had none is its reference (R655, log 132). -/
def phCountWith (s : PhSrc) (cpm : Nat) (w : Work) : Work :=
  let f := w.d.phase
  match phSampleOf s w with
  | some c => { w with d.phase := phaseCount c cpm { f with
      sample := if f.refPending then c else f.sample, refPending := false } }
  | none => { w with d.phase := phaseCount f.sample cpm f }

/-- A newly selected axis that brought no sample in this cycle: its reference is its last sample, where it has one (R655);
else its first sample to come is (log 132). -/
def phRefHold (w : Work) : Work :=
  let f := w.d.phase
  if f.refPending && f.src.kind == 2 then
    match (getCe f.src.axis w).posHist.head? with
    | some c => { w with d.phase.sample := c, d.phase.refPending := false }
    | none => w
  else { w with d.phase.refPending := false }

/-- Of the effects that reach their phase, in order of target, those a share of cap units serves, used of them taken
already: their commands, the units now used, and how many are carried on (spec/04 R107). -/
def serveDue (cap used : Nat) (due : List Effect) : List Nat × Nat × Nat :=
  (due.mergeSort (fun x y => decide (modDiff x.target y.target ≤ 0))).foldl (fun (acc : List Nat × Nat × Nat) e =>
    if e.units == 0 || (acc.2.2 == 0 && acc.2.1 + e.units ≤ cap) then (e.cmd.id :: acc.1, acc.2.1 + e.units, acc.2.2)
    else (acc.1, acc.2.1, acc.2.2 + 1)) ([], used, 0)

/-- A cycle that carries commands on: OVSPD and one event (spec/04 R107). -/
def carriedOver (n : Nat) (w : Work) : Work :=
  if n = 0 then w else logEvent .cmd 0 8 (put 0 16 n) { w with d.cmd.ovspd := true }

/-- Evaluate the phased effects of network rate: those reached at sync point k + 2 (R48), at most eight planner units of
them, in order of target, the rest carried into the next cycle (spec/04 R107). -/
def evalNetwork (w : Work) : Work :=
  let at2 := nccPlus 2 w
  let m := mphAhead 2 w
  let due := w.d.cmd.effects.filter (fun e => match e.time with
    | .phase p => !e.slow && atOrPast m p
    | _ => false)
  let (ok, used, carried) := serveDue 8 w.d.cmd.phNow due
  let fire := due.filter (fun e => ok.contains e.cmd.id)
  let w := { w with d.cmd.phNow := used, d.cmd.effects := w.d.cmd.effects.map (fun e =>
    if (match e.time with | .phase _ => true | _ => false) && !e.slow && ok.contains e.cmd.id
    then { e with time := .at (placedAt e at2 w) } else e) }
  carriedOver carried (each fire (fun e w => restage none at2 e.op e.ps (reportEff e.cmd (placedAt e at2 w) w)) w)

/-- Evaluate the phased effects of slow class at the slow-group starts decided in this cycle (spec/04 R111): at most 32
stepper plans for a start, in order of target, the rest carried into the next slow group (spec/08 R270). -/
def evalSlow (w : Work) : Work :=
  each (slowCandidates w) (fun c w =>
    let m := mphSlow c w
    let due := w.d.cmd.effects.filter (fun e => match e.time with | .phase p => e.slow && atOrPast m p | _ => false)
    let (ok, used, carried) := serveDue 32 0 due
    let hit := fun e : Effect => (match e.time with | .phase _ => true | _ => false) && e.slow && ok.contains e.cmd.id
    let fire := w.d.cmd.effects.filter hit
    let w := { w with
      d.stp.phNow := used
      d.cmd.effects := w.d.cmd.effects.map (fun e => if hit e then { e with time := .at (wd c) } else e) }
    carriedOver carried (each fire (fun e w => reportEff e.cmd (effNcc e (wd c) w) w) w)) w

/-- Keep the coming values of VM_RATE in order of the sync point they govern first (R44). -/
def vmPush (j v : Word) (w : Work) : Work :=
  let l := w.d.phase.vmDirect
  { w with d.phase.vmDirect :=
      l.filter (fun e => modDiff e.1 j ≤ 0) ++ [(j, v)] ++ l.filter (fun e => 0 < modDiff e.1 j) }

/-- The VM_RATE value a PARAM_WRITE carries (spec/02 Table 2.9). -/
def vmRateOf (e : Effect) : Option Word :=
  if e.op == 0x180 && objKind (prm e.ps 1) == 0 && prm e.ps 2 == 0x10 then some (prm e.ps 3) else none

/-- A phased VM_RATE that has just been evaluated governs from the advance after its sync point (R44). -/
def evalVmRate (before : List Effect) (w : Work) : Work :=
  each before (fun e w =>
    match vmRateOf e, (w.d.cmd.effects.find? (fun x => x.cmd.id == e.cmd.id)).map (fun x => x.time) with
    | some v, some (When.at j) => vmPush (j + 1) v w
    | _, _ => w) w

/-- The evaluations of a cycle, once the sample of its sync point is known (R48, spec/04 R111). -/
def phaseEval (w : Work) : Work :=
  let before := w.d.cmd.effects.filter (fun e => match e.time with | .phase _ => true | _ => false)
  evalVmRate before (evalSlow (evalNetwork w))

/-- Take the sample of the present sync point from an axis source, or the reference sample of one newly selected. -/
def phaseAxisStep (w : Work) : Work :=
  let f := w.d.phase
  if f.sampled then when_ f.refPending phReference w
  else
    match f.oldSrc with
    | some (s, c) =>
      let w := phCountWith s c w
      phaseEval (phReference (phRebase { w with d.phase.oldSrc := none, d.phase.sampled := true }))
    | none => phaseEval { phCountWith f.src f.cpm w with d.phase.sampled := true }

/-- The axis just computed is one whose position the phase waits for. -/
def phaseWaits (a : Nat) (w : Work) : Bool :=
  let f := w.d.phase
  (!f.sampled && (match f.oldSrc with
    | some (s, _) => s.kind == 2 && s.axis == a
    | none => f.src.kind == 2 && f.src.axis == a))
    || (f.sampled && f.refPending && f.src.axis == a)

/-- The compute of an axis has taken its position: the phase samples it where it is the source (R45). -/
def phaseOnCompute (a : Nat) (w : Work) : Work := when_ (phaseWaits a w) phaseAxisStep w

/-- The end of a cycle: what an axis source did not sample in it is held (R655). -/
def phaseCycleEnd (w : Work) : Work := phRefHold (when_ (!w.d.phase.sampled) phaseAxisStep w)

/-- A change of source or CPM in force at the present sync point, whose phase is known (R46). A source differs where any
field of its word does (log 133). -/
def phaseChange (src : PhSrc) (cpm : Nat) (w : Work) : Work :=
  let f := w.d.phase
  let w := { w with d.phase.src := src, d.phase.cpm := cpm }
  if src == f.src && cpmUsed cpm == cpmUsed f.cpm then w
  else if f.sampled then phReference (phRebase w)
  else
    let old := f.oldSrc.getD (f.src, f.cpm)
    let w := { w with d.phase.oldSrc := some old }
    when_ (src.kind == 0) (fun w => { w with d.phase.vm := f.mph }) w

/-- The phase at a new sync point: NCC and the counters are already advanced, u is the length of the cycle that ended in
units of 15.625 microseconds (R42, R44, R45, R47, R51). The virtual master advances whatever the source (R42, R50). An axis
that is not in the mode in force is held from here (R655). The evaluations follow the changes that take effect here. -/
def phaseSync (u : Nat) (w : Work) : Work :=
  let f := w.d.phase
  let due := f.vmDirect.filter (fun e => atOrPast w.d.phase.ncc e.1)
  let rate := due.foldl (fun _ e => e.2) f.vmInForce
  let vm := f.vm + wdI (rate.toInt * u)
  let w := { w with d.phase := { f with
    vmInForce := rate, vmDirect := f.vmDirect.filter (fun e => !atOrPast w.d.phase.ncc e.1),
    vmRate := f.vmNext.getD f.vmRate, vmNext := none, vm := vm } }
  let mph := if f.src.kind == 0 then vm else extrapolate (f.hist.drop 1) 2
  let w := { w with d.phase.mph := mph }
  if f.src.kind == 0 then
    { w with d.phase.mphm := vm, d.phase.hist := (vm :: f.hist).take 80, d.phase.sampled := true }
  else if f.src.kind == 1 || !phAxisComes f.src.axis w then { phCountWith f.src f.cpm w with d.phase.sampled := true }
  else { w with d.phase.sampled := false }

/-- SYS_MPHM takes the newest measured phase of the sync point (R51, log 32). -/
def phaseShow (w : Work) : Work := { w with d.phase.mphmShown := w.d.phase.mphm }

/-- The direct writes that take effect at this sync point (R46). -/
def phaseDirect (w : Work) : Work :=
  let f := w.d.phase
  let w := { w with d.phase.srcNext := none, d.phase.cpmNext := none }
  phaseChange (f.srcNext.getD f.src) (f.cpmNext.getD f.cpm) w

/-! Decision of bundles (spec/04 R121, R122). -/

/-- The commit sync point a staging bundle would be armed for in the present cycle, once the phase has its sample (R48). -/
def bundleDue (b : Bundle) (w : Work) : Option Word :=
  if b.state != .staging || !w.d.phase.sampled then none
  else if b.slow then
    let div := (b.members.map (fun e => e.carried)).foldl max 1
    ((slowCandidates w).find? (fun c => c % (slowUnit c w * div) == 0 && atOrPast (mphSlow c w) b.phase)).map wd
  else if atOrPast (mphAhead 2 w) b.phase then some (nccPlus 2 w) else none

/-- A commit decision falls in the present cycle (spec/04 R103). -/
def decisionCycle (w : Work) : Bool := w.d.cmd.decided || w.d.cmd.bundles.any (fun b => (bundleDue b w).isSome)

/-- Set EFF_KNOWN for the commit and every member (spec/04 R123). -/
def armReport (b : Bundle) (c : Word) (w : Work) : Work :=
  reportEff b.commit c (each b.members (fun e => reportEff e.cmd c) w)

/-- A heal or a mode switch has been decided in the present cycle (spec/01 R31). -/
def rankedNow (w : Work) : Bool :=
  w.d.trl.brkA || w.d.trl.brkB || (match w.d.trl.prop with
    | some p => p.agreed && p.revision.isNone && p.n == nccPlus 2 w
    | none => false)

/-- Decide one bundle in its decision cycle (spec/04 R122, R123, spec/02 R44). -/
def decideBundle (b : Bundle) (w : Work) : Work :=
  match bundleDue b w with
  | none => w
  | some c =>
    let w := { w with d.cmd.decided := true }
    if stagedFor b c && rankedNow w then abortCommitted b 0x04 w
    else if stagedFor b c then
      let w := armReport b c (putBundle { b with state := .armed, c := c } w)
      each b.members (fun e w => restage (some b.id) c e.op e.ps
        (match vmRateOf e with | some v => vmPush (c + 1) v w | none => w)) w
    else abortCommitted b 0x02 w

/-- BUNDLE_DECISION: every committed bundle whose phase condition holds in the present cycle is decided. -/
def decideBundles (w : Work) : Work := each w.d.cmd.bundles decideBundle w

/-- BUNDLE_DECISION (spec/04 R122). -/
def execBundleDecision (s : State) : Host.Outcome State Fault Refusal := run decideBundles s

/-! Axis faults (spec/04 R125, spec/06 R216, spec/08 R287). -/

/-- One bundle when an axis of it faults (R125): open, it is doomed with DETAIL 0x02 (log 134); before its decision cycle, it
is aborted; from that cycle on, only the member fails. -/
def bundleFault (kind a code : Nat) (b : Bundle) (w : Work) : Work :=
  let hit := fun (e : Effect) => namesAxis kind a w e && !faultExempt kind e.op
  let alone := fun (w : Work) => putBundle { b with members := b.members.filter (fun e => !hit e) }
    (each (b.members.filter hit) (fun e => failEffect e stAxisFault code) w)
  if !(b.members.any (namesAxis kind a w)) then w
  else
    match b.state with
    | .open_ => doomBundle b 0x02 w
    | .doomed => w
    | .staging => if (bundleDue b w).any (stagedFor b) then alone w else abortCommitted b 0x02 w
    | .armed => alone w

/-- An axis has faulted: admitted commands that name it complete with AXIS_FAULT, its stops complete OK with no effect,
and its bundles follow R125 (spec/06 R216). FAULT_CLEAR and a stepper's re-enable are left to act on the fault. -/
def axisFaulted (kind a code : Nat) (w : Work) : Work :=
  let hit := fun e : Effect =>
    namesAxis kind a w e && e.op != 0x048 && !(kind == 2 && e.op == 0x0C0 && prm e.ps 2 == 1)
  let gone := w.d.cmd.effects.filter hit
  let w := { w with d.cmd.effects := w.d.cmd.effects.filter (fun e => !hit e) }
  let w := each gone (fun e w =>
    if faultExempt kind e.op then report e.cmd { status := stOK } (dropCurve e w)
    else failEffect e stAxisFault code w) w
  each w.d.cmd.bundles (bundleFault kind a code) w

/-! Direct writes of the phase registers (spec/02 R44, R46, R55). -/

/-- Write of SYS_PHSRC: kinds 3 to 7 are ignored as a whole (Table 2.2). -/
def phsrcWrite (v : Word) (w : Work) : Work :=
  if fromConfig w.d.sys.st && decide (fld v 0 3 ≤ 2) then { w with d.phase.srcNext := some (phSrcOf v) } else w

/-- Write of SYS_PHCPM. -/
def phcpmWrite (v : Word) (w : Work) : Work :=
  if fromConfig w.d.sys.st then { w with d.phase.cpmNext := some (fld v 0 24) } else w

/-- Write of SYS_VMRATE: in the register from the next sync point, governing from the advance into k + 3 (R44). -/
def vmrateWrite (v : Word) (w : Work) : Work :=
  if fromConfig w.d.sys.st then vmPush (nccPlus 3 w) v { w with d.phase.vmNext := some v } else w

/-- SYS_PHSRC_WRITE (R46). -/
def execSysPhsrcWrite (v : Word) (s : State) : Host.Outcome State Fault Refusal := run (phsrcWrite v) s

/-- SYS_PHCPM_WRITE (R46). -/
def execSysPhcpmWrite (v : Word) (s : State) : Host.Outcome State Fault Refusal := run (phcpmWrite v) s

/-- SYS_VMRATE_WRITE (R44). -/
def execSysVmrateWrite (v : Word) (s : State) : Host.Outcome State Fault Refusal := run (vmrateWrite v) s

end Sys2Proof.Machine
end

