-- ==== Sys2Proof/Machine/Cascade.lean ====
section
/-! DEFINITION. The cascade engines: one axis compute in binary32 with its tap calls, missing feedback, faults, the
integrators, region selection, and the trace and state words (spec/06 R180 to R223). -/

namespace Sys2Proof.Machine

/-- Address of word x of axis a's parameter page p (spec/06 R219). -/
def pageAddr (a p x : Nat) (w : Work) : Nat := w.d.ce.imgBase + 512 * a + 256 * p + x

/-- A word of the active parameter page. -/
def pageWord (a x : Nat) (w : Work) : Word := rd (pageAddr a (getCe a w).page x w) w

/-- A binary32 word of the active parameter page. -/
def pageF (a x : Nat) (w : Work) : F32 := fOfWord (pageWord a x w)

/-- The nominal cycle time of the rate in force as binary32 (spec/06 R183, T). -/
def tNom (w : Work) : F32 := fRat (cycleTime w.d.sys.rate)

/-- The time from the previous sync point to the present one (spec/06 R183, Tp); the nominal time before a second one. -/
def tPrev (w : Work) : F32 :=
  if w.d.phase.lastUnits = 0 then tNom w else fRat ((w.d.phase.lastUnits : ℚ) / 64000)

/-! Gather record fields (spec/06 Table 6.1). -/

def gPos (r : List Word) : Word := nth 0 r 0
def gVel (r : List Word) : F32 := fOfWord (nth 0 r 1)
def gTq (r : List Word) : F32 := fOfWord (nth 0 r 2)
def gValid (r : List Word) : Bool := bit (nth 0 r 3) 35
def gDrvFault (r : List Word) : Bool := bit (nth 0 r 3) 34
def gDrvEn (r : List Word) : Bool := bit (nth 0 r 3) 33
def gScatMiss (r : List Word) : Bool := bit (nth 0 r 3) 32
def gDrvCode (r : List Word) : Nat := fld (nth 0 r 3) 24 8

/-! Regions (spec/06 R191, R192). -/

/-- Region r admits a load class and a rate code. -/
def regAdmits (a r lc rc : Nat) (w : Work) : Bool :=
  let m := pageWord a (0x29 + 16 * r) w
  bit m 0 && bit m (4 + lc) && bit m (12 + rc)

/-- The region of a cycle: the present one with hysteresis, else the lowest that matches; false when none matched. -/
def selectRegion (a : Nat) (cur : Option Nat) (vabs : F32) (lc rc : Nat) (w : Work) : Nat × Bool :=
  let hys := pageF a 0x0C w
  let holds := match cur with
    | some c => regAdmits a c lc rc w && fLe (fSub (pageF a (0x27 + 16 * c) w) hys) vabs
        && fLe vabs (fAdd (pageF a (0x28 + 16 * c) w) hys)
    | none => false
  if holds then (cur.getD 0, true)
  else
    match (List.range 8).find? (fun r => regAdmits a r lc rc w && fLe (pageF a (0x27 + 16 * r) w) vabs
        && fLe vabs (pageF a (0x28 + 16 * r) w)) with
    | some r => (r, true)
    | none => (cur.getD 0, false)

/-- The effective gains of a region (spec/06 R193). -/
def effGains (a r : Nat) (w : Work) : EffGains :=
  let ff := pageF a 0x0D w
  { kp := pageF a (0x20 + 16 * r) w
    kvffe := fMul ff (pageF a (0x24 + 16 * r) w)
    kv := pageF a (0x22 + 16 * r) w
    kaffe := fMul ff (pageF a (0x25 + 16 * r) w)
    kobs := pageF a (0x26 + 16 * r) w }

/-- Clamp to integrator limits: the value, denormals as zero, and whether it was outside. -/
def clampF (lo hi x : F32) : F32 × Bool :=
  if fLt hi x then (fFlush hi, true) else if fLt x lo then (fFlush lo, true) else (fFlush x, false)

/-! Tap conversions (spec/06 R198). -/

/-- binary32 to Q1.35 with scale s: truncated toward minus infinity and saturated. -/
def toQ (s : Int) (x : F32) : Word × Bool :=
  let v := (fVal x * pow2 (35 - s)).floor
  if 2 ^ 35 ≤ v then (wdI (2 ^ 35 - 1), true) else if v < -(2 ^ 35) then (wdI (-(2 ^ 35)), true) else (wdI v, false)

/-- Q1.35 to binary32 with scale s, rounded to nearest even. -/
def ofQ (s : Int) (y : Word) : F32 := fRat ((y.toInt : ℚ) * pow2 (s - 35))

/-- TSCALE and TSCALE2 of a tap, signed 8-bit. -/
def tScale (a t : Nat) (w : Work) : Int := (BitVec.ofNat 8 (fld (pageWord a (0x12 + 4 * t) w) 0 8)).toInt
def tScale2 (a t : Nat) (w : Work) : Int := (BitVec.ofNat 8 (fld (pageWord a (0x12 + 4 * t) w) 8 8)).toInt

/-- The tap is enabled (Table 6.6, EN). -/
def tapEn (a t : Nat) (w : Work) : Bool := bit (pageWord a (0x10 + 4 * t) w) 13

/-! Faults (spec/06 Table 6.4, R214). -/

/-- The order in which the first fault of a cycle is named (R214). -/
def faultOrder : List Nat := [5, 6, 7, 2, 3, 1, 8, 4]

/-- Bit of a fault code in FMASK. -/
def faultBit (c : Nat) : Nat := 2 ^ (c - 1)

/-- A fault is among the bits. -/
def hasFault (m c : Nat) : Bool := (m >>> (c - 1)) % 2 == 1

/-- The first of the faults m in the order of R214, 0 when there is none. -/
def firstFault (m : Nat) : Nat := (faultOrder.find? (hasFault m)).getD 0

/-- Raise the faults of a cycle on axis a: FMASK always; FCODE, one CE_AXF and the axis' commands when it was not faulted
(R214 to R216). An AXF_LATE is logged when the cycle can raise no more faults, since one that comes before it in the
order takes its place in FCODE. -/
def raiseFaults (a m : Nat) (w : Work) : Work :=
  if m == 0 then w
  else
    let x := getCe a w
    if x.fcode != 0 then setCe a { x with
      fmask := x.fmask ||| m, fcode := if x.lateLog then firstFault (m ||| faultBit x.fcode) else x.fcode } w
    else
      let c := firstFault m
      let late := c == 4
      let w := setCe a { x with
        fcode := c, fmask := x.fmask ||| m, enabled := false, enableCycle := false, newFault := true, lateLog := late,
        ip := 0, iv := 0, satt := 0 } w
      let w := irq 17 (when_ (!late) (logEvent .ce a 1 c) w)
      axisFaulted 1 a c w

/-- The cycle can raise no more faults on axis a: an AXF_LATE still to be logged is logged with FCODE (R214). -/
def lateLogged (a : Nat) (w : Work) : Work :=
  let x := getCe a w
  when_ x.lateLog (fun w => logEvent .ce a 1 x.fcode (setCe a { x with lateLog := false } w)) w

/-! The compute. -/

/-- The engine that serves axis a and the axis' place in the order of the mode in force (spec/01 R24). -/
def ceEngine (a : Nat) (w : Work) : Option (Nat × Nat) :=
  let j := w.d.ce.order.idxOf a
  if j < w.d.ce.order.length then some (j % numCE w.variant, j) else none

/-- Every earlier axis of the engine is done in this cycle (spec/06 R205). -/
def ceTurn (a : Nat) (w : Work) : Bool :=
  match ceEngine a w with
  | none => false
  | some (e, j) =>
    modeOn w && ceClk e w && (getEng e w).comp.isNone
      && (List.range j).all (fun i => i % numCE w.variant != e || (getCe (nth 0 w.d.ce.order i) w).ready.isSome)

/-- Nanoseconds since the present sync point, by the free-running counter, held within a cycle's field. -/
def nsNow (w : Work) : Nat := min 124999 (4 * (w.d.ptm.frc - w.d.phase.frcSync).toNat)

/-- The 24 trace taps of a compute (spec/06 Table 6.5); time is tap 22. -/
def traceWords (c : Comp) (vc2 tpost tref : F32) (status time : Nat) : List Word :=
  [c.sp, fToWord c.spVel, fToWord c.spAcc, c.pfb, wdI c.e36, fToWord c.ep, fToWord c.ip, fToWord c.vff,
   fToWord c.vcmd, fToWord vc2, fToWord c.vraw, fToWord c.vfb, fToWord c.ev, fToWord c.iv, fToWord c.aff,
   fToWord c.td, fToWord c.tpre, fToWord tpost, fToWord tref, fToWord c.tqAct, wd c.region, wd status, wd time,
   fToWord c.kvev]

/-- The engine's state words 24 to 31 (spec/06 Table 6.7). -/
def stateWords (x : CeAxis) : List Word :=
  let (p, f) := x.posUsed.getD (0, 0)
  [fToWord x.ip, fToWord x.iv, p, wd f, fToWord x.vhat,
   wd (put 0 3 (x.region.getD 0) + put 3 1 x.page + put 4 2 x.missRun + putB 6 x.enabled + putB 7 (x.fcode != 0)
     + putB 8 x.tsat), fToWord x.satt, wd (put 12 8 x.fmask + put 0 8 x.fcode)]

/-- Bank address of words 24 to 31 of the state block of axis a. -/
def stateAddr (a : Nat) (w : Work) : Nat := w.d.ce.stBase + 64 * a + 24

/-- What an engine takes from the state block at the start of a compute (R222): the integrators, the position used, the
extrapolation velocity, the region, MISS_RUN, TSAT and SATT, each where an earlier compute left one. The page, the enable and
the faults, which commands change between computes, stand beside the block and go into it at every compute (log 143). -/
def ceLoad (a : Nat) (w : Work) : Work :=
  let x := getCe a w
  let b := fun k => rd (stateAddr a w + k) w
  let on := x.enabled && !x.enableCycle
  let was := x.posUsed.isSome
  setCe a { x with
    ip := if on then fOfWord (b 0) else x.ip, iv := if on then fOfWord (b 1) else x.iv
    satt := if on then fOfWord (b 6) else x.satt, tsat := if on then bit (b 5) 8 else x.tsat
    posUsed := x.posUsed.map (fun _ => (b 2, fld (b 3) 0 16)), vhat := if was then fOfWord (b 4) else x.vhat
    region := x.region.map (fun _ => fld (b 5) 0 3)
    missRun := if was && !x.tkoFirst then fld (b 5) 4 2 else x.missRun } w

/-- The bound T_ax of an axis in CE cycles (spec/06 R201) with the other budgets taken as both. -/
def tAxWith (a bOth : Nat) (w : Work) : Nat :=
  184 + (((List.range 4).filter (fun t => tapEn a t w)).map (fun t =>
    10 + cdiv (6 * (fld (pageWord a (0x11 + 4 * t) w) 0 10 + 3 * bOth)) 10)).sum

/-- Write the trace and state words and the scatter record, and leave the engine free (R182, R218, R222). The compute
time is measured, so it is a free value within 1,024 cycles (log 21). -/
def ceOutput (c : Comp) (x : CeAxis) (vc2 tpost tref : F32) (en bumpNow : Bool) (w : Work) : Work :=
  let a := c.axis
  let (time, w) := freeN 1024 w
  let status := putB 0 x.intClamp + putB 1 x.tsat + putB 2 c.extrap + putB 3 c.tapSat + putB 4 bumpNow
    + putB 5 (x.fcode != 0)
  let x := { x with
    fbExtrap := c.extrap, tapSat := c.tapSat, enableCycle := false, tapInit := false, tkoFirst := false,
    ready := if x.started then some { tref := tref, valid := true, enable := en, spPos := c.sp, spVel := c.spVel }
      else x.ready }
  let w := lateLogged a (setCe a x w)
  let w := wrs (w.d.ce.stBase + 64 * a) (traceWords c vc2 tpost tref status time ++ stateWords x) w
  match ceEngine a w with
  | some (e, _) => modEng e (fun g => { g with comp := none, peak := max g.peak time, endNow := nsNow w }) w
  | none => w

/-- A binary32 result that is a NaN or an infinity raises AXF_NUM. -/
def numFault (l : List F32) : Nat := if l.any fSpecial then faultBit 1 else 0

/-- What one integrator update forms before its limits: the bled value, or the candidate (R187, R188). -/
def candidate (val gain kx t tb integrand : F32) : F32 :=
  if fIsZero gain then fMul val (fSub 0x3F800000 (fDiv t tb)) else fAdd val (fMul (fMul (fMul kx gain) t) integrand)

/-- One integrator update from its candidate (R187, R188). Result: value, INT_CLAMP contribution. -/
def integrate (extrap : Bool) (sat : Int) (val gain integrand lo hi cand : F32) (was : Bool) : F32 × Bool :=
  if extrap then (val, was)
  else if !fIsZero gain && sat != 0 && ((sat == 1 && fLt 0 integrand) || (sat == -1 && fLt integrand 0)) then (val, true)
  else clampF lo hi cand

/-- The part of the test torque in force after a time of units of 15.625 microseconds; the ramps last 50 ms (spec/14
Table 14.11). None when the torque is back at 0. -/
def btNext (units : Nat) (b : BtRamp) : Option BtRamp :=
  let k := (units : ℚ) / 3200
  if b.down then (if b.level ≤ k then none else some { b with level := b.level - k })
  else some { b with level := min 1 (b.level + k) }

/-- After tap 3: the torque limit, the integrators, the saturation timer, faults and outputs (R183, R187 to R189). -/
def ceAfter3 (tpost : F32) (c : Comp) (w : Work) : Work :=
  let a := c.axis
  let x := getCe a w
  let tmax := pageF a 0x02 w
  let tmin := pageF a 0x03 w
  let bt := x.bt.bind (btNext w.d.phase.lastUnits)
  let held := x.bt.isSome
  let tpost := match bt with | some b => fRat (fVal b.tq * b.level) | none => if held then 0 else tpost
  let tref := fMin (fMax tpost tmin) tmax
  let sat : Int := if held then 0 else if fLt tmax tpost then 1 else if fLt tpost tmin then -1 else 0
  let t := tNom w
  let tb := pageF a 0x09 w
  let pc := candidate c.ip c.kip c.gains.kp t tb c.ep
  let vc := candidate c.iv c.kiv c.gains.kv t tb c.ev
  let (ip, k1) := integrate (c.extrap || held) sat c.ip c.kip c.ep (pageF a 0x05 w) (pageF a 0x04 w) pc false
  let (iv, k2) := integrate (c.extrap || held) sat c.iv c.kiv c.ev (pageF a 0x07 w) (pageF a 0x06 w) vc false
  let satt : F32 := if sat != 0 then fAdd x.satt (tPrev w) else 0
  let tm := pageF a 0x0A w
  let m := c.faults ||| numFault [c.gains.kvffe, c.gains.kaffe, c.spVel, c.spAcc, c.ep, c.vraw, c.vfb, c.tqAct, c.td, c.vcmd, c.vc2, c.ev, c.tpre,
      tpost, tref, ip, iv, satt, c.vff, c.aff, c.kvev, tmax, tmin, tb, tm, pageF a 0x04 w, pageF a 0x05 w, pageF a 0x06 w,
      pageF a 0x07 w, pageF a 0x08 w, c.gains.kp, c.gains.kv, c.gains.kobs, c.kip, c.kiv]
    ||| (if c.extrap || held then 0 else numFault [pc, vc])
    ||| (if !fIsZero tm && fLe tm satt then faultBit 8 else 0)
  let on := x.enabled
  let x := { x with
    bt := bt, ip := if on then ip else 0, iv := if on then iv else 0, satt := if on then satt else 0, tsat := sat != 0,
    intClamp := if c.extrap || held then x.intClamp else k1 || k2,
    region := some c.region, gains := some c.gains, swapped := false, regBump := x.regBump || c.bump }
  let w := setCe a x w
  let bad := m != 0 || !on
  let w := raiseFaults a m w
  ceOutput c (getCe a w) c.vc2 tpost (if bad then 0 else tref) (!bad) c.bump w

/-- Post a tap call on the engine's port and wait for its result (R197 to R199). -/
def cePost (t : Nat) (x1 x2 : F32) (c : Comp) (w : Work) : Work :=
  let a := c.axis
  match ceEngine a w with
  | none => w
  | some (e, _) =>
    let (q1, s1) := toQ (tScale a t w) x1
    let (q2, s2) := if t == 1 then toQ (tScale2 a t w) x2 else (0, false)
    let c := { c with tap := t, tapSat := c.tapSat || s1 || s2 }
    let fu := getFd (e % numFD w.variant) w
    modEng e (fun g => { g with
      comp := some c
      call := some {
        axis := a, tap := t, x1 := q1, x2 := q2, init := c.init, page := (getCe a w).page, region := c.region,
        rate := w.d.sys.rate, arrival := w.d.ptm.frc, arrivalCyc := fu.clk } }) w

def ceGo3 (c : Comp) (w : Work) : Work := if tapEn c.axis 3 w then cePost 3 c.tpre 0 c w else ceAfter3 c.tpre c w

/-- After tap 2: velocity error, rescaled velocity integrator, torque before the output tap (R183, R193, R194). -/
def ceAfter2 (vc2 : F32) (c : Comp) (w : Work) : Work :=
  let a := c.axis
  let x := getCe a w
  let ev := fSub vc2 c.vfb
  let g := c.gains
  let cand := x.gains.bind (fun o => if o == g && !x.swapped then none else some
    (fSub (fAdd (fAdd x.iv (fMul (fSub o.kv g.kv) ev)) (fMul (fSub o.kaffe g.kaffe) c.spAcc))
      (fMul (fSub o.kobs g.kobs) c.td)))
  let (iv, bump) := match cand with | some v => clampF (pageF a 0x07 w) (pageF a 0x06 w) v | none => (x.iv, false)
  let c := { c with faults := c.faults ||| numFault cand.toList }
  let w := when_ bump (logEvent .ce a 4 0) w
  let kvev := fMul g.kv ev
  let aff := fMul g.kaffe c.spAcc
  let tpre := fSub (fAdd (fAdd (fAdd kvev iv) aff) (pageF a 0x08 w)) (fMul g.kobs c.td)
  ceGo3 { c with vc2 := vc2, ev := ev, iv := iv, kvev := kvev, aff := aff, tpre := tpre, bump := c.bump || bump } w

def ceGo2 (c : Comp) (w : Work) : Work := if tapEn c.axis 2 w then cePost 2 c.vcmd 0 c w else ceAfter2 c.vcmd c w

/-- After tap 1: rescaled position integrator and velocity command (R183, R193, R194). -/
def ceAfter1 (td : F32) (c : Comp) (w : Work) : Work :=
  let a := c.axis
  let x := getCe a w
  let g := c.gains
  let cand := x.gains.bind (fun o => if o == g && !x.swapped then none else some
    (fAdd (fAdd x.ip (fMul (fSub o.kp g.kp) c.ep)) (fMul (fSub o.kvffe g.kvffe) c.spVel)))
  let (ip, bump) := match cand with | some v => clampF (pageF a 0x05 w) (pageF a 0x04 w) v | none => (x.ip, false)
  let c := { c with faults := c.faults ||| numFault cand.toList }
  let w := when_ bump (logEvent .ce a 4 0) w
  let vff := fMul g.kvffe c.spVel
  let vcmd := fAdd (fAdd (fMul g.kp c.ep) ip) vff
  ceGo2 { c with td := td, ip := ip, vff := vff, vcmd := vcmd, bump := bump } w

def ceGo1 (c : Comp) (w : Work) : Work := if tapEn c.axis 1 w then cePost 1 c.vfb c.tqAct c w else ceAfter1 0 c w
def ceAfter0 (vfb : F32) (c : Comp) (w : Work) : Work := ceGo1 { c with vfb := vfb } w
def ceGo0 (c : Comp) (w : Work) : Work := if tapEn c.axis 0 w then cePost 0 c.vraw 0 c w else ceAfter0 c.vraw c w

/-- The position used in a cycle and the velocity feedback (R186, R210 to R212): landed, or extrapolated with a fraction
whose last unit the spec leaves open (log 22). Result: position, fraction, vraw, missing. -/
def cePosition (a : Nat) (w : Work) : (Word × Nat × F32 × Bool) × Work :=
  let x := getCe a w
  let raw := fun (v : F32) => if x.tkoFirst then x.vhat else v
  let rec_ := if x.discarded || x.startDue then none else x.landed
  let missing := match rec_ with | some r => !gValid r | none => true
  let vsrc := bit (pageWord a 0x00 w) 0
  if missing then
    match x.posUsed with
    | some (p, f) =>
      let (k, w) := freeN 2 w
      let q := (fVal (fMul x.vhat (tPrev w)) * 65536).floor + (f : Int) + k
      let np := p + wdI (q / 65536)
      let nf := (q % 65536).toNat
      let diff : ℚ := ((modDiff np p : ℚ)) + ((nf : ℚ) - f) / 65536
      ((np, nf, raw (if vsrc then x.vhat else fDiv (fRat diff) (tPrev w)), true), w)
    | none =>
      let (p, w) := freeW w
      ((p, 0, raw (if vsrc then x.vhat else 0), true), w)
  else
    let r := rec_.getD []
    let p := gPos r
    let v := if vsrc then gVel r else
      match x.posUsed with
      | some (o, f) => fDiv (fRat ((modDiff p o : ℚ) - (f : ℚ) / 65536)) (tPrev w)
      | none => 0
    ((p, 0, raw v, false), w)

/-- The checks made for every present axis, enabled or not (Table 6.4, Always). -/
def ceAlways (a : Nat) (missing : Bool) (w : Work) : Nat :=
  let x := getCe a w
  let r := x.landed.getD []
  let comm := if missing && x.missRun == 2 then faultBit 5 else 0
  let node := if !missing && gDrvFault r then faultBit 6 else 0
  let lim := (pageWord a 0x0B w).toNat
  let jump := match x.posUsed with
    | some (o, _) => if !missing && lim != 0 && decide ((lim : Int) < |modDiff (gPos r) o|) then faultBit 7 else 0
    | none => 0
  comm ||| node ||| jump

/-- The compute of axis a in the present cycle (R183, R208, R209). While feedback is missing the spec states no measured
torque: a free finite value stands for it (log 23). -/
def ceCompute (a : Nat) (w : Work) : Work :=
  let ((pfb, pfr, vraw, missing), w) := cePosition a w
  let x := getCe a w
  let always := ceAlways a missing w
  let w := when_ (missing && x.missRun == 0) (logEvent .ce a 2 0) w
  let r := if missing then [] else x.landed.getD []
  let x := { x with
    started := true, startDue := false, posUsed := some (pfb, pfr), missThis := missing,
    missRun := if missing then min 2 (x.missRun + 1) else 0,
    missHold := missing && x.missRun == 2, posHist := (pfb :: x.posHist).take 6,
    vhat := if missing then x.vhat else vraw,
    aux := if missing then x.aux else nth 0 r 5, drvFault := if missing then x.drvFault else gDrvFault r }
  let w := setCe a x w
  let s := getSp a w
  let (fq, w) := freeW w
  let tq : F32 := if !missing then gTq r else if fSpecial (fOfWord fq) then 0 else fOfWord fq
  let c : Comp := {
    axis := a, pfb := pfb, pfr := pfr, vraw := vraw, tqAct := tq, extrap := missing, faults := always,
    sp := s.pos, fr := s.frac, spVel := s.vel, spAcc := s.acc, region := x.region.getD 0 }
  let w := phaseOnCompute a w
  let w := when_ ((!x.enabled || x.enableCycle) && (getPln a w).kind == .disabled)
    (modPln a (fun p => { p with hold := (pfb.toInt : ℚ) })) w
  if !x.enabled then
    let w := setCe a { x with
      bt := none, ip := 0, iv := 0, satt := 0, tsat := false, intClamp := false, region := none, regNone := false
      gains := none, swapped := false } w
    let w := raiseFaults a always w
    ceOutput { c with region := 0 } (getCe a w) 0 0 0 false false w
  else
    let c := if x.enableCycle then { c with sp := pfb, fr := 0, spVel := 0, spAcc := 0 } else c
    let w := when_ x.enableCycle (setSp a { pos := pfb }) w
    let e36 := modDiff c.sp pfb
    let follow := if decide (((fld (pageWord a 0x01 w) 0 24 : Nat) : Int) < |e36|) then faultBit 2 else 0
    let ep := fRat ((e36 : ℚ) + ((c.fr : ℚ) - pfr) / 65536)
    let (b, ok) := selectRegion a (if x.enableCycle then none else x.region) (fAbs c.spVel)
      (fld (pageWord a 0x0E w) 0 3) w.d.sys.rate w
    let w := when_ (!ok && !x.regNone) (logEvent .ce a 3 0) w
    let w := setCe a { (getCe a w) with regNone := !ok } w
    ceGo0 { c with
      e36 := e36, ep := ep, faults := always ||| follow, region := b, gains := effGains a b w,
      kip := pageF a (0x21 + 16 * b) w, kiv := pageF a (0x23 + 16 * b) w, init := x.tapInit } w

/-- The engine takes a tap's result: y as the unit delivered it, or 0 with AXF_DSP_BUDGET when the job was stopped
(R198, R200). -/
def ceTapResult (e : Nat) (y : Option Word) (w : Work) : Work :=
  match (getEng e w).comp with
  | none => w
  | some c =>
    let sc := if c.tap == 1 then tScale2 c.axis c.tap w else tScale c.axis c.tap w
    let v : F32 := match y with | some q => ofQ sc q | none => 0
    let c := if y.isNone then { c with faults := c.faults ||| faultBit 3 } else c
    let w := modEng e (fun g => { g with comp := none, call := none }) w
    match c.tap with
    | 0 => ceAfter0 v c w
    | 1 => ceAfter1 v c w
    | 2 => ceAfter2 v c w
    | _ => ceAfter3 v c w

/-! The registers of an axis (spec/06 Tables 6.12 to 6.14). -/

/-- CE_AXa_STAT of the present state (spec/06 Table 6.12). -/
def ceStatWord (a : Nat) (w : Work) : Word :=
  let x := getCe a w
  let k := w.d.ce.order.idxOf a
  let eng := if k < w.d.ce.order.length then k % numCE w.variant else 0
  wd (put 18 4 eng + putB 17 x.enabled + putB 16 (x.fcode != 0) + put 15 1 x.page + put 12 3 (x.region.getD 0)
    + putB 11 x.regNone + putB 10 x.intClamp + putB 9 x.tsat + putB 8 x.tapSat + putB 7 x.fbExtrap
    + put 5 2 (min 2 x.missRun) + putB 4 x.regBump + putB 3 x.dspInit)

/-- CE_AXa_FAULT (spec/06 Table 6.13). -/
def ceFaultWord (x : CeAxis) : Word := wd (put 12 8 x.fmask + put 0 8 x.fcode)

/-- CE_AXa_DL (spec/06 Table 6.14). -/
def ceDlWord (x : CeAxis) : Word := wd (put 17 17 x.startDl + put 0 17 x.resDl)

/-- The registers of spec/06 R223 take the values of the present sync point. -/
def ceShow (w : Work) : Work :=
  let l := (w.d.ce.axes.map (fun kv => kv.1) ++ w.d.ce.order).eraseDups
  each l (fun a w => modCe a (fun x => { x with
    statShown := ceStatWord a w, faultShown := ceFaultWord x, dlShown := ceDlWord x }) w) w

/-- The compute with the words of the axis page and of the state block read by the engine's MID: an uncorrectable one is
memory death (spec/16 R517, R518). -/
def ceReads (a : Nat) (w : Work) : Work :=
  let e := match ceEngine a w with | some (e, _) => e | none => 0
  guardReads (6 + e) [(pageAddr a (getCe a w).page 0 w, 256), (stateAddr a w, 8)] (fun w => ceCompute a (ceLoad a w)) w

/-- The engines go on in their order to axes whose START_DL has passed with no record (R205). -/
def ceNext (w : Work) : Work :=
  each w.d.ce.order (fun a w => when_ ((getCe a w).startDue && ceTurn a w) (ceReads a) w) w

/-- AXIS_COMPUTE: the engine takes its next axis, whose record has landed (R16, R205). -/
def axisCompute (a : Nat) (w : Work) : Work :=
  let x := getCe a w
  if ceTurn a w && !x.started && !x.startDue && x.landed.isSome then ceNext (ceReads a w) else w

/-- START_DEADLINE: the record has not landed, and the axis is computed with extrapolated feedback, at once or when the
engine is free (R205, R210). -/
def startDeadline (a : Nat) (w : Work) : Work :=
  let x := getCe a w
  if modeOn w && (ceEngine a w).isSome && !x.started && x.landed.isNone then
    ceNext (modCe a (fun x => { x with startDue := true }) w)
  else w

/-- RESULT_DEADLINE: the ready flag of an enabled axis is not set at RES_DL (R207, R215). -/
def resultDeadline (a : Nat) (w : Work) : Work :=
  let x := getCe a w
  match ceEngine a w with
  | none => w
  | some (e, _) =>
    if modeOn w && x.ready.isNone && x.enabled then
      raiseFaults a (faultBit 4) (modEng e (fun g => { g with late := true }) w)
    else w

/-- AXIS_COMPUTE of servo axis a (R183). -/
def execAxisCompute (a : Fin 256) (s : State) : Host.Outcome State Fault Refusal := run (axisCompute a) s

/-- START_DEADLINE of servo axis a (R205). -/
def execStartDeadline (a : Fin 256) (s : State) : Host.Outcome State Fault Refusal := run (startDeadline a) s

/-- RESULT_DEADLINE of servo axis a (R207). -/
def execResultDeadline (a : Fin 256) (s : State) : Host.Outcome State Fault Refusal := run (resultDeadline a) s

end Sys2Proof.Machine
end

