-- ==== Sys2Proof/Machine/FPort.lean ====
section
/-! DEFINITION. The local feedback ports FP0 to FP7: counting, Hall sectors, index, speed, faults and their own writes
(spec/09 R292 to R307). -/

namespace Sys2Proof.Machine

/-- Word address of a register of port n (spec/09). -/
def fpAddr (n off : Nat) : Nat := 0xC0000 + 0x10 * n + off

/-- The port counts A and B edges: QUAD or COMBINED (spec/09 Table 9.1). -/
def fpQuad (x : FpPort) : Bool := x.mode == 2 || x.mode == 3

/-- A slave geared to port n (spec/05 R166). -/
def gearedTo (n : Nat) (g : Option Gear) : Bool :=
  match g with | some k => k.master.kind == 3 && k.master.index == n | none => false

/-- Port n is the phase source, in force or named in SYS_PHSRC, or the master of an engaged gear (spec/09 R306). -/
def fpInUse (n : Nat) (w : Work) : Bool :=
  let names := fun (s : PhSrc) => s.kind == 1 && s.port == n
  names w.d.phase.src || w.d.phase.srcNext.any names
    || w.d.pln.axes.any (fun kv => gearedTo n kv.2.gear) || w.d.stp.axes.any (fun kv => gearedTo n kv.2.gear)

/-- One count step with the direction bit applied (R295, R298). -/
def fpStep (x : FpPort) (fwd : Bool) : FpPort :=
  { x with cnt := if fwd != x.dir then x.cnt + 1 else x.cnt - 1 }

/-- Stop every slave geared to a port that raised a fault (R297): QUICK_STOP for servo axes, STEP_STOP for steppers. -/
def fpStopSlaves (n : Nat) (w : Work) : Work :=
  let sv := (w.d.pln.axes.filter (fun kv => gearedTo n kv.2.gear)).map (fun kv => kv.1)
  let st := (w.d.stp.axes.filter (fun kv => gearedTo n kv.2.gear)).map (fun kv => kv.1)
  each st (fun a => ownEffect 0x0C3 [wd a] true) (each sv (fun a => ownEffect 0x047 [wd a] false) w)

/-- Both A and B changed in one sample: an illegal transition (R296, R297). -/
def fpIllegal (n : Nat) (x : FpPort) (w : Work) : Work :=
  let now := w.d.ptm.frc
  let (q, sat) := satInc 0xFFFF x.qill
  let newErr := !x.qerr
  let flt := match x.ill2 with | some t => decide ((now - t).toNat ≤ 250000) | none => false
  let x := { x with
    qill := q, qillSat := x.qillSat || sat, qerr := true, pflt := x.pflt || flt, ill2 := x.ill1, ill1 := some now }
  let w := setFp n x w
  let w := when_ sat (logCntSat .fp n (fpAddr n 0xB) 0) w
  let w := when_ newErr (logEvent .fp n 1 0) w
  if flt then when_ x.fstop (fpStopSlaves n) (logEvent .fp n 2 q w) else w

/-- The level a port takes for a line: the new one once it has been read in filt + 1 consecutive samples, else the one it
had, a shorter excursion being discarded (R293). -/
def fpAccept (filt r : Nat) (was now : Bool) : Bool := if filt < r then now else was

/-- The same for the Hall lines, H1 in bit 0. -/
def fpAcceptHall (filt r1 r2 r3 was now : Nat) : Nat :=
  let b := fun (k r : Nat) => if fpAccept filt r (was.testBit k) (now.testBit k) then 2 ^ k else 0
  b 0 r1 + b 1 r2 + b 2 r3

/-- QUAD_EDGE: accepted new levels of A and B in one decoder sample (R295, R296). -/
def quadEdge (n : Nat) (a b : Bool) (w : Work) : Work :=
  let x := getFp n w
  let da := x.la != a
  let db := x.lb != b
  let y := { x with la := a, lb := b }
  if !fpQuad x then setFp n y w
  else if da && db then fpIllegal n y w
  else if da then setFp n (fpStep y (a != b)) w
  else if db then setFp n (fpStep y (a == b)) w
  else setFp n y w

/-- The sector of the Hall lines H3 H2 H1 (spec/09 Table 9.2). -/
def hallSector (h : Nat) : Option Nat :=
  match h with | 1 => some 0 | 3 => some 1 | 2 => some 2 | 6 => some 3 | 4 => some 4 | 5 => some 5 | _ => none

/-- Set HERR, logging FP_HALL when it goes from 0 to 1 (R298). -/
def fpHerr (n : Nat) (w : Work) : Work :=
  let x := getFp n w
  let w := setFp n { x with herr := true } w
  when_ (!x.herr) (logEvent .fp n 4 0) w

/-- Sectors apart, counted modulo 6. -/
def sectorGap (a b : Nat) : Nat := min ((a + 6 - b) % 6) ((b + 6 - a) % 6)

/-- HALL_CHANGE: accepted new levels of the Hall lines (R298, R299). -/
def hallChange (n h : Nat) (w : Work) : Work :=
  let x := getFp n w
  let y := { x with hall := h }
  if x.mode == 1 then
    match hallSector h with
    | none => fpHerr n (setFp n { y with hallBad := true } w)
    | some s =>
      let z := { y with hallBad := false, sector := s }
      if s == x.sector then setFp n z w
      else if s == (x.sector + 1) % 6 then setFp n (fpStep z true) w
      else if (s + 1) % 6 == x.sector then setFp n (fpStep z false) w
      else fpHerr n (setFp n z w)
  else if x.mode == 3 then
    match hallSector h with
    | none => setFp n { y with hallBad := true } w
    | some s =>
      let w := setFp n { y with hallBad := false, sector := s } w
      if x.hcps == 0 then w
      else
        let cs := (x.cnt.toInt % (6 * x.hcps : Nat)).toNat / x.hcps
        when_ (decide (2 ≤ sectorGap s cs)) (fpHerr n) w
  else setFp n y w

/-- The index comparison of R302: difference from the nearest multiple of CPR, ties toward minus infinity. -/
def indexDiff (latch first : Word) (cpr : Nat) : Int :=
  let d := modDiff latch first
  let m := (2 * d + cpr - 1) / (2 * (cpr : Int))
  d - m * cpr

/-- INDEX_EDGE: an accepted change of Z (R301, R302). -/
def indexEdge (n : Nat) (z : Bool) (w : Work) : Work :=
  let x := getFp n w
  let y := { x with lz := z }
  let edge := x.lz != z && z != x.zpol
  let ok := fpQuad x && edge && (!x.zgate || (x.la && x.lb))
  if !ok then setFp n y w
  else
    let y := { y with idxl := x.cnt, idxNew := true }
    if x.needFirst then setFp n { y with idxf := x.cnt, firstOk := true, needFirst := false } w
    else if x.cpr == 0 then setFp n y w
    else
      let df := indexDiff x.cnt x.idxf x.cpr
      let y := { y with idxd := BitVec.ofInt 25 df }
      if decide ((x.idxWin : Int) < |df|) then
        logEvent .fp n 3 (wdI df).toNat (setFp n { y with drift := true } w)
      else setFp n y w

/-- The speed window setting in force: 0 is used as 1, above 1,000 as 1,000 (Table 9.3). -/
def fpSpw (x : FpPort) : Nat := min 1000 (max 1 x.spw)

/-- SPEED_WINDOW_END: publish SPDE and SPD (R303). -/
def speedWindowEnd (n : Nat) (w : Work) : Work :=
  let x := getFp n w
  if x.mode == 0 then w
  else
    let net := modDiff x.cnt x.winBase
    setFp n { x with spde := BitVec.ofInt 24 net, spd := fRat ((net : ℚ) * 100000 / (fpSpw x : ℚ)), winBase := x.cnt } w

/-- Write of FPn_CNT: accepted only in mode 0 (R300). -/
def fpCntWrite (n : Nat) (v : Word) (w : Work) : Work :=
  let x := getFp n w
  if x.mode == 0 then setFp n { x with cnt := v } w else w

/-- Entry into a new mode (R299, R300, R302, R303): true where it finds the Hall lines invalid (R298, R299). The count of a
window begins anew where COMBINED sets the count (log 150). -/
def fpEnter (old : Nat) (x : FpPort) : FpPort × Bool :=
  let x := if old == 0 && x.mode != 0 then { x with winBase := x.cnt } else x
  let x := if fpQuad x && old != x.mode then { x with needFirst := true } else x
  let s := hallSector x.hall
  let x := if (x.mode == 1 || x.mode == 3) && old != x.mode then
      (match s with | some k => { x with sector := k, hallBad := false } | none => { x with hallBad := true })
    else x
  if x.mode == 3 && old != 3 then
    match s with
    | some k => ({ x with cnt := wd (k * x.hcps), winBase := wd (k * x.hcps) }, false)
    | none => ({ x with cnt := 0, winBase := 0 }, true)
  else (x, x.mode == 1 && old != 1 && s.isNone)

/-- Write of FPn_CFG (R306): MODE and DIR are held while the port is in use; a change of SPW starts a new window. -/
def fpCfgWrite (n : Nat) (v : Word) (w : Work) : Work :=
  let x := getFp n w
  let busy := fpInUse n w
  let mode := fld v 0 2
  let dir := bit v 2
  let blocked := busy && (mode != x.mode || dir != x.dir)
  let y := { x with
    mode := if blocked then x.mode else mode, dir := if blocked then x.dir else dir,
    zpol := bit v 3, zgate := bit v 4, fstop := bit v 5, filt := fld v 6 4, hfilt := fld v 10 8, spw := fld v 18 10 }
  let y := if y.spw != x.spw then { y with winBase := y.cnt } else y
  let (y, bad) := fpEnter x.mode y
  let w := setFp n y w
  let w := when_ bad (fpHerr n) w
  when_ blocked (logEvent .fp n 5 0) w

/-- Write of 1 to FPn_STAT.IDX_REARM (R302). -/
def fpRearm (n : Nat) (w : Work) : Work := modFp n (fun x => { x with needFirst := true }) w

/-- The copy of every port's count at a sync point (R304, R305). -/
def fpSync (w : Work) : Work :=
  each (List.range 8) (fun n => modFp n (fun x => { x with
    scnt := x.cnt, svalid := fpQuad x && !x.pflt, hist := (x.cnt :: x.hist).take 6 })) w

/-- FPn_STAT (Table 9.12). -/
def fpStatWord (x : FpPort) : Word :=
  wd (putB 10 x.qillSat + putB 9 x.pflt + putB 8 x.drift + putB 7 x.herr + putB 6 x.qerr + putB 5 x.idxNew
    + putB 4 x.firstOk + putB 3 x.svalid + put 0 3 (if x.hallBad then 7 else x.sector))

/-- QUAD_EDGE: A and B of port n, each with the samples it has read its level in; the changes that FILT accepts fall in one
decoder sample (R293, R295). -/
def execQuadEdge (n : Fin 8) (a b : LineRun) (s : State) : Host.Outcome State Fault Refusal :=
  run (fun w => let x := getFp n w
                quadEdge n (fpAccept x.filt a.samples x.la a.level) (fpAccept x.filt b.samples x.lb b.level) w) s

/-- HALL_CHANGE: H1, H2 and H3 of port n (R293, R298). -/
def execHallChange (n : Fin 8) (h : HallRun) (s : State) : Host.Outcome State Fault Refusal :=
  run (fun w => let x := getFp n w
                let k := fpAcceptHall x.hfilt h.r1 h.r2 h.r3 x.hall h.lines
                if k == x.hall then w else hallChange n k w) s

/-- INDEX_EDGE: Z of port n (R293, R301). -/
def execIndexEdge (n : Fin 8) (z : LineRun) (s : State) : Host.Outcome State Fault Refusal :=
  run (fun w => let x := getFp n w; indexEdge n (fpAccept x.filt z.samples x.lz z.level) w) s

/-- SPEED_WINDOW_END on port n (R303). -/
def execSpeedWindowEnd (n : Fin 8) (s : State) : Host.Outcome State Fault Refusal := run (speedWindowEnd n) s

/-- FPN_CNT_WRITE (R300). -/
def execFpnCntWrite (n : Fin 8) (v : Word) (s : State) : Host.Outcome State Fault Refusal := run (fpCntWrite n v) s

/-- FPN_CFG_WRITE (R306). -/
def execFpnCfgWrite (n : Fin 8) (v : Word) (s : State) : Host.Outcome State Fault Refusal := run (fpCfgWrite n v) s

/-- IDX_REARM (R302). -/
def execIdxRearm (n : Fin 8) (s : State) : Host.Outcome State Fault Refusal := run (fpRearm n) s

end Sys2Proof.Machine
end

