-- ==== Sys2Proof/Machine/Furrow.lean ====
section
/-! DEFINITION. The Furrow DSP units: decoding of the 72-bit instructions, the address generators, arithmetic, hazards,
loops, calls, results and stops (spec/07 R224 to R260). -/

namespace Sys2Proof.Machine

/-- A bit field of an instruction. -/
def ifld (i : BitVec 72) (lo n : Nat) : Nat := (i.toNat >>> lo) % 2 ^ n
def ibit (i : BitVec 72) (k : Nat) : Bool := i.getLsbD k

/-- A signed n-bit field. -/
def sgnN (n v : Nat) : Int := (BitVec.ofNat n v).toInt

/-- A move field (Table 7.5). -/
structure Mv where
  kind : Nat
  ptr : Nat
  mod : Nat
  reg : Nat
deriving DecidableEq, Repr

/-- A MAC field (Table 7.4). -/
structure MacF where
  op : Nat
  acc : Nat
  sa : Nat
  sb : Nat
deriving DecidableEq, Repr

def mvOf (v : Nat) : Mv := { kind := (v >>> 10) % 4, ptr := (v >>> 7) % 8, mod := (v >>> 5) % 4, reg := v % 32 }
def macOf (v : Nat) : MacF :=
  { op := (v >>> 12) % 4, acc := (v >>> 10) % 4, sa := (v >>> 5) % 32, sb := v % 32 }

/-- A decoded Furrow instruction (Tables 7.3, 7.6, 7.8). -/
inductive FdIns where
  | par (m0 m1 : MacF) (x y : Mv) (c : Option (Nat × Nat × Nat)) (shr : Int) (rt lb : Bool)
  | alu (useImm : Bool) (op dd sa sb : Nat) (x : Mv) (lb : Bool) (imm : Word)
  | ctl (op : Nat) (w : BitVec 72)
deriving DecidableEq, Repr

/-- Decode the three forms; FMT 0b11 is illegal (R236). -/
def fdDecode (i : BitVec 72) : Option FdIns :=
  match ifld i 70 2 with
  | 0 => some (.par (macOf (ifld i 56 14)) (macOf (ifld i 42 14)) (mvOf (ifld i 30 12)) (mvOf (ifld i 18 12))
      (if ibit i 17 then some (ifld i 14 3, ifld i 12 2, ifld i 7 5) else none) (sgnN 5 (ifld i 2 5)) (ibit i 1)
      (ibit i 0))
  | 1 => some (.alu (ibit i 69) (ifld i 64 5) (ifld i 59 5) (ifld i 54 5) (ifld i 49 5) (mvOf (ifld i 37 12))
      (ibit i 36) (wd (ifld i 0 36)))
  | 2 => some (.ctl (ifld i 64 6) i)
  | _ => none

/-- The rows of the command table the forms belong to. -/
inductive FdRow where
  | par | a (op : Nat) | c (op : Nat)
deriving DecidableEq, Repr

def fdRowOf : FdIns → FdRow
  | .par .. => .par
  | .alu _ op .. => .a op
  | .ctl op _ => .c op

/-! Registers (R230, R231). -/

/-- The physical register a name denotes: 0 to 15 the fixed ones, 16 to 31 the window. -/
def physReg (rb r : Nat) : Nat := if r < 16 then r else 16 + (r + 16 - 16 - rb) % 16

def readPhys (u : FdUnit) (p : Nat) : Word := if p < 16 then nth 0 u.d p else nth 0 u.win (p - 16)
def readReg (u : FdUnit) (r : Nat) : Word := readPhys u (physReg u.rb r)
def writePhys (p : Nat) (v : Word) (u : FdUnit) : FdUnit :=
  if p < 16 then { u with d := u.d.set p v } else { u with win := u.win.set (p - 16) v }

/-- Write by name; the name is resolved with the rotating base at issue. -/
def writeReg (rb r : Nat) (v : Word) (u : FdUnit) : FdUnit := writePhys (physReg rb r) v u
def readAcc (u : FdUnit) (n : Nat) : BitVec 80 := nth 0 u.acc n
def writeAcc (n : Nat) (v : BitVec 80) (u : FdUnit) : FdUnit := { u with acc := u.acc.set n v }
def getPtr (u : FdUnit) (n : Nat) : Ptr := nth {} u.ptr n
def setPtr (n : Nat) (p : Ptr) (u : FdUnit) : FdUnit := { u with ptr := u.ptr.set n p }

/-! Arithmetic (R226 to R229). -/

/-- Saturate to the 36-bit range: the word and whether it saturated. -/
def sat36 (v : Int) : Word × Bool :=
  if 2 ^ 35 ≤ v then (wdI (2 ^ 35 - 1), true) else if v < -(2 ^ 35) then (wdI (-(2 ^ 35)), true) else (wdI v, false)

/-- A result with saturation noted in the unit. -/
def satNote (v : Int) (u : FdUnit) : Word × FdUnit :=
  let (x, s) := sat36 v
  (x, if s then { u with sat := true } else u)

/-- Extraction of an accumulator (R228). -/
def extract (a : BitVec 80) (shr : Int) : Int := a.toInt / ((2 ^ (35 + shr).toNat : Nat) : Int)

/-- Add to an accumulator modulo 2^80, noting AOV (R227). -/
def accAdd (n : Nat) (v : Int) (u : FdUnit) : FdUnit :=
  let r := (readAcc u n).toInt + v
  let u := writeAcc n (BitVec.ofInt 80 r) u
  if 2 ^ 79 ≤ r ∨ r < -(2 ^ 79) then { u with aov := true } else u

/-- One MAC field with the operand values read before the instruction (R226, R227, R239). -/
def doMac (m : MacF) (a b : Word) (u : FdUnit) : FdUnit :=
  let p := a.toInt * b.toInt
  match m.op with
  | 1 => accAdd m.acc p u
  | 2 => accAdd m.acc (-p) u
  | 3 => writeAcc m.acc (BitVec.ofInt 80 p) u
  | _ => u

/-! Address generators (R233 to R235). -/

/-- Reverse the low m bits of a number. -/
def revBits (m v : Nat) : Nat := (List.range m).foldl (fun r k => r * 2 + (v >>> k) % 2) 0

/-- The index after a change by delta in the pointer's mode (R234). -/
def ptrIndex (p : Ptr) (i : Nat) (delta : Int) : Nat :=
  match p.mode with
  | 0 => (((i : Int) + delta) % 16384).toNat
  | 1 => (((i : Int) + delta) % (p.len : Int)).toNat
  | _ =>
    let m := Nat.log2 p.len
    revBits m ((((revBits m i : Nat) : Int) + delta) % (p.len : Int)).toNat

/-- Effective address (R233). -/
def effAddr (p : Ptr) : Nat := (p.base + p.idx) % 16384

/-- Step of a post-modify code. -/
def modDelta (p : Ptr) (code : Nat) : Int := match code with | 1 => 1 | 2 => -1 | 3 => p.step | _ => 0

/-- Post-modify of a pointer. -/
def postMod (n code : Nat) (u : FdUnit) : FdUnit :=
  if code == 0 then u
  else let p := getPtr u n; setPtr n { p with idx := ptrIndex p p.idx (modDelta p code) } u

/-! Memories. Memory numbers: 0 X, 1 Y, 2 C, 3 P (R259). -/

/-- A word of Y memory. Scratch holds no defined value at a job's entry: a word not written since is free (R254, log 146). -/
def fdY (u : FdUnit) (a : Nat) : Word :=
  match u.yFree with
  | some k => if a < 0x2000 && !u.yPut.contains a then Config.freeWord (k + a) else tabGet 0 u.ym a
  | none => tabGet 0 u.ym a

def fdRead (u : FdUnit) (mem a : Nat) : Word :=
  match mem with | 0 => tabGet 0 u.xm a | 1 => fdY u a | _ => tabGet 0 u.cm a

/-- No bit error stands in a word. -/
def fdClean (mem a : Nat) (u : FdUnit) : FdUnit := { u with ecc := u.ecc.filter (fun e => !(e.1 == mem && e.2.1 == a)) }

/-- Write a word; a bit error that stood in it is gone. -/
def fdWrite (mem a : Nat) (v : Word) (u : FdUnit) : FdUnit :=
  let u := fdClean mem a u
  match mem with
  | 0 => { u with xm := tabSet 0 u.xm a v }
  | 1 => { u with
      ym := tabSet 0 u.ym a v
      yPut := if u.yFree.isSome && decide (a < 0x2000) && !u.yPut.contains a then a :: u.yPut else u.yPut }
  | 2 => { u with cm := tabSet 0 u.cm a v }
  | _ => u

/-- The windows of a job (R252). -/
def xOk (j : FdJob) (a : Nat) : Bool := decide (j.xb ≤ a) && decide (a < j.xb + j.xsz)
def cOk (j : FdJob) (a : Nat) : Bool := decide (j.cb ≤ a) && decide (a < j.cb + j.csz)

/-! Legality (R240), with the register values at issue. -/

/-- Second operand of a form-A instruction. -/
def aluB (u : FdUnit) (useImm : Bool) (sb : Nat) (imm : Word) : Word := if useImm then imm else readReg u sb

/-- A list without repeats. -/
def distinct : List Nat → Bool
  | [] => true
  | a :: r => !r.contains a && distinct r

/-- Registers a move field loads. -/
def mvLoads (m : Mv) : List Nat := if m.kind == 1 then [m.reg] else []

/-- A store-accumulator field has bits [4:2] zero. -/
def mvAccOk (m : Mv) : Bool := m.kind != 3 || m.reg < 4

/-- A form-A operation writes DD. -/
def aluWrites (op : Nat) : Bool := op ≤ 0x0E || op == 0x13

/-- The count of a LOOP. -/
def loopCount (u : FdUnit) (i : BitVec 72) : Int := if ibit i 63 then (readReg u (ifld i 56 5)).toInt else ifld i 0 13

/-- SETM's length and mode are legal. -/
def setmOk (i : BitVec 72) : Bool :=
  let l := ifld i 0 14 + 1
  match ifld i 59 2 with
  | 3 => false
  | 2 => decide (2 ≤ l) && l == 2 ^ Nat.log2 l
  | _ => true

/-- The instruction is legal where it stands (R240). -/
def fdLegal (u : FdUnit) : FdIns → Bool
  | .par _ _ x y c shr rt lb =>
    decide (-4 ≤ shr) && mvAccOk x && mvAccOk y && !(lb && u.loops.isEmpty) && !(rt && !lb)
      && distinct (mvLoads x ++ mvLoads y ++ (match c with | some (_, _, r) => [r] | none => []))
  | .alu i op dd sa sb x lb imm =>
    let b := aluB u i sb imm
    decide (op ≤ 0x13) && mvAccOk x && !(lb && u.loops.isEmpty)
      && !(x.kind == 3 && decide (sgnN 5 (fld imm 0 5) < -4))
      && !(op == 0x0E && (decide (4 ≤ sa) || decide (sgnN 5 (fld b 0 5) < -4)))
      && !(decide (0x0F ≤ op) && decide (op ≤ 0x11) && decide (4 ≤ dd))
      && distinct (mvLoads x ++ (if aluWrites op then [dd] else []))
  | .ctl op i =>
    match op with
    | 0x02 => ifld i 61 3 != 7
    | 0x03 => decide (1 ≤ loopCount u i) && decide (loopCount u i ≤ 4096) && decide (u.loops.length < 2)
    | 0x04 => setmOk i
    | _ => decide (op ≤ 0x06)

/-! Hazards (R242, Table 7.10): the earliest issue cycle. -/

/-- What an instruction waits for: producers with the distance each demands. -/
def waitOn (ps : List (Prod × Nat)) (need : List (Prod × Nat)) : Nat :=
  (ps.map (fun pc => (need.map (fun nd => if nd.1 = pc.1 then pc.2 + nd.2 else 0)).foldl max 0)).foldl max 0

/-- A read of a register by name: after a load distance 2, names of the window after SETRB distance 2. -/
def needReg (u : FdUnit) (r : Nat) : List (Prod × Nat) :=
  (.load (physReg u.rb r), 2) :: (if 16 ≤ r then [(.rb, 2)] else [])

/-- A register read as an address or count: loads and ALU results at distance 2. -/
def needCtl (u : FdUnit) (r : Nat) : List (Prod × Nat) := (.alu (physReg u.rb r), 2) :: needReg u r

/-- Names written also wait for SETRB. -/
def needName (r : Nat) : List (Prod × Nat) := if 16 ≤ r then [(.rb, 2)] else []

/-- A move of memory mem. -/
def needMv (u : FdUnit) (mem : Nat) (m : Mv) : List (Prod × Nat) :=
  match m.kind with
  | 0 => []
  | 1 => (.ptrSet m.ptr, 2) :: (.store mem (effAddr (getPtr u m.ptr)), 3) :: needName m.reg
  | 2 => (.ptrSet m.ptr, 2) :: needReg u m.reg
  | _ => [(.ptrSet m.ptr, 2), (.acc m.reg, 3)]

def needMac (u : FdUnit) (m : MacF) : List (Prod × Nat) := if m.op == 0 then [] else needReg u m.sa ++ needReg u m.sb

def fdNeeds (u : FdUnit) : FdIns → List (Prod × Nat)
  | .par m0 m1 x y c _ _ _ => needMac u m0 ++ needMac u m1 ++ needMv u 0 x ++ needMv u 1 y
      ++ (match c with | some (p, _, r) => (.ptrSet p, 2) :: needName r | none => [])
  | .alu i op dd sa sb x _ _ =>
    (if i || op == 0x11 || op == 0x13 then [] else needReg u sb)
      ++ (if op ≤ 0x0D && op != 0x00 && op != 0x03 && op != 0x04 then needReg u sa else [])
      ++ (if op == 0x0E then [(.acc sa, 3)] else []) ++ (if aluWrites op then needName dd else []) ++ needMv u 0 x
  | .ctl op i =>
    match op with
    | 0x02 => needCtl u (ifld i 56 5)
    | 0x03 => if ibit i 63 then needCtl u (ifld i 56 5) else []
    | 0x04 => needCtl u (ifld i 34 5) ++ (if ibit i 58 then needCtl u (ifld i 53 5) else [])
    | 0x05 => needCtl u (ifld i 56 5)
    | 0x06 => (.ptrSet (ifld i 61 3), 2) :: needName (ifld i 56 5)
    | _ => []

/-- Producers an instruction leaves. The result of a MOVD meets every distance Table 7.10 gives it at once (log 107). -/
def mvProds (u : FdUnit) (mem : Nat) (m : Mv) : List Prod :=
  match m.kind with
  | 0 => []
  | 1 => [.load (physReg u.rb m.reg)]
  | _ => [.store mem (effAddr (getPtr u m.ptr))]

def fdProds (u : FdUnit) : FdIns → List Prod
  | .par m0 m1 x y c _ _ _ =>
    (if m0.op == 0 then [] else [.acc m0.acc]) ++ (if m1.op == 0 then [] else [.acc m1.acc])
      ++ mvProds u 0 x ++ mvProds u 1 y ++ (match c with | some (_, _, r) => [.load (physReg u.rb r)] | none => [])
  | .alu _ op dd _ _ x _ _ =>
    (if aluWrites op then [.alu (physReg u.rb dd)] else [])
      ++ (if 0x0F ≤ op && op ≤ 0x11 then [.acc dd] else []) ++ (if op == 0x12 then [.rb] else []) ++ mvProds u 0 x
  | .ctl op i =>
    match op with
    | 0x04 | 0x05 => [.ptrSet (ifld i 61 3)]
    | _ => []

/-! Execution. -/

/-- A move's access lies in the job's windows (R252). -/
def mvOk (u : FdUnit) (j : FdJob) (mem : Nat) (m : Mv) : Bool :=
  let a := effAddr (getPtr u m.ptr)
  match m.kind, mem with
  | 0, _ => true
  | _, 0 => xOk j a
  | 1, _ => true
  | _, _ => decide (a < 0x2000)

/-- Bounds of every access of an instruction. -/
def fdBounds (u : FdUnit) (j : FdJob) : FdIns → Bool
  | .par _ _ x y c _ _ _ => mvOk u j 0 x && mvOk u j 1 y
      && (match c with | some (p, _, _) => cOk j (effAddr (getPtr u p)) | none => true)
  | .alu _ _ _ _ _ x _ _ => mvOk u j 0 x
  | .ctl _ _ => true

/-- A move carried out with the values before the instruction (o) on the unit u (R239). -/
def doMv (o : FdUnit) (mem : Nat) (shr : Int) (m : Mv) (u : FdUnit) : FdUnit :=
  let a := effAddr (getPtr o m.ptr)
  match m.kind with
  | 0 => u
  | 1 => writeReg o.rb m.reg (fdRead o mem a) u
  | 2 => fdWrite mem a (readReg o m.reg) u
  | _ => let (v, u) := satNote (extract (readAcc o m.reg) shr) u; fdWrite mem a v u

/-- The form-A operations of Table 7.7. -/
def doAlu (op dd sa : Nat) (a b : Word) (o : FdUnit) (u : FdUnit) : FdUnit :=
  let put := fun (v : Word) (u : FdUnit) => writeReg o.rb dd v u
  let putS := fun (v : Int) (u : FdUnit) => let (x, u) := satNote v u; put x u
  let n := fld b 0 6
  match op with
  | 0x00 => put b u
  | 0x01 => putS (a.toInt + b.toInt) u
  | 0x02 => putS (a.toInt - b.toInt) u
  | 0x03 => putS (-b.toInt) u
  | 0x04 => putS |b.toInt| u
  | 0x05 => put (if a.toInt ≤ b.toInt then a else b) u
  | 0x06 => put (if a.toInt ≤ b.toInt then b else a) u
  | 0x07 => put (a &&& b) u
  | 0x08 => put (a ||| b) u
  | 0x09 => put (a ^^^ b) u
  | 0x0A => put (wdI (a.toInt / ((2 ^ n : Nat) : Int))) u
  | 0x0B => putS (a.toInt * ((2 ^ n : Nat) : Int)) u
  | 0x0C => putS (a.toInt * b.toInt / ((2 ^ 35 : Nat) : Int)) u
  | 0x0D => put (if 0 ≤ a.toInt then b else 0) u
  | 0x0E => putS (extract (readAcc o sa) (sgnN 5 (fld b 0 5))) u
  | 0x0F => writeAcc dd (BitVec.ofInt 80 (b.toInt * ((2 ^ 35 : Nat) : Int))) u
  | 0x10 => accAdd dd (b.toInt * ((2 ^ 35 : Nat) : Int)) u
  | 0x11 => writeAcc dd 0 u
  | 0x12 => { u with rb := fld b 0 4 }
  | _ => put (wd o.rb) u

/-- The branch condition of Table 7.8. -/
def brTaken (cond : Nat) (v : Word) : Bool :=
  match cond with
  | 0 => true
  | 1 => v == 0
  | 2 => v != 0
  | 3 => decide (v.toInt < 0)
  | 4 => decide (0 ≤ v.toInt)
  | 5 => bit v 0
  | _ => !bit v 0

/-- The instruction at pc runs from the loop cache: the cache holds the body of the innermost loop (R247). -/
def fromCache (u : FdUnit) (pc : Nat) : Bool :=
  u.cacheOn && (u.loops.head?.map (fun l => l.1)) == some u.cacheLo && decide (u.cacheLo ≤ pc)
    && decide (pc < u.cacheLo + u.cache.length)

/-- The instruction at pc, from the loop cache or from P memory. -/
def fdFetch (u : FdUnit) (pc : Nat) : BitVec 72 :=
  if fromCache u pc then u.cache.getD (pc - u.cacheLo) 0 else tabGet 0 u.pm pc

/-- The first pass of the innermost loop leaves its instructions in the cache (R247). -/
def cacheFill (pc : Nat) (i : BitVec 72) (u : FdUnit) : FdUnit :=
  if !u.cacheOn && (u.loops.head?.map (fun l => l.1)) == some u.cacheLo && pc == u.cacheLo + u.cache.length
      && decide (u.cache.length < 64) then { u with cache := u.cache ++ [i] }
  else u

/-- The cache holds the whole body from lo to hi: at most 64 instructions and no form C but NOP (R247). -/
def cacheable (u : FdUnit) (lo hi : Nat) : Bool :=
  u.cacheLo == lo && u.cache.length == hi + 1 - lo && u.cache.all (fun i => ifld i 70 2 != 2 || ifld i 64 6 == 0)

/-- The loop-back of an instruction at pc: next pc, penalty, unit (R243, R245, R247). -/
def loopBack (pc : Nat) (rt : Bool) (u : FdUnit) : Nat × Nat × FdUnit :=
  let u := if rt then { u with rb := (u.rb + 1) % 16 } else u
  match u.loops with
  | [] => (pc + 1, 0, u)
  | (start, n) :: r =>
    if n ≤ 1 then (pc + 1, 0, { u with loops := r })
    else
      let u := { u with loops := (start, n - 1) :: r }
      if cacheable u start pc then (start, 0, { u with cacheOn := true }) else (start, 2, u)

/-- A pointer post-modified by two moves of one instruction: the spec gives no order, so its new index is a free value
in range (log 24). -/
def clashPtrs (x y : Mv) (c : Option (Nat × Nat × Nat)) : List Nat :=
  let l := (if x.kind != 0 && x.mod != 0 then [x.ptr] else []) ++ (if y.kind != 0 && y.mod != 0 then [y.ptr] else [])
    ++ (match c with | some (p, m, _) => if m != 0 then [p] else [] | none => [])
  (List.range 8).filter (fun n => decide (2 ≤ l.count n))

/-- The control operations SETM, MOVP and MOVD (R235, Table 7.8). -/
def doPtrCtl (op : Nat) (i : BitVec 72) (o u : FdUnit) : FdUnit :=
  let n := ifld i 61 3
  match op with
  | 0x04 =>
    let st := if ibit i 58 then sgnN 14 (fld (readReg o (ifld i 53 5)) 0 14) else sgnN 14 (ifld i 39 14)
    setPtr n { mode := ifld i 59 2, base := (fld (readReg o (ifld i 34 5)) 0 14 + ifld i 20 14) % 16384,
               len := ifld i 0 14 + 1, step := st, idx := 0 } u
  | 0x05 =>
    let p := getPtr o n
    setPtr n { p with idx := ptrIndex { p with mode := if p.mode == 0 then 0 else 1 } 0
                        ((readReg o (ifld i 56 5)).toInt + sgnN 14 (ifld i 0 14)) } u
  | 0x06 => writeReg o.rb (ifld i 56 5) (wd (getPtr o n).idx) u
  | _ => u

/-- What issuing an instruction at pc does to the unit: next pc, penalty cycles, unit; RET and the free index of a
clash are the caller's. -/
def fdExec (pc : Nat) (ins : FdIns) (o : FdUnit) : Nat × Nat × FdUnit :=
  match ins with
  | .par m0 m1 x y c shr rt lb =>
    let u := doMac m1 (readReg o m1.sa) (readReg o m1.sb) (doMac m0 (readReg o m0.sa) (readReg o m0.sb) o)
    let u := doMv o 1 shr y (doMv o 0 shr x u)
    let u := match c with | some (p, _, r) => writeReg o.rb r (fdRead o 2 (effAddr (getPtr o p))) u | none => u
    let u := postMod y.ptr (if y.kind == 0 then 0 else y.mod) (postMod x.ptr (if x.kind == 0 then 0 else x.mod) u)
    let u := match c with | some (p, m, _) => postMod p m u | none => u
    if lb then loopBack pc rt u else (pc + 1, 0, u)
  | .alu i op dd sa sb x lb imm =>
    let u := doAlu op dd sa (readReg o sa) (aluB o i sb imm) o o
    let u := doMv o 0 (sgnN 5 (fld imm 0 5)) x u
    let u := postMod x.ptr (if x.kind == 0 then 0 else x.mod) u
    if lb then loopBack pc false u else (pc + 1, 0, u)
  | .ctl op i =>
    match op with
    | 0x02 =>
      if brTaken (ifld i 61 3) (readReg o (ifld i 56 5)) then (ifld i 0 13, 2, { o with loops := [] }) else (pc + 1, 0, o)
    | 0x03 => (pc + 1, 0, { o with
        loops := (pc + 1, (loopCount o i).toNat) :: o.loops, cacheLo := pc + 1, cache := [], cacheOn := false })
    | _ => (pc + 1, 0, doPtrCtl op i o o)

/-! Jobs. -/

/-- End the job with this job time: occupancy and the peak (R251, Tables 7.23, 7.24). -/
def fdEnd (tj : Nat) (u : FdUnit) : FdUnit :=
  match u.job with
  | none => u
  | some j =>
    let u := { u with job := none, lastSlot := j.slot, busyNow := u.busyNow + tj, clk := u.clk + tj }
    if u.pTj < tj then { u with pTj := min tj 1023, pAxis := j.axis, pTap := j.tap } else u

/-- A stopped job (R253, Table 7.13): STOP, LSTOP, FD_STOP, and the engine takes a zero with AXF_DSP_BUDGET. -/
def fdStop (n cause pc tj : Nat) (w : Work) : Work :=
  let u := getFd n w
  match u.job with
  | none => w
  | some j =>
    let u := fdEnd tj { u with stop := true, lAxis := j.axis, lTap := j.tap, lCause := cause, lPc := pc }
    let w := setFd n u w
    let w := logEvent .fd n 1 (put 28 8 j.axis + put 26 2 j.tap + put 23 3 cause + put 0 13 pc) w
    ceNext (ceTapResult j.engine none w)

/-- The coefficient word a C address holds, from the owning parameter page (R259): the tap whose copy covers it. -/
def fdCoefOwner (n addr : Nat) (w : Work) : Option Word :=
  (getFd n w).alloc.findSome? (fun kv =>
    let a := kv.1 / 4
    let t := kv.1 % 4
    let csz := fld (rd (pageAddr a 0 (0x13 + 4 * t) w) w) 12 12
    let off := ((List.range t).map (fun k => fld (rd (pageAddr a 0 (0x13 + 4 * k) w) w) 12 12)).sum
    if kv.2.cb0 ≤ addr ∧ addr < kv.2.cb0 + csz then some (rd (pageAddr a 0 (0xA0 + off + (addr - kv.2.cb0)) w) w)
    else if kv.2.cb1 ≤ addr ∧ addr < kv.2.cb1 + csz then
      some (rd (pageAddr a 1 (0xA0 + off + (addr - kv.2.cb1)) w) w)
    else none)

/-- A P instruction from its two image words (R236). -/
def pIns (hi lo : Word) : BitVec 72 := BitVec.ofNat 72 (hi.toNat * 2 ^ 36 + lo.toNat)

/-- Repair of a word with an uncorrectable error (R259). -/
def fdRepair (n mem addr : Nat) (w : Work) : Work :=
  let u := getFd n w
  match mem with
  | 0 => setFd n (fdWrite 0 addr 0 u) w
  | 1 => setFd n (fdWrite 1 addr (if addr < 0x2000 then 0 else rd (u.yimg + (addr - 0x2000)) w) u) w
  | 2 => setFd n (fdWrite 2 addr ((fdCoefOwner n addr w).getD (fdRead u 2 addr)) u) w
  | _ => setFd n (fdClean 3 addr
      { u with pm := tabSet 0 u.pm addr (pIns (rd (u.pimg + 2 * addr) w) (rd (u.pimg + 2 * addr + 1) w)) }) w

/-- A bit error comes into a memory; an uncorrectable one stays the worse of two. -/
def fdUpset (h : EccHit) (u : FdUnit) : FdUnit :=
  match h with
  | .clean => u
  | .single m a => if u.ecc.any (fun e => e.1 == m.val && e.2.1 == a) then u else { u with ecc := (m.val, a, false) :: u.ecc }
  | .double m a => let u := fdClean m.val a u; { u with ecc := (m.val, a, true) :: u.ecc }

/-- The word has an uncorrectable error. -/
def fdDead (u : FdUnit) (p : Nat × Nat) : Bool := u.ecc.contains (p.1, p.2, true)

/-- Words of the memories are read: a single-bit error is corrected and the word written back, an uncorrectable one is
reported and the word repaired (R259). -/
def fdScan (n : Nat) (l : List (Nat × Nat)) (w : Work) : Work :=
  each ((getFd n w).ecc.filter (fun e => l.contains (e.1, e.2.1))) (fun e w =>
    let u := getFd n w
    if e.2.2 then
      fdRepair n e.1 e.2.1 (logEvent .fd n 3 (put 16 2 e.1 + put 0 14 e.2.1) (setFd n { u with ecc2 := true } w))
    else
      when_ (!u.ecc1) (logEvent .fd n 2 0) (setFd n (fdClean e.1 e.2.1 { u with ecc1 := true }) w)) w

/-- The memory words an instruction at pc reads: itself, unless the loop cache holds it, and its loads. -/
def fdReads (u : FdUnit) (pc : Nat) (ins : FdIns) : List (Nat × Nat) :=
  let mv := fun (mem : Nat) (m : Mv) => if m.kind == 1 then [(mem, effAddr (getPtr u m.ptr))] else []
  (if fromCache u pc then [] else [(3, pc)]) ++ (match ins with
    | .par _ _ x y c _ _ _ => mv 0 x ++ mv 1 y ++ (match c with | some (p, _, _) => [(2, effAddr (getPtr u p))] | none => [])
    | .alu _ _ _ _ _ x _ _ => mv 0 x
    | .ctl _ _ => [])

/-- Issue the instruction at the job's PC when it is of the given row: hazards, legality, bounds, effect (R239 to R247,
R253). The instruction of the budget's last cycle is the stopping one and has no effect (R251, Table 7.22). A word the job
reads with an uncorrectable error stops it (R259). -/
def fdIssue (n : Nat) (row : FdRow) (h : EccHit) (w : Work) : Work :=
  let u := getFd n w
  match (if fdClk n w then u.job else none) with
  | none => w
  | some j =>
    let pc := j.pc % 8192
    let raw := fdFetch u pc
    match fdDecode raw with
    | none => if j.t + 1 < j.budget then fdStop n 2 j.pc (j.t + 1) w else w
    | some ins =>
      let t := max j.t (waitOn j.prods (fdNeeds u ins))
      if j.budget ≤ t + 1 then w
      else if !fdLegal u ins then fdStop n 2 j.pc (t + 1) w
      else if fdRowOf ins != row then w
      else
        let u := fdUpset h u
        let reads := fdReads u pc ins
        let dead := reads.any (fdDead u)
        let w := fdScan n reads (setFd n (cacheFill pc raw u) w)
        let u := getFd n w
        if dead then fdStop n 4 j.pc (t + 1) w
        else if !fdBounds u j ins then fdStop n 3 j.pc (t + 1) w
        else if fdRowOf ins == .c 1 then
          if t + 5 ≤ j.budget then
            let y := readReg u 0
            ceNext (ceTapResult j.engine (some y) (setFd n (fdEnd (t + 5) u) w))
          else setFd n { u with job := some { j with t := j.budget } } w
        else
          let (pc, pen, u2) := fdExec j.pc ins u
          let clash := match ins with | .par _ _ x y c _ _ _ => clashPtrs x y c | _ => []
          let w := setFd n { u2 with
            job := some { j with
              pc := pc % 8192, t := t + 1 + pen,
              prods := ((fdProds u ins).map (fun p => (p, t)) ++ j.prods).filter (fun p => decide (t < p.2 + 3)) } } w
          each clash (fun p w =>
            let v := getFd n w
            let q := getPtr v p
            let (k, w) := freeN (if q.mode == 0 then 16384 else q.len) w
            setFd n (setPtr p { q with idx := k } v) w) w

/-- FURROW_BUDGET_EXPIRY: the job has reached the last cycle of its budget without delivering (R251). -/
def fdBudgetExpiry (n : Nat) (w : Work) : Work :=
  let u := getFd n w
  match u.job with
  | none => w
  | some j =>
    let next := match fdDecode (fdFetch u (j.pc % 8192)) with
      | some ins => max j.t (waitOn j.prods (fdNeeds u ins))
      | none => j.t
    if j.budget ≤ next + 1 then fdStop n 1 j.pc j.budget w else w

/-- The entry state of Table 7.11; the words of Y scratch are free, from number k of the free words on (R254). -/
def fdEntry (c : TapCall) (xb cb xsz k : Nat) (u : FdUnit) : FdUnit :=
  let d2 := putB 0 c.init + put 1 1 c.page + put 2 3 c.region + put 5 2 c.tap + put 7 8 c.axis
  { u with
    d := [c.x1, c.x2, wd d2, wd xb, wd cb, wd c.rate, wd xsz] ++ List.replicate 9 0
    win := List.replicate 16 0
    acc := List.replicate 4 0
    ptr := { base := xb } :: { base := cb } :: List.replicate 6 {}
    rb := 0
    loops := []
    cacheLo := 0
    cache := []
    cacheOn := false
    yFree := some k
    yPut := [] }

/-- FURROW_CALL_SELECT: the free unit takes the pending call of the first slot after the one last served (R248, R249). -/
def fdSelect (n : Nat) (w : Work) : Work :=
  let u := getFd n w
  let f := numFD w.variant
  if u.job.isSome || !fdClk n w then w
  else
    match (List.range 4).findSome? (fun k =>
        let slot := (u.lastSlot + 1 + k) % 4
        let e := n + slot * f
        if e < numCE w.variant then (getEng e w).call.map (fun c => (slot, e, c)) else none) with
    | none => w
    | some (slot, e, c) =>
      let al := tabGet {} u.alloc (4 * c.axis + c.tap)
      let sz := rd (pageAddr c.axis c.page (0x13 + 4 * c.tap) w) w
      let cb := if c.page == 0 then al.cb0 else al.cb1
      let entry := fld (rd (pageAddr c.axis c.page (0x10 + 4 * c.tap) w) w) 0 13
      let budget := fld (rd (pageAddr c.axis c.page (0x11 + 4 * c.tap) w) w) 0 10
      let wait := 4 * (w.d.ptm.frc - c.arrival).toNat + (u.clk - c.arrivalCyc)
      let u := fdEntry c al.xb cb (fld sz 0 12) w.d.freeCtr u
      let w := setFd n { u with
        job := some { slot := slot, engine := e, axis := c.axis, tap := c.tap, xb := al.xb, xsz := fld sz 0 12,
                      cb := cb, csz := fld sz 12 12, budget := budget, pc := entry }
        waitMax := max u.waitMax (min wait 4095) } { w with d.freeCtr := w.d.freeCtr + 0x2000 }
      modEng e (fun g => { g with call := none }) w

/-! Windows (R258, Table 7.14). -/

/-- The memory and the address a window offset names. -/
def fdWinWord (off : Nat) : Nat × Nat :=
  if off < 0x4000 then (2, off - 0x2000) else if off < 0x8000 then (0, off - 0x4000)
  else if off < 0xC000 then (1, off - 0x8000) else (3, (off - 0xC000) / 2)

/-- Read of a memory window of unit n at an offset from FDb; a word with an uncorrectable error reads as a free value (R258,
R259, log 146). -/
def fdWinRead (n off : Nat) (w : Work) : Word :=
  let u := getFd n w
  let p := fdWinWord off
  if off < 0x2000 then 0
  else if fdDead u p then (freeW w).1
  else if p.1 == 3 then
    let i := tabGet 0 u.pm p.2
    if off % 2 == 0 then wd (ifld i 36 36) else wd (ifld i 0 36)
  else fdRead u p.1 p.2

/-- What the read of a window does: a word with a bit error is found and repaired (R259). -/
def fdWinFound (n off : Nat) (w : Work) : Work :=
  let p := fdWinWord off
  if off < 0x2000 then w
  else fdScan n [p] (if fdDead (getFd n w) p then (freeW w).2 else w)

/-- Write of a memory window. -/
def fdWinPut (off : Nat) (v : Word) (u : FdUnit) : FdUnit :=
  if off < 0x2000 then u
  else if off < 0x4000 then fdWrite 2 (off - 0x2000) v u
  else if off < 0x8000 then fdWrite 0 (off - 0x4000) v u
  else if off < 0xC000 then fdWrite 1 (off - 0x8000) v u
  else
    let k := (off - 0xC000) / 2
    let i := tabGet 0 u.pm k
    let j := if off % 2 == 0 then pIns v (wd (ifld i 0 36)) else pIns (wd (ifld i 36 36)) v
    fdClean 3 k { u with pm := tabSet 0 u.pm k j }

/-- FD_WINDOW_WRITE: done only in TEST, else ignored and logged; an absent unit and a word that is no memory's
ignore it silently (R5, R258). -/
def fdWindowWrite (n off : Nat) (v : Word) (w : Work) : Work :=
  if numFD w.variant ≤ n ∨ off < 0x2000 then w
  else if w.d.sys.st == .test then setFd n (fdWinPut off v (getFd n w)) w
  else logEvent .fd n 5 0 w

/-! The rows: each issues the instruction at the PC of the job unit n runs, when that instruction is of the row's kind
(R236 to R238); h is a bit error that comes into a memory with the issue (R259). -/

/-- PARALLEL_INSTRUCTION (spec/07 Table 7.3). -/
def execParallelInstruction (n : Fin 4) (h : EccHit) (s : State) : Host.Outcome State Fault Refusal :=
  run (fdIssue n .par h) s

/-- MOV (spec/07 Table 7.7). -/
def execFdMov (n : Fin 4) (h : EccHit) (s : State) : Host.Outcome State Fault Refusal :=
  run (fdIssue n (.a 0x00) h) s

/-- ADD (spec/07 Table 7.7). -/
def execFdAdd (n : Fin 4) (h : EccHit) (s : State) : Host.Outcome State Fault Refusal :=
  run (fdIssue n (.a 0x01) h) s

/-- SUB (spec/07 Table 7.7). -/
def execFdSub (n : Fin 4) (h : EccHit) (s : State) : Host.Outcome State Fault Refusal :=
  run (fdIssue n (.a 0x02) h) s

/-- NEG (spec/07 Table 7.7). -/
def execFdNeg (n : Fin 4) (h : EccHit) (s : State) : Host.Outcome State Fault Refusal :=
  run (fdIssue n (.a 0x03) h) s

/-- ABS (spec/07 Table 7.7). -/
def execFdAbs (n : Fin 4) (h : EccHit) (s : State) : Host.Outcome State Fault Refusal :=
  run (fdIssue n (.a 0x04) h) s

/-- MIN (spec/07 Table 7.7). -/
def execFdMin (n : Fin 4) (h : EccHit) (s : State) : Host.Outcome State Fault Refusal :=
  run (fdIssue n (.a 0x05) h) s

/-- MAX (spec/07 Table 7.7). -/
def execFdMax (n : Fin 4) (h : EccHit) (s : State) : Host.Outcome State Fault Refusal :=
  run (fdIssue n (.a 0x06) h) s

/-- AND (spec/07 Table 7.7). -/
def execFdAnd (n : Fin 4) (h : EccHit) (s : State) : Host.Outcome State Fault Refusal :=
  run (fdIssue n (.a 0x07) h) s

/-- OR (spec/07 Table 7.7). -/
def execFdOr (n : Fin 4) (h : EccHit) (s : State) : Host.Outcome State Fault Refusal :=
  run (fdIssue n (.a 0x08) h) s

/-- XOR (spec/07 Table 7.7). -/
def execFdXor (n : Fin 4) (h : EccHit) (s : State) : Host.Outcome State Fault Refusal :=
  run (fdIssue n (.a 0x09) h) s

/-- ASR (spec/07 Table 7.7). -/
def execFdAsr (n : Fin 4) (h : EccHit) (s : State) : Host.Outcome State Fault Refusal :=
  run (fdIssue n (.a 0x0A) h) s

/-- LSL (spec/07 Table 7.7). -/
def execFdLsl (n : Fin 4) (h : EccHit) (s : State) : Host.Outcome State Fault Refusal :=
  run (fdIssue n (.a 0x0B) h) s

/-- MULQ (spec/07 Table 7.7). -/
def execFdMulq (n : Fin 4) (h : EccHit) (s : State) : Host.Outcome State Fault Refusal :=
  run (fdIssue n (.a 0x0C) h) s

/-- KEEP (spec/07 Table 7.7). -/
def execFdKeep (n : Fin 4) (h : EccHit) (s : State) : Host.Outcome State Fault Refusal :=
  run (fdIssue n (.a 0x0D) h) s

/-- EXT (spec/07 Table 7.7). -/
def execFdExt (n : Fin 4) (h : EccHit) (s : State) : Host.Outcome State Fault Refusal :=
  run (fdIssue n (.a 0x0E) h) s

/-- LDA (spec/07 Table 7.7). -/
def execFdLda (n : Fin 4) (h : EccHit) (s : State) : Host.Outcome State Fault Refusal :=
  run (fdIssue n (.a 0x0F) h) s

/-- ADDA (spec/07 Table 7.7). -/
def execFdAdda (n : Fin 4) (h : EccHit) (s : State) : Host.Outcome State Fault Refusal :=
  run (fdIssue n (.a 0x10) h) s

/-- CLRA (spec/07 Table 7.7). -/
def execFdClra (n : Fin 4) (h : EccHit) (s : State) : Host.Outcome State Fault Refusal :=
  run (fdIssue n (.a 0x11) h) s

/-- SETRB (spec/07 Table 7.7). -/
def execFdSetrb (n : Fin 4) (h : EccHit) (s : State) : Host.Outcome State Fault Refusal :=
  run (fdIssue n (.a 0x12) h) s

/-- GETRB (spec/07 Table 7.7). -/
def execFdGetrb (n : Fin 4) (h : EccHit) (s : State) : Host.Outcome State Fault Refusal :=
  run (fdIssue n (.a 0x13) h) s

/-- FD_NOP (spec/07 Table 7.8). -/
def execFdNop (n : Fin 4) (h : EccHit) (s : State) : Host.Outcome State Fault Refusal :=
  run (fdIssue n (.c 0x00) h) s

/-- RET (spec/07 Table 7.8). -/
def execFdRet (n : Fin 4) (h : EccHit) (s : State) : Host.Outcome State Fault Refusal :=
  run (fdIssue n (.c 0x01) h) s

/-- BR (spec/07 Table 7.8). -/
def execFdBr (n : Fin 4) (h : EccHit) (s : State) : Host.Outcome State Fault Refusal :=
  run (fdIssue n (.c 0x02) h) s

/-- LOOP (spec/07 Table 7.8). -/
def execFdLoop (n : Fin 4) (h : EccHit) (s : State) : Host.Outcome State Fault Refusal :=
  run (fdIssue n (.c 0x03) h) s

/-- SETM (spec/07 Table 7.8). -/
def execFdSetm (n : Fin 4) (h : EccHit) (s : State) : Host.Outcome State Fault Refusal :=
  run (fdIssue n (.c 0x04) h) s

/-- MOVP (spec/07 Table 7.8). -/
def execFdMovp (n : Fin 4) (h : EccHit) (s : State) : Host.Outcome State Fault Refusal :=
  run (fdIssue n (.c 0x05) h) s

/-- MOVD (spec/07 Table 7.8). -/
def execFdMovd (n : Fin 4) (h : EccHit) (s : State) : Host.Outcome State Fault Refusal :=
  run (fdIssue n (.c 0x06) h) s

/-- FURROW_CALL_SELECT on unit n (R248). -/
def execFurrowCallSelect (n : Fin 4) (s : State) : Host.Outcome State Fault Refusal := run (fdSelect n) s

/-- FURROW_BUDGET_EXPIRY on unit n (R251). -/
def execFurrowBudgetExpiry (n : Fin 4) (s : State) : Host.Outcome State Fault Refusal := run (fdBudgetExpiry n) s

/-- FD_WINDOW_WRITE: unit n, word offset from its block, value (R258). -/
def execFdWindowWrite (n : Fin 4) (off : Fin 65536) (v : Word) (s : State) : Host.Outcome State Fault Refusal :=
  run (fdWindowWrite n off v) s

end Sys2Proof.Machine
end

