-- ==== Sys2Proof/Machine/Governor.lean ====
section
/-! DEFINITION. The energy governor: power curves, the timeline of 1 ms bins, the budget checks and placement (spec/05 R176
to R178, spec/12 R384 to R396, R408). -/

namespace Sys2Proof.Machine

/-! Curves (spec/05 R176, R177). -/

/-- The energy model of an axis is filled in: JM, KT, ETA and CNT are not zero (R386). -/
def modelOk (x : PlnAxis) : Bool :=
  plnParam x 0x110 != 0 && plnParam x 0x111 != 0 && plnParam x 0x115 != 0 && plnParam x 0x116 != 0

/-- What the power formula divides by is filled in: KT, ETA and CNT are not zero (R176). -/
def curveModel (x : PlnAxis) : Bool := plnParam x 0x111 != 0 && plnParam x 0x115 != 0 && plnParam x 0x116 != 0

/-- The power at a velocity and acceleration (R176). -/
def axisPower (x : PlnAxis) (v a : ℚ) : ℚ :=
  let c := plnQ x 0x116
  let u := v / c
  let f := plnQ x 0x110 * (a / c) + plnQ x 0x113 * qsgn u + plnQ x 0x114 * u
  let i := f / plnQ x 0x111
  let p0 := f * u + i * i * plnQ x 0x112
  if 0 ≤ p0 then p0 / plnQ x 0x115 else p0 * plnQ x 0x115

/-- The mean of a profile's power over its bin j, rounded to binary32 (R177). -/
def binPower (x : PlnAxis) (f : Prof) (j : Nat) : ℚ :=
  let l := (List.range 16).map (fun i =>
    let s := (profAt f (f.t0 + (j : ℚ) / 1000 + ((i : ℚ) + 1 / 2) / 16000)).1
    axisPower x s.v s.a)
  fVal (fRat (l.sum / 16))

/-- The bins of a profile of axis x, at most 256, the tail value, and the length in seconds; none for a velocity move. An
axis whose model leaves a divisor zero carries no power (log 45). -/
def curveOf (x : PlnAxis) (f : Prof) : List ℚ × ℚ × Option ℚ :=
  if !curveModel x then ([], 0, some 0)
  else
    let dur := segsDur f.segs
    let n := (dur * 1000).ceil.toNat
    let bins := (List.range (min n 256)).map (binPower x f)
    match f.target with
    | none =>
      (bins, fVal (fRat (axisPower x (segsEnd f.start f.segs).v 0)), none)
    | some _ =>
      if n ≤ 256 then (bins, 0, some ((n : ℚ) / 1000))
      else
        let rest := (List.range (n - 256)).map (fun k => binPower x f (256 + k))
        (bins, rest.foldl max (rest.headD 0), some dur)

/-! The timeline (R387, R388). -/

/-- The instant of the present sync point in FRC time, seconds. -/
def frcTime (w : Work) : ℚ := (w.d.phase.frcSync.toNat : ℚ) / 250000000

/-- The instant of a coming sync point in FRC time. -/
def instantOf (c : Word) (w : Work) : ℚ := frcTime w + (modDiff c w.d.phase.ncc : ℚ) * cycleTime w.d.sys.rate

/-- Part of 1 ms in which [lo, hi) overlaps bin b. -/
def overlap (lo : ℚ) (hi : Option ℚ) (b : Nat) : ℚ :=
  let s : ℚ := max lo ((b : ℚ) / 1000)
  let e : ℚ := match hi with | some h => min h (((b : ℚ) + 1) / 1000) | none => ((b : ℚ) + 1) / 1000
  if e ≤ s then 0 else (e - s) * 1000

/-- What a curve contributes to bin b. -/
def curvePower (c : Curve) (b : Nat) : ℚ :=
  let x := (((b : ℚ) / 1000 - c.t0) * 1000).floor
  let part : Int → ℚ := fun j =>
    if j < 0 then 0
    else
      let v := if j.toNat < c.bins.length then nth 0 c.bins j.toNat else c.tail
      let lo := c.t0 + (j : ℚ) / 1000
      let hi := c.t0 + ((j : ℚ) + 1) / 1000
      v * overlap lo (some (match c.fin with | some f => min f hi | none => hi)) b
  part x + part (x + 1)

/-- P(b) of a present or coming bin with a list of curves (R388). -/
def binTotal (cs : List Curve) (b : Nat) (w : Work) : ℚ :=
  let g := (w.d.egv.gears.map (fun g => plnQ (getPln g.axis w) 0x117 * overlap g.t0 g.fin b)).sum
  fWordVal w.d.egv.staticW + g + (cs.map (fun c => curvePower c b)).sum

/-- The 256 bins of the timeline. -/
def timeline (cs : List Curve) (w : Work) : List ℚ := (List.range 256).map (fun k => binTotal cs (w.d.egv.bin + k) w)

/-- Sum of the last n values up to place k of the past and the timeline. -/
def windowSum (f : ℚ → ℚ) (n : Nat) (past tl : List ℚ) (k : Nat) : ℚ :=
  let here := (tl.take (k + 1)).reverse
  (((here ++ past).take n).map f).sum / 1000

/-- The first check of Table 12.3 a bin fails, 0 for none: its own value, and the windows that end with it (log 46). -/
def binFails (tl : List ℚ) (w : Work) (k : Nat) : Nat :=
  let e := w.d.egv
  if fWordVal e.peakW < nth 0 tl k then 0x10
  else if fWordVal e.winJ < windowSum id e.winMs e.past tl k then 0x11
  else if fWordVal e.regenJ < windowSum (fun p => max 0 (-p)) e.winMs e.past tl k then 0x12
  else 0

/-- The outcome of Table 12.3 over the timeline, in the order of the checks. -/
def budgetCheck (cs : List Curve) (w : Work) : Nat :=
  let tl := timeline cs w
  let r := (List.range 256).map (binFails tl w)
  if r.contains 0x10 then 0x10
  else
    let e := w.d.egv
    let beyond (f : ℚ → ℚ) (lim : Word) := (List.range 256).any (fun k => decide (fWordVal lim < windowSum f e.winMs e.past tl k))
    if beyond id e.winJ then 0x11 else if beyond (fun p => max 0 (-p)) e.regenJ then 0x12 else 0

/-- Something contributes, so that the timeline is more than the static load. -/
def egvActive (w : Work) : Bool :=
  !w.d.egv.curves.isEmpty || w.d.egv.gears.any (fun g => plnParam (getPln g.axis w) 0x117 != 0) || w.d.egv.staticW != 0

/-- Write the timeline ring and PNOW (R408). -/
def egvWrite (w : Work) : Work :=
  let e := w.d.egv
  let tl := if isBank e.tlBase || egvActive w then timeline e.curves w else []
  let w := each (tl.zipIdx) (fun p w =>
    let a := e.tlBase + (e.bin + p.2) % 2048
    let v := fToWord (fRat p.1)
    if rd a w == v then w else wr a v w) w
  { w with d.egv.pnow := fRat (nth 0 tl 0), d.egv.ring := tl.map fRat, d.egv.ringAt := e.bin }

/-- The runs of failing bins: first bin and its DETAIL. -/
def failRuns : List Nat → Nat → Nat → List (Nat × Nat)
  | [], _, _ => []
  | f :: r, k, prev => (if f != 0 && prev == 0 then [(k, f)] else []) ++ failRuns r (k + 1) f

/-- The timeline has changed other than by a placement: check the bins affected, a window with one of them among them, and
report every run that fails; all says that the budget itself has changed, or the timeline as a whole (R393, R408). -/
def egvChanged (all : Bool) (w : Work) : Work :=
  let o := w.d.egv
  let w := egvWrite w
  if !egvActive w then w
  else
    let e := w.d.egv
    let tl := timeline e.curves w
    let now := tl.map fRat
    let touched := (List.range 256).map (fun k => all || nth 0 o.ring (e.bin + k - o.ringAt) != nth 0 now k)
    let hit := fun (k f : Nat) =>
      if f == 0x10 then nth false touched k else ((touched.take (k + 1)).drop (k + 1 - e.winMs)).any id
    let fails := (List.range 256).map (fun k => let f := binFails tl w k; if hit k f then f else 0)
    each (failRuns fails 0 0) (fun p w =>
      let b := w.d.egv.bin + p.1
      let w := { w with d.egv.excess := true, d.egv.xbin := wd b, d.egv.xdet := p.2 }
      irq 16 (logEvent .egv 0 1 (put 8 28 b + put 0 8 p.2) w)) w

/-- A position or velocity move of an axis that carries a curve of its own; geared motion carries none (R178). -/
def carriesCurve (a : Nat) (w : Work) : Bool :=
  let x := getPln a w
  (x.kind == .posMove || x.kind == .velMove) && x.gear.isNone

/-- Curves placed for moves whose effect is still to come. -/
def pendingCurves (w : Work) : List Nat :=
  (w.d.cmd.effects ++ w.d.cmd.bundles.flatMap (fun b => b.members)).filterMap (fun e => e.curve)

/-- Take the curves in force of an axis out from the present sync point on (R392). -/
def egvCut (a : Nat) (w : Work) : Work :=
  let t := frcTime w
  let e := w.d.egv
  let ahead := pendingCurves w
  let cut := fun (c : Curve) => if c.axes.contains a && !ahead.contains c.id then
    { c with fin := some (match c.fin with | some f => min f t | none => t) } else c
  { w with d.egv.curves := (e.curves.map cut).filter (fun c => c.fin != some c.t0) }

/-- GEAR_W of an axis begins or ends (R388). -/
def egvGear (a : Nat) (on soft : Bool) (w : Work) : Work :=
  let t := frcTime w
  let l := w.d.egv.gears.map (fun g => if g.axis == a && g.fin.isNone && (on || g.soft == soft)
    then { g with fin := some t } else g)
  { w with d.egv.gears := if on then l ++ [{ axis := a, t0 := t, soft := soft }] else l }

/-- The actual curve of an axis' profile, in force from the present sync point (R178, R392). -/
def egvEnter (a : Nat) (w : Work) : Work :=
  let x := getPln a w
  match x.prof with
  | none => w
  | some f =>
    if !curveModel x then w
    else
      let (bins, tail, len) := curveOf x f
      let t := frcTime w
      let c : Curve := {
        id := w.d.egv.nextCurve, axes := [a], t0 := t, bins := bins, tail := tail, fin := len.map (fun l => t + l) }
      { w with d.egv.curves := w.d.egv.curves ++ [c], d.egv.nextCurve := w.d.egv.nextCurve + 1 }

/-! Placement (R390, R391). -/

/-- Cycles in 0.25 ms (R390). -/
def egvQ (w : Work) : Nat := match w.d.sys.rate with | 0 => 2 | 1 => 4 | 2 => 8 | _ => 16

/-- The candidate starts d, d + Q, ... up to dmax: the delay of the first that passes, or the DETAIL of the refusal. -/
def egvTry : Nat → Curve → Word → Nat → Nat → Nat → Work → Nat ⊕ Nat
  | 0, _, _, _, _, first, _ => .inr (if first = 0 then 0x13 else first)
  | fuel + 1, c, e, dmax, d, first, w =>
    if dmax < d then .inr first
    else
      let t := instantOf (e + wd d) w
      if ((w.d.egv.bin + 256 : Nat) : ℚ) / 1000 ≤ t then .inr (if first = 0 then 0x13 else first)
      else
        let moved := { c with t0 := t, fin := c.fin.map (fun l => t + l) }
        let f := budgetCheck (w.d.egv.curves ++ [moved]) w
        if f = 0 then .inl d
        else egvTry fuel c e dmax (d + egvQ w) (if first = 0 then f else first) w

/-- egv_place of R390; the curve's fin is its length here. -/
def egvPlace (c : Curve) (e : Word) (dmax : Nat) (w : Work) : Nat ⊕ Nat := egvTry (dmax + 1) c e dmax 0 0 w

/-- Enter a curve that starts at t; its identity. -/
def egvAdd (c : Curve) (t : ℚ) (w : Work) : Nat × Work :=
  let id := w.d.egv.nextCurve
  let c := { c with id := id, t0 := t, fin := c.fin.map (fun l => t + l) }
  (id, { w with d.egv.curves := w.d.egv.curves ++ [c], d.egv.nextCurve := id + 1 })

/-- Enter a placed curve; its identity. -/
def egvKeep (c : Curve) (t : ℚ) (w : Work) : Nat × Work := let (id, w) := egvAdd c t w; (id, egvWrite w)

/-- The sum of curves placed together (R177, R391). -/
def curveSum (l : List (List Nat × List ℚ × ℚ × Option ℚ)) : Curve :=
  let n := (l.map (fun x => x.2.1.length)).foldl max 0
  { axes := l.flatMap (fun x => x.1)
    bins := (List.range n).map (fun j => (l.map (fun x =>
      if j < x.2.1.length then nth 0 x.2.1 j
      else match x.2.2.2 with | some f => if (j : ℚ) / 1000 < f then x.2.2.1 else 0 | none => x.2.2.1)).sum)
    tail := (l.map (fun x => x.2.2.1)).sum
    fin := if l.any (fun x => x.2.2.2.isNone) then none else
      some ((l.map (fun x => x.2.2.2.getD 0)).foldl max 0) }

/-- The present bin moves on at the first sync point of a bin (R387): the bins left behind become past. -/
def egvSync (w : Work) : Work :=
  let b := w.d.phase.frcSync.toNat / 250000
  let e := w.d.egv
  if b ≤ e.bin then w
  else
    let gone := if egvActive w then (List.range (min (b - e.bin) 1791)).map (fun k => binTotal e.curves (e.bin + k) w)
      else List.replicate (min (b - e.bin) 1791) (fWordVal e.staticW)
    let lim : ℚ := (b : ℚ) / 1000
    egvWrite { w with
      d.egv.bin := b, d.egv.past := (gone.reverse ++ e.past).take 1791
      d.egv.curves := e.curves.filter (fun c => match c.fin with | some f => decide (lim ≤ f) | none => true)
      d.egv.gears := e.gears.filter (fun g => match g.fin with | some f => decide (lim ≤ f) | none => true) }

/-- EGV_MODE at its effect (R394). -/
def fxEgvMode (on : Bool) (w : Work) : Work := { w with d.egv.on := on }

/-- RUN entered with the governor off (R395). -/
def egvRunEntry (w : Work) : Work :=
  if w.d.egv.on then w else logEvent .egv 0 2 0 { w with d.egv.runOff := true }

/-- EGV_STAT (Table 12.8). -/
def egvStatWord (w : Work) : Word :=
  let e := w.d.egv
  wd (put 4 8 e.xdet + putB 3 e.rebuild + putB 2 e.runOff + putB 1 e.excess + putB 0 e.on)

/-- TIMELINE_REBUILD: the rebuild after a takeover is complete (R396). -/
def timelineRebuild (w : Work) : Work :=
  if !w.d.egv.rebuild then w
  else
    let w := { w with d.egv.rebuild := false, d.egv.curves := [] }
    let moving := (plnKnown w).filter (fun a =>
      let k := (getPln a w).kind
      k == .posMove || k == .velMove)
    let w := each moving (fun a w =>
      let x := getPln a w
      match x.prof with
      | some f =>
        let (bins, tail, len) := curveOf x f
        let t := frcTime w - (syncTime w - f.t0)
        if !curveModel x then w
        else { w with
          d.egv.curves := w.d.egv.curves ++ [{
            id := w.d.egv.nextCurve, axes := [a], t0 := t, bins := bins, tail := tail, fin := len.map (fun l => t + l) }]
          d.egv.nextCurve := w.d.egv.nextCurve + 1 }
      | none => w) w
    egvChanged true (logEvent .egv 0 3 0 w)

/-- TIMELINE_REBUILD (R396). -/
def execTimelineRebuild (s : State) : Host.Outcome State Fault Refusal := run timelineRebuild s

end Sys2Proof.Machine
end

