-- ==== Sys2Proof/Machine/Stepper.lean ====
section
/-! DEFINITION. The step generators: current references, profiles and gearing in microsteps, delivery and returns, phase
links, power-down and re-homing, the encoder check and the stepper faults (spec/08 R261 to R291). -/

namespace Sys2Proof.Machine

/-! Currents (R262 to R268). -/

/-- pi to thirty decimal places. -/
def piApprox : ℚ := 3141592653589793238462643383280 / 10 ^ 30

/-- The series of the sine to its 25th power: exact beyond 2^-60 on 0 to pi/2. -/
def sinSeries (x : ℚ) : ℚ :=
  ((List.range 13).foldl (fun (acc : ℚ × ℚ) k =>
    (acc.1 + acc.2, -acc.2 * x * x / ((2 * k + 2) * (2 * k + 3)))) (0, x)).1

/-- The built-in table T[u] = floor(262,143 sin(pi u / 512)) (R266). -/
def builtInT (u : Nat) : Nat := (262143 * sinSeries (piApprox * u / 512)).floor.toNat

/-- M(x) of table k: T[x], and 262,143 at 256 (R262, R265). -/
def stpMag (k x : Nat) (w : Work) : Nat :=
  if 256 ≤ x then 262143
  else
    match tabGet none w.d.stp.tables k with
    | some l => nth 0 l x % 2 ^ 18
    | none => builtInT x

/-- Phase magnitudes and signs (true negative) of a position (Table 8.1). -/
def stpPhases (k : Nat) (p : Word) (w : Work) : (Nat × Bool) × (Nat × Bool) :=
  let e := p.toNat % 1024
  let u := e % 256
  let m := stpMag k u w
  let n := stpMag k (256 - u) w
  match e / 256 with
  | 0 => ((n, false), (m, false))
  | 1 => ((m, true), (n, false))
  | 2 => ((n, true), (m, true))
  | _ => ((m, false), (n, true))

/-- A magnitude under a scale, a zero one being positive (R263). -/
def stpScaled (x : Nat × Bool) (scale : Nat) : Nat × Bool :=
  let v := x.1 * scale / 65536
  (v, x.2 && v != 0)

/-- The reference record of an axis (Table 8.3). -/
def stpRecord (x : StpAxis) (w : Work) : Word × Word :=
  let (a, b) := stpPhases x.table (x.p + x.idxOff) w
  let scale := if x.holdOn || x.fcode != 0 then x.holdScale else x.runScale
  let (ia, sa) := stpScaled a scale
  let (ib, sb) := stpScaled b scale
  if scale = 0 then (wd (putB 35 true + putB 34 x.pwr), 0) else
  (wd (putB 35 true + putB 34 x.pwr + putB 18 sa + put 0 18 ia), wd (putB 18 sb + put 0 18 ib))

/-! Plans (R269 to R271). -/

/-- The instant of the slow-group start after the present one: a slow group lasts 125 microseconds. -/
def slowTime (w : Work) : ℚ := ((w.d.pln.tick + 8 : Nat) : ℚ) / 64000

/-- The limits of Table 8.2 in force. -/
def stpLim (x : StpAxis) : Lim :=
  { vmax := fWordVal x.vmax, amax := fWordVal x.amax, dmax := fWordVal x.dmax, jmax := fWordVal x.jmax }

/-- The planned state of a stepper at an instant. -/
def stpPlanAt (x : StpAxis) (t : ℚ) : PState :=
  let s := (profPart x.prof x.hold t).1
  match x.gear with
  | some g => { s with p := s.p + (g.pos.floor : ℚ), v := s.v + g.step * 8000 }
  | none => s

/-- The plan is at rest at an instant. -/
def stpAtRest (x : StpAxis) (t : ℚ) : Bool :=
  x.gear.isNone && (match x.prof with
    | some f => f.target.isSome && decide (profEnd f ≤ t)
    | none => true)

/-- Put a profile in force from the coming slow-group start. -/
def stpProf (a : Nat) (k : MKind) (s : PState) (segs : List Seg) (target : Option ℚ) (w : Work) : Work :=
  modStp a (fun x => { x with
    kind := k, prof := some { t0 := slowTime w, start := s, segs := segs, target := target }, moveTarget := target }) w

/-- A stepper takes motion commands only powered and not faulted (R279, R287). -/
def stpCanMove (x : StpAxis) : Bool := x.pwr && x.fcode == 0

/-- STEP_MOVE at its effect (R151, R269). -/
def fxStepMove (a : Nat) (target : Word) (w : Work) : Work :=
  let x := getStp a w
  if !stpCanMove x || x.gear.isSome then w
  else
    let s := stpPlanAt x (slowTime w)
    let g := unwrap s.p target
    stpProf a .posMove s (replan s g (stpLim x)) (some g) w

/-- STEP_VEL at its effect (R160, R269). -/
def fxStepVel (a : Nat) (v : Word) (w : Work) : Work :=
  let x := getStp a w
  if !stpCanMove x || x.gear.isSome then w
  else
    let s := stpPlanAt x (slowTime w)
    stpProf a .velMove s (velRamp s (fWordVal v) (stpLim x)) none w

/-- A stop leg under DMAX and JMAX from the planned state of the coming slow-group start, to which the gear has been
advanced; gearing ends (R161, R170, R269). -/
def stpStopLeg (a : Nat) (w : Work) : Work :=
  let x := getStp a w
  if !stpCanMove x then w
  else
    let s := stpPlanAt x (slowTime w)
    let segs := stopLeg s (stpLim x).dmax (stpLim x).jmax
    let w := stpProf a .stop s segs (some (segsEnd s segs).p) w
    modStp a (fun x => { x with gear := none, moveTarget := none }) w

/-- The master value predicted for the coming slow-group start, as R111 predicts the phase (R289). -/
def masterSlow (m : Master) (w : Work) : Word :=
  let s := slowS w
  match m.kind with
  | 0 => vmAhead s w
  | 3 => extrapolate ((getFp m.index w).hist.drop 1) (s + 1)
  | _ =>
    if m.feedback then extrapolate ((getCe m.index w).posHist) (s + 1)
    else posWord (planAt (getPln m.index w) w.d.sys.rate (slowTime w)).p

/-- The gear advanced to the coming slow-group start, and the ratio change that took effect with it (R167, R289). -/
def stpGear (x : StpAxis) (w : Work) : StpAxis × Option RatioPend :=
  match x.gear with
  | some g => let (k, d) := gearStep g (masterSlow g.master w); ({ x with gear := some k }, d)
  | none => (x, none)

/-- STEP_STOP, and the end of gearing, from the planned state of the effect (R161, R170, R269, R289). -/
def fxStepStop (a : Nat) (w : Work) : Work := stpStopLeg a (modStp a (fun x => (stpGear x w).1) w)

/-- GEAR_ENGAGE of a stepper slave at its effect (R168, R289). -/
def fxStepGear (a : Nat) (m : Master) (n : Int) (d r : Nat) (w : Work) : Work :=
  let x := (stpGear (getStp a w) w).1
  if !stpCanMove x then w
  else
    let s := stpPlanAt x (slowTime w)
    let l := stpLim x
    let mv := masterSlow m w
    let g : Gear := {
      master := m, n := n, d := d, m := mv,
      ramp := some { mc := mv, sigma := 0, r := r, sc := 0, no := 0, do_ := 1, nn := n, dn := d } }
    let segs := stopLeg s l.dmax l.jmax
    modStp a (fun x => { x with
      kind := .geared, gear := some g, moveTarget := none, hold := s.p
      prof := if s.v = 0 ∧ s.a = 0 then none else
        some { t0 := slowTime w, start := s, segs := segs, target := some (segsEnd s segs).p } }) w

/-- A class-B limit write re-plans a stepper move in flight (R154, R271). -/
def fxStepReplan (a : Nat) (w : Work) : Work :=
  let x := getStp a w
  let s := stpPlanAt x (slowTime w)
  if x.gear.isSome || stpAtRest x (slowTime w) then w
  else
    match x.kind, x.moveTarget, x.prof with
    | .posMove, some g, _ => stpProf a .posMove s (replan s g (stpLim x)) (some g) w
    | .velMove, _, some f =>
      let v := (segsEnd f.start f.segs).v
      stpProf a .velMove s (velRamp s v (stpLim x)) none w
    | _, _, _ => w

/-- The travel guard in microsteps (R162, R269). -/
def stpTravel (a : Nat) (w : Work) : Work :=
  let x := getStp a w
  if !x.travelEn || !stpCanMove x || x.kind == .stop || stpAtRest x (slowTime w) then w
  else
    let s := stpPlanAt x (slowTime w)
    let sp := stopPoint s (stpLim x).dmax (stpLim x).jmax
    let base : ℚ := ((posWord s.p).toInt : ℚ) - (s.p.floor : ℚ)
    let lo : ℚ := x.posMin.toInt
    let hi : ℚ := x.posMax.toInt
    let goal := fun (lim : ℚ) => x.kind == .posMove && x.moveTarget == some (lim - base)
    let q := sp + base
    let hit := (decide (0 < s.v) && (decide (hi < q) || (q == hi && !goal hi)))
      || (decide (s.v < 0) && (decide (q < lo) || (q == lo && !goal lo)))
    if hit then logEvent .pln a 1 0 (stpStopLeg a w) else w

/-! Faults (R286, R287). -/

/-- Raise a stepper fault: the stage stays as it is, the index is held, plan and gearing end, one event, and the axis'
commands follow spec/06 R216. -/
def stpRaise (a code : Nat) (w : Work) : Work :=
  let x := getStp a w
  if x.fcode != 0 then w
  else
    let w := setStp a { x with
      fcode := code, prof := none, gear := none, moveTarget := none, kind := .hold, hold := (x.p.toInt : ℚ) } w
    axisFaulted 2 a code (irq 17 (logEvent .stp a 1 code w))

/-- The encoder-derived position (R284, R290). -/
def stpEnc (x : StpAxis) : Word := x.penc + x.encOff

/-- The comparison before a re-enable after retain: the encoder-derived position lies outside the window (R281). -/
def stpMismatch (x : StpAxis) : Bool := x.encEn && decide ((x.stallWin : Int) < |modDiff x.p (stpEnc x)|)

/-- The fault code of a cause that persists on a faulted axis, whatever code FCODE holds, the lowest first (R286, R287): the
last exchange was missed, reported a drive fault, or had a wrong CRC; after SXF_REF_MISMATCH, the positions still differ. -/
def stpCause (a : Nat) (w : Work) : Option Nat :=
  let x := getStp a w
  if x.fcode == 0 then none
  else if 0 < x.missRun then some 0x22
  else if x.nodeFault then some 0x23
  else if 1024 ≤ a ∧ 0 < tabGet 0 w.d.stp.crcRun (a - 1024) then some 0x24
  else if x.fcode == 0x25 && stpMismatch x then some 0x25
  else none

/-! Power-down and re-enable (R279 to R283, R287). -/

/-- The multiple of 256 nearest to a position, a tie toward minus infinity (R282). -/
def nearest256 (p : Word) : Word := wdI (((p.toInt + 127) / 256) * 256)

/-- The outcome of a STEP_ENABLE at its effect: none is OK, otherwise the fault code it completes with. -/
def fxStepEnable (a : Nat) (on release : Bool) (w : Work) : Option Nat × Work :=
  let x := getStp a w
  if !on then
    if x.fcode != 0 then (some x.fcode, w)
    else (none, setStp a { x with pwr := false, release := release, unref := x.unref || release } w)
  else if x.fcode == 0 && x.pwr then (none, w)
  else if (stpCause a w).isSome then (stpCause a w, w)
  else
    let stall := x.fcode == 0x20
    let home := !x.everEnabled || stall || (!x.pwr && x.release)
    let x := { x with fcode := 0, stallRun := 0 }
    if home then
      let p := nearest256 (if x.encEn then stpEnc x else x.p)
      (none, setStp a { x with
        p := p, hold := (p.toInt : ℚ), prof := none, pwr := true, everEnabled := true, unref := true,
        holdOn := false, moving := true, still := 0, encOff := p - x.penc, idxOff := 0, kind := .hold } w)
    else
      if stpMismatch x then (some 0x25, stpRaise a 0x25 (setStp a x w))
      else (none, setStp a { x with
        pwr := true, holdOn := true, kind := .hold, hold := (x.p.toInt : ℚ), prof := none } w)

/-- REF_SET at its effect: P becomes the written value and the electrical index stays (R272, log 108). -/
def fxRefSet (a : Nat) (v : Word) (w : Work) : Work :=
  modStp a (fun x => { x with
    p := v, pPrev := v + (x.pPrev - x.p), pOld := v + (x.pOld - x.p), hold := (v.toInt : ℚ), prof := none,
    unref := false, encOff := v - x.penc, idxOff := x.idxOff + x.p - v }) w

/-! Returns and the encoder check (R274, R284, R285). -/

/-- Advance Penc to an encoder count, without loss (R284). -/
def stpEncStep (c : Word) (x : StpAxis) : StpAxis :=
  match x.encLast with
  | none => { x with encLast := some c }
  | some o =>
    let num : Int := modDiff c o * x.encNum + x.encRem
    let inc := num / (x.encDen : Int)
    { x with encLast := some c, penc := x.penc + wdI inc, encRem := (num - inc * x.encDen).toNat }

/-- The deviation of an evaluation, as DEV and DEV_PEAK keep it (Table 8.12); true where it raises SXF_STALL. -/
def stpDeviation (x : StpAxis) : StpAxis × Bool :=
  let d := modDiff x.pOld (stpEnc x)
  let far := decide ((x.stallWin : Int) < |d|)
  let run := if far then x.stallRun + 1 else 0
  let x := { x with
    dev := max (-32768) (min 32767 d), devPeak := max x.devPeak (min 65535 d.natAbs), stallRun := run }
  (x, far && decide (x.stallN ≤ run))

/-- The evaluation of one axis at a slow-group start, of the return of the group before (R274, R285, R286): the lowest
fault found, 0 for none. -/
def stpEvaluate (a : Nat) (w : Work) : Nat × Work :=
  let x := getStp a w
  let rem := decide (a < 1024)
  let (r0, r1) := x.ret.getD (0, 0)
  let ok := x.ret.isSome && (!rem || (bit r0 35 && !bit r0 33 && (!x.encEn || bit r0 32)))
  if rem && !x.exchanged then (0, w)
  else
    let miss := rem && !ok
    let newRun := miss && x.missRun == 0
    let comm := miss && x.missRun == 2
    let node := rem && x.ret.isSome && bit r0 35 && bit r0 34
    let x := { x with
      missRun := if miss then min 2 (x.missRun + 1) else 0, ret := none, nodeFault := if rem then node else x.nodeFault }
    let (x, stall) := if x.encEn && ok then stpDeviation (stpEncStep r1 x) else (x, false)
    let w := setStp a x w
    let w := when_ newRun (logEvent .stp a 4 0) w
    (if stall then 0x20 else if comm then 0x22 else if node then 0x23 else 0, w)

/-! The reference of the coming slow-group start. -/

/-- End of a profile reached at the coming start. -/
def stpSettle (a : Nat) (w : Work) : Work :=
  let x := getStp a w
  match x.prof with
  | some f =>
    (match f.target with
     | some g => if profEnd f ≤ slowTime w then
         setStp a { x with prof := none, hold := g, kind := if x.kind == .stop then .hold else x.kind } w else w
     | none => w)
  | none => w

/-- The run or hold scale for the coming reference (R268): the instant it is computed at lies HOLD_DELAY after the one from
which the planned velocity has been zero. The first reference of velocity zero is computed one slow group before that. The
timer runs from the first enable on (R282, log 145). -/
def stpHoldStep (moving : Bool) (x : StpAxis) : StpAxis :=
  if moving then { x with moving := true, still := 0, holdOn := false }
  else
    let still := if x.moving || !x.everEnabled then 0 else if x.holdOn then x.still else x.still + 8
    { x with
      moving := false, still := still
      holdOn := x.holdOn || (x.everEnabled && decide (64 * x.holdDelay + 8 ≤ still)) }

/-- The flags of STP_SXa_STAT (Table 8.11). -/
def stpStatWord (x : StpAxis) : Word :=
  wd (put 13 8 x.fcode + putB 12 (x.fcode != 0) + putB 11 x.unref + putB 10 (x.holdOn || x.fcode != 0) + putB 9 x.release
    + putB 8 x.gear.isSome + putB 7 x.moving + put 5 2 x.table + put 3 2 x.missRun + putB 2 x.encEn + putB 0 x.pwr)

/-- STP_SXa_DEV (Table 8.12). -/
def stpDevWord (x : StpAxis) : Word := wd (put 16 16 x.devPeak + put 0 16 (BitVec.ofInt 16 x.dev).toNat)

/-- Words 0 to 2 of the axis' state block (R290). -/
def stpState (a : Nat) (w : Work) : Work :=
  let x := getStp a w
  let w := setStp a { x with statShown := stpStatWord x, devShown := stpDevWord x } w
  wrs (w.d.stp.stBase + 4 * a) [x.p, stpStatWord x, x.encOff] w

/-- Compute the reference of axis a for the coming slow-group start (R262 to R264, R268, R269, R289). -/
def stpReference (a : Nat) (w : Work) : Work :=
  let (x, done) := stpGear (getStp a w) w
  let w := stpTravel a (setStp a x w)
  let x := getStp a w
  let s := stpPlanAt x (slowTime w)
  let np := posWord s.p
  let bad := decide (255 < |modDiff np x.p|) && x.fcode == 0
  let moving := s.v != 0
  let p := if bad || x.fcode != 0 then x.p else np
  let x := stpHoldStep (moving && !bad) { x with p := p, pPrev := x.p, pOld := x.pPrev }
  let w := setStp a x w
  let w := if bad then stpRaise a 0x21 w else w
  let x := getStp a w
  let (r0, r1) := stpRecord x w
  let w := setStp a { x with ref0 := r0, ref1 := r1 } w
  let w := stpSettle a (stpState a w)
  match done with
  | some pd => planMade (0x1000 + a)
      (addEffect { cmd := pd.cmd, op := 0x081, slow := true, time := .at (nccPlus (slowS w) w), ps := [] } w)
  | none => w

/-- The axes the generators work on: those that ever held anything. -/
def stpKnown (w : Work) : List Nat := w.d.stp.axes.map (fun kv => kv.1)

/-- Current tables whose swap has come (R267). -/
def stpSwap (w : Work) : Work :=
  let due := w.d.stp.staged.filter (fun e => atOrPast w.d.phase.ncc e.2.2)
  let w := { w with d.stp.staged := w.d.stp.staged.filter (fun e => !atOrPast w.d.phase.ncc e.2.2) }
  each due (fun e w => { w with d.stp.tables := tabSet none w.d.stp.tables e.1 e.2.1 }) w

/-- The first part of the generators' work at a slow-group start: the evaluation of the returns and their faults, before
any command takes effect (R288). -/
def stpSyncFaults (w : Work) : Work :=
  let w := stpSwap w
  each (stpKnown w) (fun a w =>
    let (c, w) := stpEvaluate a w
    if c == 0 then w else stpRaise a c w) w

/-- The axes that references are computed for: those that ever held anything, those of the mapped nodes, and the local
ones (R275, R283, R290). -/
def stpServed (w : Work) : List Nat :=
  ((stpKnown w ++ (w.d.trl.img.getD {}).nodes.flatMap (fun (n : MapNode) => n.steppers) ++ (List.range 8).map (1024 + ·)).filter
    (fun a => stpPresent a w)).eraseDups

/-- The second part, after the effects: references of every axis, and the sample of a local axis' encoder. -/
def stpSyncRefs (w : Work) : Work :=
  let w := each (stpServed w) stpReference w
  let w := each (List.range 8) (fun n w =>
    let x := getStp (1024 + n) w
    if x.encEn then setStp (1024 + n) { x with ret := some (0, (getFp x.encPort w).scnt) } w else w) w
  let s := w.d.stp
  { w with d.stp := { s with
      phUsed := s.phNow, genUsed := s.genNow, phPeak := max s.phPeak s.phNow, genPeak := max s.genPeak s.genNow
      phNow := 0, genNow := 0 } }

/-- Load the current table k from its page, an all-zero page giving the built-in table (R266). -/
def stpTable (k : Nat) (w : Work) : Option (List Nat) :=
  let l := (rds (w.d.stp.tblBase + 256 * k) 256 w).map (fun v => fld v 0 18)
  if (rds (w.d.stp.tblBase + 256 * k) 256 w).all (fun v => v == 0) then none else some l

/-! Local phase links (R275 to R278). -/

/-- CRC-8 of bits [47:8] of a frame (R276). -/
def phaseCrc (f : BitVec 48) : Nat := crcBits 8 0x07 ((bitsMSB 48 f.toNat).take 40) 0

/-- The outgoing frame of a local channel (Table 8.4): currents while the stage is on, power down while it is off, no
change where the generator has computed no reference. -/
def phaseOut (x : StpAxis) : BitVec 48 :=
  let cmd := if !bit x.ref0 35 then 2 else if bit x.ref0 34 then 0 else 1
  let f : BitVec 48 := BitVec.ofNat 48 (put 46 2 cmd + putB 45 (bit x.ref0 18) + put 27 18 (fld x.ref0 0 18)
    + putB 26 (bit x.ref1 18) + put 8 18 (fld x.ref1 0 18))
  f ||| BitVec.ofNat 48 (phaseCrc f)

/-- PHASE_LINK_FRAME on channel n with the returning frame (R275, R278). -/
def phaseLinkFrame (n : Nat) (ret : BitVec 48) (w : Work) : Work :=
  let a := 1024 + n
  let w := send (.phaseLink n (phaseOut (getStp a w))) w
  if phaseCrc ret != ret.toNat % 256 then
    let run := min 3 (tabGet 0 w.d.stp.crcRun n + 1)
    let w := { w with d.stp.linkErr := w.d.stp.linkErr ||| (1 <<< n), d.stp.crcRun := tabSet 0 w.d.stp.crcRun n run }
    let w := logEvent .stp n 3 0 w
    if run == 3 then stpRaise a 0x24 w else w
  else
    let bad := ret.getLsbD 45 || ret.getLsbD 44 || ret.getLsbD 43 || ret.getLsbD 42
    let one : BitVec 8 := 1 <<< n
    let w := { w with
      d.stp.crcRun := tabSet 0 w.d.stp.crcRun n 0
      d.stp.drvFlt := if bad then w.d.stp.drvFlt ||| one else w.d.stp.drvFlt &&& ~~~one }
    let w := modStp a (fun x => { x with nodeFault := bad }) w
    if bad then stpRaise a 0x23 w else w

/-- PHASE_LINK_FRAME: channel n and the frame the driver returned (R275). -/
def execPhaseLinkFrame (n : Fin 8) (ret : BitVec 48) (s : State) : Host.Outcome State Fault Refusal :=
  run (phaseLinkFrame n ret) s

end Sys2Proof.Machine
end

