-- ==== Sys2Proof/Machine/RingBase.lean ====
section
/-! DEFINITION. Ring controllers: access to rings, nodes and the node map, word pairs, frame CRC and headers, slot maps and
trellis entries, and the sending of a frame (spec/10 R314 to R318, spec/11 R349 to R352). -/

namespace Sys2Proof.Machine

/-- The source block of a ring controller. -/
def ringBlk (b : Bool) : Blk := if b then .dqb else .dqa

/-- The image in force; an empty one before the first load. -/
def imageOf (w : Work) : Image := w.d.trl.img.getD {}

/-- The ring exists on the variant and the image uses it. -/
def ringUsed (b : Bool) (w : Work) : Bool :=
  if b then hasRingB w.variant && (imageOf w).useB else (imageOf w).useA

/-- The rings in use. -/
def ringsUsed (w : Work) : List Bool := [false, true].filter (fun b => ringUsed b w)

/-- Nodes of the map on one ring. -/
def mapNodes (b : Bool) (w : Work) : List MapNode := (imageOf w).nodes.filter (fun n => n.ringB == b)
def mapNode (b : Bool) (id : Nat) (w : Work) : Option MapNode := (mapNodes b w).find? (fun n => n.id == id)
def axisNode (a : Nat) (w : Work) : Option MapNode := (imageOf w).nodes.find? (fun n => n.axes.contains a)
def stpNode (a : Nat) (w : Work) : Option MapNode := (imageOf w).nodes.find? (fun n => n.steppers.contains a)
def modeRec (m : Nat) (w : Work) : ModeRec := tabGet {} w.d.trl.modes m

/-- The unit holds mode m as valid: an away unit in role ACTIVE holds only mode 4 so (R366, spec/13 R444). -/
def modeHeld (m : Nat) (w : Work) : Bool :=
  (modeRec m w).valid && (m == 4 || w.d.grf.home || w.d.sys.role != .active)

/-- A mapped node whose axes and points are absent units: on ring B of a variant that has none (spec/00 R6), or an optional
one that DISCOVER did not find (R380). -/
def nodeLeftOut (n : MapNode) (w : Work) : Bool :=
  (n.ringB && !hasRingB w.variant) || (n.optional && !(getNode n.ringB n.id w).present
    && [DevState.plan, .commission, .run, .recovery, .safeLock].contains w.d.sys.st)
def servoLeftOut (a : Nat) (w : Work) : Bool := (axisNode a w).any (fun n => nodeLeftOut n w)
def stpLeftOut (a : Nat) (w : Work) : Bool := (stpNode a w).any (fun n => nodeLeftOut n w)

/-- A servo axis that is absent: beyond the capacity of spec/00 R6, or of a node left out. -/
def servoAbsent (a : Nat) (w : Work) : Bool := decide (servoPresent w ≤ a) || servoLeftOut a w
/-- A stepper axis that is absent. -/
def stpAbsent (a : Nat) (w : Work) : Bool := !stpPresent a w || stpLeftOut a w

/-- A node that takes part: found and expected, not passed over, not isolated. -/
def nodeIn (b : Bool) (id : Nat) (w : Work) : Bool :=
  let n := getNode b id w
  n.present && !n.isolated

/-- The nodes whose acknowledgement counts, rings in order (spec/11 R365, R369). -/
def nodesIn (w : Work) : List (Bool × Nat) :=
  (ringsUsed w).flatMap (fun b => ((getR b w).nodes.filter (fun kv => kv.2.present && !kv.2.isolated)).map
    (fun kv => (b, kv.1)))

/-- The unit sends ring traffic: not passive and not in role STANDBY (spec/01 R28). -/
def ringSends (b : Bool) (w : Work) : Bool :=
  let r := getR b w
  ringUsed b w && w.d.sys.cycOn && !r.passive && w.d.sys.role != .standby

/-! Words, bytes and CRC (spec/10 R315, R316). -/

/-- The nine bytes of a word pair (Table 10.3). -/
def pairBytes (a b : Word) : List Nat := bytesBE 9 (a.toNat * 2 ^ 36 + b.toNat)

/-- The bytes of a list of words, an odd one padded with a zero word. -/
def wordsBytes : List Word → List Nat
  | [] => []
  | [a] => pairBytes a 0
  | a :: b :: r => pairBytes a b ++ wordsBytes r

/-- The words of a list of bytes, nine at a time; n is the number of pairs. -/
def bytesWords : Nat → List Nat → List Word
  | 0, _ => []
  | n + 1, l =>
    let v := ofBytesBE (l.take 9)
    wd (v / 2 ^ 36) :: wd v :: bytesWords n (l.drop 9)

/-- The bytes of a frame of words: packed, with the CRC, least significant byte first. -/
def frameBytes (ws : List Word) : List Nat :=
  let b := wordsBytes ws
  b ++ bytesLE 4 (fcs b)

/-- The words of received bytes, where length and CRC are right. -/
def frameWords (l : List Nat) : Option (List Word) :=
  let n := l.length
  if n < 13 || (n - 4) % 9 != 0 then none
  else
    let b := l.take (n - 4)
    if bytesLE 4 (fcs b) == (l.drop (n - 4)).map (fun x => x % 256) then some (bytesWords ((n - 4) / 9) b) else none

/-! Headers (spec/10 Table 10.4). -/

def h0Class (h : Word) : Nat := fld h 32 4
def h0Mode (h : Word) : Nat := fld h 29 3
def h0Path (h : Word) : Bool := bit h 28
def h0Ring (h : Word) : Bool := bit h 27
def h0Looped (h : Word) : Bool := bit h 26
def h0Pairs (h : Word) : Nat := fld h 16 10
def h0Epoch (h : Word) : Nat := fld h 0 16

/-- The header words of a frame sent now. -/
def frameHeader (cls : Nat) (pathW ringB : Bool) (pairs : Nat) (w : Work) : List Word :=
  [wd (put 32 4 cls + put 29 3 (if w.d.trl.builtIn then 0 else w.d.sys.mode) + putB 28 pathW + putB 27 ringB
    + put 16 10 pairs + put 0 16 w.d.trl.epoch), w.d.phase.ncc]

/-! Trellis entries and slot entries (Tables 11.1, 11.2, 10.12). -/

def e0Valid (e : Word) : Bool := bit e 35
def e0Mode (e : Word) : Nat := fld e 32 3
def e0Ring (e : Word) : Bool := bit e 31
def e0Path (e : Word) : Bool := bit e 30
def e0Class (e : Word) : Nat := fld e 26 4
def e0Sub (e : Word) : Nat := fld e 23 3
def e0Every (e : Word) : Bool := bit e 22
def e0Guard (e : Word) : Nat := fld e 15 7
def e0Offset (e : Word) : Nat := fld e 0 15
def e1First (e : Word) : Nat := fld e 29 7
def e1Last (e : Word) : Nat := fld e 22 7
def e1Pairs (e : Word) : Nat := fld e 12 10
def e1Recw (e : Word) : Nat := fld e 8 4
def e1Rescue (e : Word) : Bool := bit e 7

/-- Words of trellis entry i (R349). -/
def trlEntry (i : Nat) (w : Work) : Word × Word := (rd (w.d.trl.base + 2 * i) w, rd (w.d.trl.base + 2 * i + 1) w)

/-- The entries of a mode (R350). -/
def modeEntries (m : Nat) (w : Work) : List (Word × Word) :=
  let r := modeRec m w
  (List.range r.count).map (fun k => trlEntry (r.first + k) w)

/-- Bank address of a slot-map entry (R352). -/
def smapAddr (b : Bool) (id m e : Nat) (w : Work) : Nat :=
  w.d.trl.smap + 32768 * ringKey b + 256 * id + 32 * m + 2 * e

/-- A block of a frame: node, word offset, length, and which of the node's entries of the class it is. -/
structure BlockAt where
  id : Nat
  wofs : Nat
  wlen : Nat
  k : Nat
deriving Repr

/-- The blocks a frame of an entry carries: ring positions FIRST to LAST, slot entries of its class (R352). -/
def frameBlocks (b : Bool) (m : Nat) (e0 e1 : Word) (w : Work) : List BlockAt :=
  let cls := e0Class e0
  let ps := ((getR b w).byPos.zipIdx 1).filter (fun p => e1First e1 ≤ p.2 && p.2 ≤ e1Last e1 && !p.1.2)
  ps.flatMap (fun p =>
    let id := p.1.1
    if !nodeIn b id w then []
    else
      let ns := (List.range 16).map (fun e => rd (smapAddr b id m e w) w)
      let ok := ns.filter (fun n => bit n 28 && fld n 32 4 == cls && (cls != 4 || fld n 29 3 == e0Sub e0))
      (ok.zipIdx).map (fun n => { id := id, wofs := fld n.1 14 14, wlen := fld n.1 0 12, k := n.2 }))

/-- Words of a list placed at an offset of a body. -/
def placeWords (o : Nat) (l ws : List Word) : List Word :=
  if o + l.length ≤ ws.length then ws.take o ++ l ++ ws.drop (o + l.length) else ws

/-- Send a frame and keep it until it returns (R358). -/
def ringSend (b pathW : Bool) (cls : Nat) (e0 e1 : Word) (body : List Word) (w : Work) : Work :=
  let body := if body.length % 2 == 1 then body ++ [0] else body
  let ws := frameHeader cls pathW b (body.length / 2) w ++ body
  let w := send (.ring b pathW (frameBytes ws)) w
  modR b (fun r => { r with sent := r.sent ++
    [{ pathW := pathW, cls := cls, ncc := w.d.phase.ncc, words := ws, e0 := e0, e1 := e1 }] }) w

/-- The unit takes its place on both rings as a standby: it has no position yet, and a port that is down is out of use
(spec/13 R410, spec/10 R345). -/
def nodesStart (w : Work) : Work :=
  each [false, true] (fun b w => modR b (fun r => { r with
    passive := true, node := { lost0 := !r.p0.up, lost1 := !r.p1.up, lastSync := w.d.ptm.frc } }) w) w

/-- Key of an image word of a node. -/
def imgKey (b : Bool) (id k : Nat) : Nat := (128 * ringKey b + id) * 4096 + k

/-- The point of an index, with its node. -/
def pointOf (p : Nat) (w : Work) : Option (MapNode × MapPoint) :=
  (imageOf w).nodes.findSome? (fun n => (n.points.find? (fun q => q.index == p)).map (fun q => (n, q)))

/-- A point the map does not define, or of a node left out (R380). -/
def pointAbsent (p : Nat) (w : Work) : Bool := (pointOf p w).all (fun x => nodeLeftOut x.1 w)

/-- Value of a point in its image word. -/
def pointRead (n : MapNode) (q : MapPoint) (w : Work) : Word :=
  let t := if q.output then w.d.trl.outImg else w.d.trl.inImg
  wd (fld (tabGet 0 t (imgKey n.ringB n.id q.word)) q.lo q.width)

/-- Write a value into an output point of the image (spec/01 R653). -/
def pointWrite (n : MapNode) (q : MapPoint) (v : Nat) (w : Work) : Work :=
  let k := imgKey n.ringB n.id q.word
  let o := tabGet 0 w.d.trl.outImg k
  let keep := o &&& ~~~(wd (put q.lo q.width (2 ^ 36 - 1)))
  { w with d.trl.outImg := tabSet 0 w.d.trl.outImg k (keep ||| wd (put q.lo q.width v)) }

/-- The next cycle at or after n that is an I/O start of a node (spec/01 R23). -/
def ioStart (div n : Nat) (w : Work) : Nat :=
  let m := slowS w * max 1 div
  cdiv n m * m

end Sys2Proof.Machine
end

