-- ==== Sys2Proof/Machine/Modes.lean ====
section
/-! DEFINITION. Modes: mode proposals, breaks and heals, isolation of a node, and the change of mode at a sync point
(spec/11 R363 to R376, R646, R650). -/

namespace Sys2Proof.Machine

/-! Proposals (R364 to R366). -/

/-- Offer a proposal: nobody has acknowledged it yet (R364). -/
def propose (p : Proposal) (w : Work) : Work :=
  let w := { w with d.trl.prop := some p, d.trl.propN := p.n }
  each [false, true] (fun b w => modR b (fun r => { r with
    nodes := r.nodes.map (fun kv => (kv.1, { kv.2 with acked := false })) }) w) w

/-- Withdraw the pending proposal: its command completes LATE_REFUSED and MODE_ABORT names the first node that did not
acknowledge, or 0 (R365, R373). PROP_ABORT is carried where the decision itself aborts. -/
def dropProposal (node : Nat) (carried : Bool) (w : Work) : Work :=
  match w.d.trl.prop with
  | none => w
  | some p =>
    let w := { w with
      d.trl.prop := none, d.trl.aborted := true, d.trl.abort := if carried then some p else w.d.trl.abort
      d.sys.trans := false, d.phase.rateNext := none }
    let w := match p.revision with | some g => { w with d.age.retry := some g } | none => w
    let w := report p.cmd { status := stLate, detail := 0x05 } w
    logEvent .trl 0 3 node w

/-- A whole ring is the topology of mode m for ring b (Table 11.6). -/
def modeWhole (b : Bool) (m : Nat) : Bool := !(m == 3 || (m == 1 && !b) || (m == 2 && b))

/-- The node at a ring position is isolated: its neighbours stay looped, since it rejoins only at the next DISCOVER (R376,
log 103). -/
def isolatedAt (b : Bool) (pos : Nat) (w : Work) : Bool :=
  (getR b w).nodes.any (fun kv => kv.2.isolated && kv.2.pos == pos)

/-- UNLOOP to the looping nodes of a ring that becomes whole, in the last frames of cycle N - 1 (R375). -/
def unloopSends (b : Bool) (n1 : Word) (w : Work) : Work :=
  let r := getR b w
  let node := fun (pos : Nat) => ((r.byPos[pos - 1]?).map (fun x => x.1)).getD 0
  let x := fun (pos port : Nat) (pw : Bool) => if pos == 0 then [] else
    [({ pathW := pw, dst := node pos, svc := 7, arg := wd (1 + 16 * port), cyc := some n1 } : AXfer)]
  let e := if isolatedAt b (r.loopE + 1) w then [] else x r.loopE 1 false
  let v := if isolatedAt b (r.loopW - 1) w then [] else x r.loopW 0 true
  modR b (fun r => { r with acyc := r.acyc ++ e ++ v }) w

/-- A decision of higher rank in cycle N - 2 displaces the switch, agreed in that cycle or still to be decided: it is aborted
as R365 says, and the UNLOOP transfers of the agreement are not sent (spec/01 R31, R365). -/
def displaceSwitch (w : Work) : Work :=
  match w.d.trl.prop with
  | none => w
  | some p =>
    if nccPlus 2 w != p.n then w
    else
      dropProposal 0 true (each [false, true] (fun b w => modR b (fun r => { r with
        acyc := r.acyc.filter (fun x => !(x.svc == 7 && bit x.arg 0 && x.cyc == some (p.n - 1))) }) w) w)

/-- PROPOSAL_DECISION in cycle N - 2 (R365): agreed when every node that counts has acknowledged. -/
def proposalDecide (w : Work) : Work :=
  match w.d.trl.prop with
  | none => w
  | some p =>
    if p.agreed || nccPlus 2 w != p.n then w
    else
      match (nodesIn w).find? (fun x => !(getNode x.1 x.2 w).acked) with
      | some x => dropProposal x.2 true w
      | none =>
        let w := { w with
          d.trl.prop := some { p with agreed := true }, d.phase.rateNext := some (p.n, (modeRec p.mode w).rate) }
        let w := abortArmed w
        each (ringsUsed w) (fun b w => if (getR b w).line && modeWhole b p.mode then unloopSends b (p.n - 1) w else w) w

/-- PROPOSAL_DECISION (R365). -/
def execProposalDecision (s : State) : Host.Outcome State Fault Refusal := run proposalDecide s

/-! The change of mode (R366, R367, R26, R203). -/

/-- Furrow unit of the axis at place j of an order. -/
def unitAt (w : Work) (l : List Nat) (a : Nat) : Nat := l.idxOf a % numCE w.variant % numFD w.variant

/-- The axis has an enabled tap. -/
def hasTap (a : Nat) (w : Work) : Bool := (List.range 4).any (fun t => tapEn a t w)

/-- Take the schedule, rate and engine assignment of mode m at the present sync point. -/
def applyMode (m : Nat) (w : Work) : Work :=
  let r := modeRec m w
  let new := tabGet [] w.d.ce.orders m
  let s := 2 ^ r.slowl
  let w := { w with
    d.sys.mode := m, d.sys.rate := r.rate, d.sys.slowDiv := s, d.trl.builtIn := false, d.trl.statOn := false
    d.ce.order := new, d.phase.rateNext := none, d.trl.slowFrom := wd (cdiv (nccN w) s * s)
    d.age.guardA := w.d.age.planA, d.age.guardB := w.d.age.planB, d.age.exhRunA := false, d.age.exhRunB := false
    d.age.retry := none }
  let w := each new (fun a w =>
    let (sd, rdl) := tabGet (0, 0) w.d.ce.deadlines (256 * m + a)
    modCe a (fun x => { x with startDl := sd, resDl := rdl }) w) w
  each new (fun a w =>
    let x := getCe a w
    let n := unitAt w new a
    let w := modCe a (fun x => { x with fdUnit := some n }) w
    if x.enabled && hasTap a w && x.fdUnit.isSome && x.fdUnit != some n then
      logEvent .ce a 7 0 (modCe a (fun x => { x with tapInit := true, dspInit := true }) w)
    else w) w

/-- A ring is whole again: its looped ports come back into use (R375). -/
def wholeAgain (b : Bool) (w : Work) : Work :=
  modR b (fun r => { r with
    line := false, loopE := 0, loopW := 0, broken := false
    p0 := { r.p0 with out := r.p0.out && isolatedAt b 1 w }
    p1 := { r.p1 with out := r.p1.out && isolatedAt b r.byPos.length w } }) w

/-- A ring uses its revised guard from here (spec/19 R589). -/
def guardRevised (b : Bool) (old new : Nat) (w : Work) : Work :=
  if new == old then w
  else
    let w := if b then { w with d.age.guardB := new } else { w with d.age.guardA := new }
    logEvent .age (if b then 1 else 0) 3 (put 7 7 old + put 0 7 new) w

/-- The agreed switch at its sync point N (R366). A ring that is still broken breaks again in the new mode (R370, R375). -/
def switchMode (w : Work) : Work :=
  match w.d.trl.prop with
  | none => w
  | some p =>
    if !p.agreed || w.d.phase.ncc != p.n then w
    else
      let old := w.d.sys.mode
      let w := { w with d.trl.prop := none, d.sys.trans := false }
      match p.revision with
      | some g =>
        guardRevised true w.d.age.guardB g.2 (guardRevised false w.d.age.guardA g.1 w)
      | none =>
        let w := each (ringsUsed w) (fun b w =>
          if (getR b w).line && modeWhole b p.mode then wholeAgain b w
          else modR b (fun r => { r with broken := r.line && r.broken }) w) (applyMode p.mode w)
        let w := match p.target with | some t => setState t w | none => w
        let w := report p.cmd { status := stOK, eff := some p.n } w
        logEvent .trl 0 2 (put 4 3 old + put 0 3 p.mode) w

/-! Breaks and heals (R368 to R374, R650). -/

/-- The healed mode for breaks of the rings in mode m; none where the heal plan does not cover them (R368, R646, R650,
spec/13 R413). -/
def healTarget (m : Nat) (a b : Bool) (w : Work) : Option Nat :=
  if !(modeRec m w).hsrc then none
  else if m == 4 then some 4
  else if m == 1 then (if b && !a then some 3 else none)
  else if m == 2 then (if a && !b then some 3 else none)
  else if m == 0 || m == 6 || m == 7 then
    if a && b then (if (modeRec 3 w).valid then some 3 else some 1)
    else if a then some 1
    else if b then some 2 else none
  else none

/-- A break that no heal covers (R374): RECOVERY from RUN. -/
def uncovered (w : Work) : Work := if w.d.sys.st == .run then setState .recovery w else w

/-- The mode a heal decided now would start from (R373). -/
def healFrom (w : Work) : Nat :=
  match w.d.trl.prop with
  | some p => if p.agreed && p.revision.isNone then p.mode else w.d.sys.mode
  | none => w.d.sys.mode

/-- A break of ring b is detected in the present cycle (R370, R371, R373, R374, R650). A heal decided in it displaces a
switch decided in it (spec/01 R31, R365). -/
def breakFound (b : Bool) (w : Work) : Work :=
  let r := getR b w
  let live := w.d.sys.st == .commission || w.d.sys.st == .run || w.d.sys.st == .recovery || w.d.sys.st == .safeLock
  if !live || w.d.trl.builtIn || r.broken then w
  else
    let w := modR b (fun r => { r with broken := true }) w
    if w.d.trl.heal.isSome then
      if b then { w with d.trl.laterB := true } else { w with d.trl.laterA := true }
    else
      let w := logEvent (ringBlk b) 0 8 (putB 35 b) w
      let m := healFrom (displaceSwitch w)
      let a' := w.d.trl.brkA || !b
      let b' := w.d.trl.brkB || b
      match healTarget m a' b' w with
      | none => uncovered w
      | some t =>
        let alone := t == 1 && a' && b'
        if alone && b then uncovered w
        else
          let w := displaceSwitch w
          let w := if b then { w with d.trl.brkB := true } else { w with d.trl.brkA := true }
          let w := if alone && w.d.trl.brkB then uncovered { w with d.trl.brkB := false } else w
          let w := modR b (fun r => { r with rescueTo := some (nccPlus 1 w) }) w
          let w := abortArmed w
          match w.d.trl.prop with
          | some p => if p.agreed then w else dropProposal 0 false w
          | none => w

/-- The heal marker of the breaks of the cycle that ends: sent in the SYNC frames from the present sync point, the switch
at the next one (R371). -/
def healMark (w : Work) : Work :=
  let a := w.d.trl.brkA
  let b := w.d.trl.brkB
  if !(a || b) then w
  else
    let w := { w with d.trl.brkA := false, d.trl.brkB := false }
    match healTarget w.d.sys.mode a b w with
    | some m => { w with
        d.trl.heal := some { mode := m, at_ := nccPlus 1 w }
        d.phase.rateNext := some (nccPlus 1 w, (modeRec m w).rate) }
    | none => uncovered w

/-- The heal at its sync point: every broken ring is a line from here, and breaks found since then count now (R371,
R650). -/
def healSwitch (w : Work) : Work :=
  match w.d.trl.heal with
  | none => w
  | some h =>
    if w.d.phase.ncc != h.at_ then w
    else
      let la := w.d.trl.laterA
      let lb := w.d.trl.laterB
      let w := applyMode h.mode { w with d.trl.heal := none, d.trl.laterA := false, d.trl.laterB := false }
      let w := each [false, true] (fun b w =>
        let later := if b then lb else la
        if (getR b w).broken && !later then modR b (fun r => { r with line := true, broken := false, rescueTo := none }) w
        else modR b (fun r => { r with broken := if later then false else r.broken }) w) w
      let w := logEvent .trl 0 4 0 w
      when_ lb (breakFound true) (when_ la (breakFound false) w)

/-! Isolation (R376). -/

/-- Isolate a node in the present cycle: LOOP to its neighbours in the next cycle, and a break detected now. -/
def isolate (b : Bool) (id : Nat) (w : Work) : Work :=
  let n := getNode b id w
  if n.isolated || n.pos == 0 then w
  else
    let r := getR b w
    let at1 := nccPlus 1 w
    let idAt := fun (p : Nat) => ((r.byPos[p - 1]?).map (fun x => x.1)).getD 0
    let cnt := r.byPos.length
    let up : List AXfer := if n.pos ≤ 1 then [] else
      [{ pathW := false, dst := idAt (n.pos - 1), svc := 7, arg := wd (0 + 16), cyc := some at1 }]
    let dn : List AXfer := if cnt ≤ n.pos then [] else
      [{ pathW := true, dst := idAt (n.pos + 1), svc := 7, arg := wd 0, cyc := some at1 }]
    let w := setNode b id { n with isolated := true } w
    let w := modR b (fun r => { r with
      acyc := r.acyc ++ up ++ dn, isolPos := n.pos, loopE := n.pos - 1,
      loopW := if cnt ≤ n.pos then 0 else n.pos + 1
      isolAt := some (nccPlus 2 w, decide (n.pos ≤ 1), decide (cnt ≤ n.pos)) }) w
    let w := logEvent (ringBlk b) id 7 0 w
    breakFound b w

/-- The controller's own ports go out of use two sync points after the decision (R376). -/
def isolPorts (w : Work) : Work :=
  each [false, true] (fun b w =>
    match (getR b w).isolAt with
    | some (c, o0, o1) =>
      if w.d.phase.ncc == c then
        modR b (fun r => { r with
          isolAt := none, p0 := { r.p0 with out := r.p0.out || o0 }, p1 := { r.p1 with out := r.p1.out || o1 } }) w
      else w
    | none => w) w

/-- The words of TRL_MODEm (Table 11.18). -/
def trlModeWord (m : Nat) (w : Work) : Word :=
  let r := modeRec m w
  wd (putB 35 (modeHeld m w) + putB 34 r.hsrc + put 31 3 r.rate + put 29 2 r.slowl + put 14 15 r.count + put 0 14 r.first)

/-- TRL_STAT (Table 11.14). -/
def trlStatWord (w : Work) : Word :=
  let t := w.d.trl
  wd (putB 17 t.heal.isSome + putB 16 t.prop.isSome + put 13 3 ((t.prop.map (fun p => p.mode)).getD 0)
    + putB 12 t.aborted + putB 11 (getR true w).line + putB 10 (getR false w).line + putB 9 t.invalid
    + put 5 4 t.invCond + put 2 3 t.invMode)

/-- The registers of R383 take the values of the present sync point. -/
def ringShow (w : Work) : Work :=
  { w with
    d.dqShown := w.d.dq, d.trl.shownStat := trlStatWord w
    d.trl.shownModes := (List.range 8).map (fun m => trlModeWord m w) }

/-- Every node that counts acknowledges the heal plan (R369). -/
def allAck (w : Work) : Bool := w.d.trl.offered && (nodesIn w).all (fun x => (getNode x.1 x.2 w).hpAck)

end Sys2Proof.Machine
end

