-- ==== Sys2Proof/Machine/Thermal.lean ====
section
/-! DEFINITION. Die thermal states and the task dispatcher (spec/12 R397 to R407). -/

namespace Sys2Proof.Machine

def thermCode : Therm → Nat | .full => 0 | .trim => 1 | .lean => 2 | .hold => 3

/-- The next thermal state at temperature t (Table 12.4): a rise goes straight up, a fall moves one state. -/
def thermNext (s : Therm) (t : Int) : Therm :=
  if 112 ≤ t then .hold
  else
    match s with
    | .full => if 105 ≤ t then .lean else if 95 ≤ t then .trim else .full
    | .trim => if 105 ≤ t then .lean else if t < 90 then .full else .trim
    | .lean => if t < 100 then .trim else .lean
    | .hold => if t < 107 then .lean else .hold

/-- Cores awake in a thermal state (Table 12.5). -/
def thermAwake : Therm → BitVec 4 | .full => 0xF | .trim => 0xF | .lean => 0x3 | .hold => 0x1

/-- Dispatch goes by affinity in LEAN and HOLD (R406). -/
def byAffinity (s : Therm) : Bool := s == .lean || s == .hold

/-- Background tasks and mask tests run in FULL only (Table 12.5). -/
def background (w : Work) : Bool := w.d.therm.state == .full

/-- Temperature band of the ledger (spec/19 Table 19.3, words 54 to 61). -/
def tempBand (t : Int) : Nat :=
  if t < 25 then 0 else if t < 45 then 1 else if t < 65 then 2 else if t < 85 then 3 else if t < 95 then 4
  else if t < 105 then 5 else if t < 115 then 6 else 7

/-- The ledger takes a sample, one millisecond of the governing temperature (spec/19 Table 19.1). -/
def ageTemp (t : Int) (w : Work) : Work :=
  let k := tempBand t
  { w with
    d.age.tempMs := w.d.age.tempMs.set k (nth 0 w.d.age.tempMs k + 1)
    d.age.tPeak := if w.d.age.tPeak.toInt < t then BitVec.ofInt 9 t else w.d.age.tPeak }

/-- THERMAL_SAMPLE: the four sensors' values in degrees (R397, R398). -/
def thermalSample (s0 s1 s2 s3 : BitVec 9) (w : Work) : Work :=
  let t := max (max s0.toInt s1.toInt) (max s2.toInt s3.toInt)
  let old := w.d.therm.state
  let new := thermNext old t
  let w := ageTemp t { w with d.therm.sens := [s0, s1, s2, s3], d.therm.tmax := BitVec.ofInt 9 t }
  if new = old then w
  else
    let w := { w with d.therm.state := new, d.therm.prev := old, d.tdu.awake := thermAwake new }
    irq 13 (logEvent .pwr 0 1 (put 8 9 (BitVec.ofInt 9 t).toNat + put 4 2 (thermCode old) + put 0 2 (thermCode new)) w)

/-! The task dispatcher. -/

/-- Jobs at a level. -/
def tduLevel (n : Nat) (w : Work) : List Job := nth [] w.d.tdu.levels n

/-- A job of this level would be refused: the level is full, or admission jobs hold 48 entries of level 7 (R403, R407). -/
def tduFull (n : Nat) (w : Work) : Bool :=
  let l := tduLevel n w
  decide (64 ≤ l.length) || (n == 7 && decide (48 ≤ cnt (fun j => j.packet != 0) l))

/-- Enqueue a job, or count the refusal (R407). -/
def tduEnqueue (n : Nat) (j : Job) (w : Work) : Bool × Work :=
  if tduFull n w then
    let (c, sat) := satInc 0xFFFFFFFF w.d.tdu.refuse
    let first := !w.d.tdu.fullRun.getLsbD n
    let w := { w with d.tdu.refuse := c, d.tdu.sat := w.d.tdu.sat || sat, d.tdu.fullRun := bvPut n true w.d.tdu.fullRun }
    let w := when_ sat (logCntSat .tdu 0 0x30020 0) w
    (false, when_ first (logEvent .tdu 0 1 n) w)
  else
    let l := tduLevel n w ++ [j]
    (true, { w with
      d.tdu.levels := w.d.tdu.levels.set n l, d.tdu.peaks := w.d.tdu.peaks.set n (max (nth 0 w.d.tdu.peaks n) l.length)
      d.tdu.fullRun := bvPut n false w.d.tdu.fullRun })

/-- The packet's admission is over: its job leaves the levels. -/
def tduDone (packet : Nat) (w : Work) : Work :=
  { w with d.tdu.levels := w.d.tdu.levels.map (fun l => l.filter (fun j => j.packet != packet || packet == 0)) }

/-- The core a job is given to under affinity; none gives it to any awake core (R406). -/
def tduCore (j : Job) (w : Work) : Option Nat :=
  if w.d.therm.state == .hold then some 0
  else
    match tabGet 0 w.d.tdu.lastCore (j.key % 256) with
    | 0 => none
    | k + 1 => if w.d.tdu.awake.getLsbD k then some k else some (k % 2)

/-- The oldest job of the highest level that core c may take. -/
def tduPick (c : Nat) (w : Work) : Option (Nat × Job) :=
  let ok := fun (j : Job) => !byAffinity w.d.therm.state || (match tduCore j w with | some k => k == c | none => true)
  (List.range 8).reverse.findSome? (fun n => ((tduLevel n w).find? ok).map (fun j => (n, j)))

/-- TDU_DISPATCH: core c is awake and idle and takes a job (R404, R406). -/
def tduDispatch (c : Nat) (w : Work) : Work :=
  if !w.d.tdu.awake.getLsbD c then w
  else
    match tduPick c w with
    | none => w
    | some (n, j) =>
      { w with
        d.tdu.levels := w.d.tdu.levels.set n ((tduLevel n w).erase j)
        d.tdu.lastCore := if byAffinity w.d.therm.state then tabSet 0 w.d.tdu.lastCore (j.key % 256) (c + 1)
          else w.d.tdu.lastCore }

/-- THERMAL_SAMPLE (R398). -/
def execThermalSample (s0 s1 s2 s3 : BitVec 9) (s : State) : Host.Outcome State Fault Refusal :=
  run (thermalSample s0 s1 s2 s3) s

/-- TDU_DISPATCH to core c (R404). -/
def execTduDispatch (c : Fin 4) (s : State) : Host.Outcome State Fault Refusal := run (tduDispatch c) s

end Sys2Proof.Machine
end

