-- ==== Sys2Proof/Machine/Ring.lean ====
section
/-! DEFINITION. Frames of the rings: the SYNC frames, the departure of an entry's frame, the reception of a frame with the
checks of its blocks, ACYC answers, ports and breaks (spec/10 R319 to R331, R348, spec/11 R351 to R361, R370, R382,
spec/04 R130, spec/03 R651). -/

namespace Sys2Proof.Machine

/-! SYNC (spec/10 R319). -/

/-- log2 of the slow-group length in force. -/
def slowLog (w : Work) : Nat := Nat.log2 (slowS w)

/-- PROP_ABORT is carried in cycles N - 1 to N + 1 of an aborted proposal (spec/11 R365). -/
def abortCarried (w : Work) : Option Proposal :=
  match w.d.trl.abort with
  | some p => let d := modDiff w.d.phase.ncc p.n; if decide (-1 ≤ d) && decide (d ≤ 1) then some p else none
  | none => none

/-- The SYNC body (spec/10 Table 10.6). A proposal is carried up to N - 1. -/
def syncBody (w : Work) : List Word :=
  let t := w.d.trl
  let prop := t.prop.filter (fun p => decide (modDiff w.d.phase.ncc p.n < 0))
  let ab := abortCarried w
  let named := prop.orElse (fun _ => ab)
  [wd (put 32 4 (stCode w.d.sys.st) + put 29 3 w.d.sys.rate + put 27 2 (slowLog w) + putB 26 t.heal.isSome
     + put 23 3 ((t.heal.map (fun h => h.mode)).getD 0) + putB 22 prop.isSome
     + put 19 3 ((named.map (fun p => p.mode)).getD 0) + putB 18 ab.isSome + putB 17 t.offered
     + putB 16 w.d.sys.domain),
   ((named.map (fun p => p.n)).getD 0),
   wd (put 32 4 w.d.boot.unitId + put 30 2 (roleCode w.d.sys.role)), 0]

/-- The port a path leaves by is in use. -/
def pathOpen (b pathW : Bool) (w : Work) : Bool :=
  let r := getR b w
  ringSends b w && ringClk b w && refRuns w && !(if pathW then r.p1.out else r.p0.out)

/-- The SYNC frames of a cycle on both paths of both rings. -/
def syncFrames (w : Work) : Work :=
  each (ringsUsed w) (fun b w => each [false, true] (fun pw w =>
    if pathOpen b pw w then ringSend b pw 1 0 0 (syncBody w) w else w) w) w

/-! Departure (spec/11 R351, R352). -/

/-- Words of a scatter block: control word and one record per axis, VALID clear where none is ready (R322, spec/01
R18). -/
def scatterBlock (n : MapNode) (w : Work) : List Word :=
  wd (putB 35 true + put 28 7 n.id) :: n.axes.flatMap (fun a =>
    match (getCe a w).ready with
    | some s => [fToWord s.tref, wd (putB 35 s.valid + putB 34 s.enable), s.spPos, fToWord s.spVel]
    | none => [0, 0, 0, 0])

/-- Words of a slow block as the controller sends it (R323). -/
def slowBlock (n : MapNode) (w : Work) : List Word :=
  [wd (put 28 7 n.id), 0]
    ++ n.steppers.flatMap (fun a => [(getStp a w).ref0, (getStp a w).ref1])
    ++ (List.range n.outWords).map (fun k => tabGet 0 w.d.trl.outImg (imgKey n.ringB n.id k))
    ++ List.replicate (2 * n.steppers.length + n.inWords) 0

/-- The container of a SAFETY block: even blocks of a node go to it, odd ones come from it, one pair per connection (R331,
log 39). -/
def safetyBlock (n : MapNode) (blk : BlockAt) (w : Work) : List Word × Work :=
  let c := nth 0 n.conns (blk.k / 2)
  let len := blk.wlen - 1
  if blk.k % 2 == 1 then ([wd (put 28 7 n.id + put 22 6 c + putB 21 true + put 13 8 len)], w)
  else
    match w.d.hdg.fromHedge.find? (fun m => m.1 == n.ringB && m.2.1 == c) with
    | some m =>
      let l := w.d.hdg.fromHedge.erase m
      (wd (putB 35 true + put 28 7 n.id + put 22 6 c + put 13 8 m.2.2.length) :: m.2.2.take len,
        { w with d.hdg.fromHedge := l })
    | none => ([wd (put 28 7 n.id + put 22 6 c)], w)

/-- Fill one block of a frame's body. -/
def fillBlock (cls : Nat) (b : Bool) (k : BlockAt) (x : List Word × Work) : List Word × Work :=
  let (body, w) := x
  match mapNode b k.id w with
  | none => (body, w)
  | some n =>
    match cls with
    | 2 => (placeWords k.wofs [wd (put 28 7 n.id)] body, w)
    | 3 =>
      let late := n.axes.filter (fun a => (getCe a w).ready.isNone)
      let blk := scatterBlock n w
      (placeWords k.wofs blk body, each late resultDeadline w)
    | 4 =>
      let w := each n.steppers (fun a w => modStp a (fun s => { s with exchanged := true }) w) w
      (placeWords k.wofs (slowBlock n w) body, w)
    | 6 => let (l, w) := safetyBlock n k w; (placeWords k.wofs l body, w)
    | _ => (body, w)

/-- Words of a transfer (R324). -/
def xferWords (x : AXfer) : List Word :=
  let n := x.rwords + x.rwords % 2
  [wd (put 28 7 x.dst + put 24 4 x.svc + put 12 12 x.tag + put 0 8 n), x.arg]
    ++ (x.words ++ List.replicate n 0).take n

/-- A transfer may leave in this frame. -/
def xferReady (pw : Bool) (w : Work) (x : AXfer) : Bool :=
  !x.sent && x.pathW == pw && (match x.cyc with | some c => c == w.d.phase.ncc | none => true)

/-- Take the transfers of a frame, in order, up to its room in words. -/
def takeXfers (pw : Bool) (room : Nat) (b : Bool) (w : Work) : List Word × Work :=
  let r := getR b w
  let step := fun (acc : List AXfer × List Word × Nat) (x : AXfer) =>
    let (keep, out, tag) := acc
    if xferReady pw w x && decide (out.length + (xferWords x).length ≤ room) then
      let tag := if x.tag == 0 then tag % 4095 + 1 else tag
      let x := if x.tag == 0 then { x with tag := tag } else x
      (if x.kind == .plain then keep else keep ++ [{ x with sent := true }], out ++ xferWords x, tag)
    else (keep ++ [x], out, tag)
  let stat : List AXfer := if w.d.trl.statOn && w.d.trl.builtIn && !pw then
    [{ kind := .stat, dst := 127, svc := 8, rwords := 252 }] else []
  let (keep, out, tag) := (stat ++ r.acyc.filter (fun x => stat.isEmpty || x.kind != .stat)).foldl step ([], [], r.nextTag)
  (out, setR b { r with acyc := keep, nextTag := tag } w)

/-- Entry i belongs to the mode in force and its frame leaves in this cycle (spec/11 R350, R351, R367, R371). -/
def entryDue (i : Nat) (w : Work) : Bool :=
  let m := modeRec w.d.sys.mode w
  let (e0, e1) := trlEntry i w
  let r := getR (e0Ring e0) w
  decide (m.first ≤ i) && decide (i < m.first + m.count) && e0Valid e0 && e0Mode e0 == w.d.sys.mode
    && (e0Every e0 || e0Sub e0 == nccN w % slowS w)
    && (e0Class e0 != 4 || atOrPast w.d.phase.ncc w.d.trl.slowFrom)
    && (!e1Rescue e1 || (match r.rescueTo with | some c => decide (modDiff w.d.phase.ncc c ≤ 0) | none => false))

/-- FRAME_DEPARTURE of trellis entry i, or of the ACYC frame of the built-in schedule on a ring and path (R361). SYNC
frames leave at the sync point itself. -/
def frameDeparture (b pw : Bool) (i : Nat) (w : Work) : Work :=
  if w.d.trl.builtIn then
    if pathOpen b pw w then
      let (out, w) := takeXfers pw 512 b w
      ringSend b pw 5 0 0 out w
    else w
  else
    let (e0, e1) := trlEntry i w
    let b := e0Ring e0
    let pw := e0Path e0
    let cls := e0Class e0
    if !entryDue i w || cls == 1 || !pathOpen b pw w then w
    else guardReads (26 + ringKey b) [(w.d.trl.base + 2 * i, 2)] (fun w =>
      if cls == 5 then
        let (out, w) := takeXfers pw (2 * e1Pairs e1) b w
        ringSend b pw 5 e0 e1 out w
      else
        let blank := List.replicate (2 * e1Pairs e1) (0 : Word)
        let (body, w) := each (frameBlocks b w.d.sys.mode e0 e1 w) (fillBlock cls b) (blank, w)
        ringSend b pw cls e0 e1 body w) w

/-! Counters of the controllers. -/

/-- Register offset of a ring's registers. -/
def dqBase (b : Bool) : Nat := if b then 0xD8000 else 0xD0000

/-- Count a frame discarded for CRC or /V/ (spec/10 R348, R52). -/
def countRcrc (b p1 : Bool) (w : Work) : Work :=
  let r := getR b w
  let p := if p1 then r.p1 else r.p0
  let (n, sat) := satInc 0xFFFFFFFF p.rcrc
  let p := { p with rcrc := n, rcrcSat := p.rcrcSat || sat }
  let w := setR b (if p1 then { r with p1 := p } else { r with p0 := p }) w
  when_ sat (logCntSat (ringBlk b) (if p1 then 1 else 0) (dqBase b + 0x101 + (if p1 then 0x10 else 0)) 0) w

/-- A babbling offence charged to a node (spec/11 Table 11.5, R359). -/
def babble (b : Bool) (id : Nat) (w : Work) : Work :=
  let n := getNode b id w
  if n.pos == 0 then w
  else
    let (c, sat) := satInc 3 n.babble
    let w := setNode b id { n with babble := c, babbleSat := n.babbleSat || sat, offences := n.offences + 1 } w
    let w := when_ sat (logCntSat (ringBlk b) id (dqBase b + 0x1001 + 4 * id) 0) w
    let w := logEvent (ringBlk b) id 5 0 w
    when_ (n.offences + 1 == 3) (isolate b id) w

/-- An ACYC frame of the mode in force can carry a TIME transfer on a ring and path. -/
def timeFits (b pw : Bool) (w : Work) : Bool :=
  (modeEntries w.d.sys.mode w).any (fun e =>
    e0Valid e.1 && e0Class e.1 == 5 && e0Ring e.1 == b && e0Path e.1 == pw && decide (127 ≤ e1Pairs e.2))

/-- Queue the TIME transfers of a ring, one on each path whose ACYC frames have room (spec/11 R382). -/
def queueTime (b : Bool) (w : Work) : Work :=
  if w.d.trl.builtIn || !ringSends b w || (getR b w).acyc.any (fun x => x.kind == .time) then w
  else
    let paths := [false, true].filter (fun pw => timeFits b pw w)
    modR b (fun r => { r with acyc := r.acyc ++ paths.map (fun pw =>
      { kind := .time, pathW := pw, dst := 127, svc := 5, arg := if pw then 1 else 0, rwords := 252 }) }) w

/-- Queue them on every ring (spec/11 R382). -/
def queueTimes (w : Work) : Work := each (ringsUsed w) queueTime w

/-! Blocks (spec/11 R356, R357). -/

/-- Latency from the sending port round to the receiving port (R353): the path's own on a whole ring, else by way of the
node that turns the path back. -/
def returnLatency (b pw p1 : Bool) (w : Work) : Nat :=
  let r := getR b w
  let node := fun (pos : Nat) => ((r.byPos[pos - 1]?).map (fun x => getNode b x.1 w)).getD {}
  if pw then
    if !p1 then r.lamW
    else let n := node r.loopW; n.dlyW + n.fwdW / 2 + (r.lamE - n.dlyE - n.fwdE / 2)
  else
    if p1 then r.lamE
    else let n := node r.loopE; n.dlyE + n.fwdE / 2 + (r.lamW - n.dlyW - n.fwdW / 2)

/-- The ledger takes the insertion error of every block (spec/19 Table 19.1). -/
def ageError (b : Bool) (e : Int) (w : Work) : Work :=
  let k := e.natAbs
  if b then { w with d.age.eSecB := max k w.d.age.eSecB, d.age.eHourB := max k w.d.age.eHourB }
  else { w with d.age.eSecA := max k w.d.age.eSecA, d.age.eHourA := max k w.d.age.eHourA }

/-- The checks of Table 11.5 on a block: its first word, the insertion error, the guard time; true where it is used. -/
def blockCheck (b : Bool) (id : Nat) (first : Word) (e : Int) (g : Nat) (w : Work) : Bool × Work :=
  let n := getNode b id w
  let marg : Int := g - e.natAbs
  let low := fun (o : Option Int) => match o with | some m => some (min m marg) | none => some marg
  if fld first 28 7 != id then (false, babble b (fld first 28 7) w)
  else if !bit first 35 then (false, w)
  else
    let n := { n with minMarg := low n.minMarg }
    let w := ageError b e w
    let n := { n with seenNow := true }
    if decide (g < e.natAbs) then
      let w := setNode b id { n with late := true, lateRun := true } w
      (false, when_ (!n.lateRun) (logEvent (ringBlk b) id 4 0) w)
    else if decide (g < 2 * e.natAbs) then
      let (c, sat) := satInc 0xFFFF n.mlow
      let w := setNode b id { n with
        mlow := c, mlowSat := n.mlowSat || sat, lateRun := false, mlowNow := true, hourMarg := low n.hourMarg } w
      let w := when_ sat (logCntSat (ringBlk b) id (dqBase b + 0x1001 + 4 * id) 0) w
      (true, when_ (!n.mlowRun && !n.mlowNow) (fun w => queueTimes (logEvent (ringBlk b) id 3 0 w)) w)
    else (true, setNode b id { n with lateRun := false, hourMarg := low n.hourMarg } w)

/-- The header of a gather block or a STAT answer: acknowledgements, heal plan, lost ports (R365, R369, R370). -/
def nodeStatus (b : Bool) (id : Nat) (g0 g1 : Word) (w : Work) : Work :=
  let n := getNode b id w
  let ackOk := match w.d.trl.prop with
    | some p => bit g0 27 && fld g0 24 3 == p.mode && fld g1 24 12 == p.n.toNat % 4096
    | none => false
  let d0 := bit g0 22 && !bit n.g0 22
  let d1 := bit g0 21 && !bit n.g0 21
  let newDown := d0 || d1
  let r := getR b w
  let cut := r.line || r.broken
  let endE := n.pos == r.loopE || (r.loopE == 0 && (r.loopW == 0 || n.pos + 1 == r.loopW))
  let endW := n.pos == r.loopW || (r.loopW == 0 && (r.loopE == 0 || n.pos == r.loopE + 1))
  let atEnd := cut && (!d1 || endE) && (!d0 || endW)
  let w := setNode b id { n with
    g0 := g0, g1 := g1, acked := n.acked || ackOk, ack := bit g0 27 && w.d.trl.prop.isSome, hpAck := bit g0 23 } w
  let w := if newDown && (atEnd || !cut) then modR b (fun r => { r with
      loopE := if d1 then n.pos else r.loopE, loopW := if d0 then n.pos else r.loopW }) w else w
  if newDown && !atEnd then
    breakFound b w
  else w

/-- Report a node that applies a commit late (spec/04 R130). -/
def bundleSkew (b : Bool) (id late : Nat) (c : Committed) (w : Work) : Work :=
  let n := getNode b id w
  let (k, sat) := satInc 0xFFFF n.skew
  let w := setNode b id { n with skew := k, skewSat := n.skewSat || sat } w
  let w := when_ sat (logCntSat (ringBlk b) id (dqBase b + 0x1003 + 4 * id) 0) w
  logEvent .cmd c.q 6 (putB 35 b + put 28 7 id + put 24 4 late + put 12 12 c.seq + put 0 3 c.q) w

/-- The missing-scatter report of a gather block against the commits of this and the last cycle. -/
def skewServo (b : Bool) (n : MapNode) (miss : Bool) (w : Work) : Work :=
  let x := getNode b n.id w
  let w := setNode b n.id { x with missRun := if miss then x.missRun + 1 else 0 } w
  if !miss then w
  else each (w.d.cmd.commits.filter (fun c => c.axes.any (fun a => n.axes.contains a))) (fun c w =>
    if c.c == w.d.phase.ncc then bundleSkew b n.id 1 c w
    else if c.c + 1 == w.d.phase.ncc && decide (1 ≤ x.missRun) then bundleSkew b n.id 2 c w else w) w

/-- A gather block that is used: status and the servo records that land (R320, R321, spec/06 R206). -/
def gatherBlock (b : Bool) (n : MapNode) (ws : List Word) (w : Work) : Work :=
  let w := nodeStatus b n.id (nth 0 ws 0) (nth 0 ws 1) w
  let w := skewServo b n (bit (nth 0 ws 0) 18) w
  each (n.axes.zipIdx) (fun p w => modCe p.1 (fun x =>
    if x.landed.isNone && !x.started then { x with landed := some ((ws.drop (2 + 6 * p.2)).take 6) } else x) w) w

/-- A commit of the slow group now running concerns a node: a stepper or an I/O point of its. -/
def commitOnNode (b : Bool) (n : MapNode) (c : Committed) (w : Work) : Bool :=
  let d := modDiff w.d.phase.ncc c.c
  decide (0 ≤ d) && decide (d < slowS w) && !c.told.contains (b, n.id)
    && (c.steppers.any (fun a => n.steppers.contains a) || c.points.any (fun p => match pointOf p w with
      | some (m, _) => m.ringB == b && m.id == n.id
      | none => false))

/-- A node whose return records say that it lost the slow block of its group is late with the commits of that group, each
reported once (spec/04 R129, R130, R344). -/
def skewSlow (b : Bool) (n : MapNode) (rs : List (Word × Word)) (w : Work) : Work :=
  if !rs.any (fun r => bit r.1 33) then w
  else
    let hit := fun (c : Committed) => commitOnNode b n c w
    let t := each (w.d.cmd.commits.filter hit) (fun c w => bundleSkew b n.id (slowS w) c w) w
    { t with d.cmd.commits := t.d.cmd.commits.map (fun c => if hit c then { c with told := c.told ++ [(b, n.id)] } else c) }

/-- A slow block that is used: stepper returns and input image words (R323). -/
def slowReturn (b : Bool) (n : MapNode) (ws : List Word) (w : Work) : Work :=
  let k := n.steppers.length
  let at0 := 2 + 2 * k + n.outWords
  let rs := (List.range k).map (fun j => (nth 0 ws (at0 + 2 * j), nth 0 ws (at0 + 2 * j + 1)))
  let w := each (n.steppers.zip rs) (fun p w => modStp p.1 (fun x => { x with ret := some p.2 }) w) w
  let w := skewSlow b n rs w
  each (List.range n.inWords) (fun j w => { w with
    d.trl.inImg := tabSet 0 w.d.trl.inImg (imgKey b n.id j) (nth 0 ws (at0 + 2 * k + j)) }) w

/-- A SAFETY container from a node goes to Hedge-P as an SFRAME message on the ring's channel (spec/14 R480). -/
def safetyReturn (b : Bool) (ws : List Word) (w : Work) : Work :=
  let h := nth 0 ws 0
  if bit h 35 && bit h 21 then
    mbxPut (if b then 27 else 26) (if b then 14 else 13)
      (wd (put 32 4 5 + put 26 6 (fld h 22 6) + putB 25 true) :: (ws.drop 1).take (min 7 (fld h 13 8))) w
  else w

/-- One block of a returned frame. -/
def takeBlock (b : Bool) (cls : Nat) (e : Int) (g : Nat) (body : List Word) (k : BlockAt) (w : Work) : Work :=
  match mapNode b k.id w with
  | none => w
  | some n =>
    if cls == 6 && k.k % 2 == 0 then w
    else
      let ws := (body.drop k.wofs).take k.wlen
      let (used, w) := blockCheck b k.id (nth 0 ws 0) e g w
      let w := when_ (cls == 2) (modNode b k.id (fun n => { n with eNow := e, gNow := g })) w
      if !used then w
      else match cls with
        | 2 => gatherBlock b n ws w
        | 4 => slowReturn b n ws w
        | 6 => safetyReturn b ws w
        | _ => w

/-! ACYC answers (spec/10 R324 to R327). -/

/-- The result words of a class-N PARAM_READ: what the node answered for the span sent to it, and the device's own values
(spec/03 R651, R652; log 14). -/
def nodeWords (own : List (Option Word)) (vals : List Word) : List Word :=
  let skip := own.idxOf none
  (own.zipIdx).map (fun x => x.1.getD (if x.2 < skip then 0 else nth 0 vals (x.2 - skip)))

/-- A class-N command is over; a bundle member is the bundle's no more (spec/03 R651, log 14). -/
def xferOver (id : Nat) (w : Work) : Work :=
  { w with
    d.cmd.xfers := w.d.cmd.xfers.filter (fun y => y.cmd.id != id)
    d.cmd.bundles := w.d.cmd.bundles.map (fun (b : Bundle) =>
      { b with members := b.members.filter (fun e => e.cmd.id != id) }) }

/-- The final answer of a class-N transfer (spec/03 R651). -/
def paramReply (id status : Nat) (vals : List Word) (frame : Word) (w : Work) : Work :=
  match w.d.cmd.xfers.find? (fun x => x.cmd.id == id) with
  | none => w
  | some x =>
    let w := xferOver id w
    match status with
    | 0 => report x.cmd { status := stOK, eff := some frame, res := if x.read then nodeWords x.own vals else [] } w
    | 2 => report x.cmd { status := stBadParam, detail := 2 } w
    | 3 => report x.cmd { status := stBadParam, detail := 3 } w
    | _ => report x.cmd { status := stRefused, detail := stCode w.d.sys.st } w

/-- The end of a measurement by TIME transfers: each node that has grown by more than 2 ns is reported once (spec/11 R382,
log 105). -/
def timeOver (b : Bool) (w : Work) : Work :=
  each ((getR b w).nodes.filter (fun kv => kv.2.timeGrowth != 0)) (fun kv w =>
    let slow := decide (4 < kv.2.timeGrowth)
    let w := modNode b kv.1 (fun n => { n with slow := n.slow || slow, timeGrowth := 0 }) w
    when_ slow (logEvent (ringBlk b) kv.1 12 ((kv.2.timeGrowth + 1) / 2)) w) w

/-- A TIME answer: forwarding latencies against the planned ones (spec/11 R382). The transfers of both paths make one
measurement, which ends when the second answer is in (log 105). -/
def timeReply (b pw : Bool) (ws : List Word) (w : Work) : Work :=
  let first := (getR b w).acyc.any (fun y => y.kind == .time)
  let w := each ((getR b w).byPos.zipIdx) (fun p w =>
    if p.1.2 then w
    else
      let f := fld (nth 0 ws (2 * p.2 + 1)) 0 12
      modNode b p.1.1 (fun n => { n with
        fwdLast := if first then f else max n.fwdLast f, fwdPeak := max n.fwdPeak f
        timeGrowth := max n.timeGrowth (f - (if pw then n.fwdW else n.fwdE)) }) w) w
  when_ (!first) (timeOver b) w

/-- A STAT answer stands in for the nodes' gather headers (spec/11 R361). -/
def statReply (b : Bool) (ws : List Word) (w : Work) : Work :=
  each ((getR b w).byPos.zipIdx) (fun p w =>
    if p.1.2 then w else nodeStatus b p.1.1 (nth 0 ws (2 * p.2)) (nth 0 ws (2 * p.2 + 1)) w) w

/-- One answered transfer. -/
def xferReply (b pw : Bool) (x : AXfer) (status : Nat) (ws : List Word) (frame : Word) (w : Work) : Work :=
  let drop := fun w => modR b (fun r => { r with acyc := r.acyc.filter (fun y => y.tag != x.tag || !y.sent) }) w
  let again := fun w => modR b (fun r => { r with acyc := r.acyc.map (fun y =>
    if y.tag == x.tag && y.sent then { y with sent := false } else y) }) w
  if status == 1 then again w
  else match x.kind with
    | .param id => paramReply id status ws frame (drop w)
    | .time => timeReply b pw ws (drop w)
    | .stat => statReply b ws (drop w)
    | .mbox _ => if status == 5 then again w else drop w
    | .plain => drop w

/-- The transfers of a returned body, front to back; the fuel is the number of words. -/
def takeReplies : Nat → Bool → Bool → Word → List Word → Work → Work
  | 0, _, _, _, _, w => w
  | f + 1, b, pw, frame, ws, w =>
    match ws with
    | t0 :: t1 :: r =>
      let n := fld t0 0 8
      let x := (getR b w).acyc.find? (fun x => x.sent && x.tag == fld t0 12 12 && x.svc == fld t0 24 4)
      let w := match x with
        | some x => if bit t0 35 && (t1 == x.arg || x.kind != .plain) then xferReply b pw x (fld t0 8 4) (r.take n) frame w
            else w
        | none => w
      takeReplies f b pw frame (r.drop n) w
    | _ => w

/-! Reception (spec/10 R348, spec/11 R358, R370). -/

/-- Body word j lies in a part a node may write. -/
def nodePart (b : Bool) (cls : Nat) (blocks : List BlockAt) (w : Work) (j : Nat) : Bool :=
  cls == 5 || blocks.any (fun k =>
    match mapNode b k.id w with
    | none => false
    | some n =>
      let i := j - k.wofs
      decide (k.wofs ≤ j) && decide (i < k.wlen) && (match cls with
        | 2 => true
        | 4 => i == 0 || (decide (2 + 2 * n.steppers.length + n.outWords ≤ i)
            && decide (i < 2 + 4 * n.steppers.length + n.outWords + n.inWords))
        | 6 => k.k % 2 == 1
        | _ => false))

/-- The first word of a returned frame, header included, that no node may have written and that differs (R358). -/
def foreignWord (b : Bool) (s : SentFrame) (blocks : List BlockAt) (ws : List Word) (w : Work) : Option Nat :=
  let mask : Word := ~~~(wd (2 ^ 26))
  (List.range ws.length).find? (fun j =>
    let same := nth 0 s.words j == nth 0 ws j
    if j == 0 then (nth 0 s.words 0 &&& mask) != (nth 0 ws 0 &&& mask)
    else if j == 1 then !same
    else !same && !nodePart b s.cls blocks w (j - 2))

/-- A contention is lost: to a lower UNIT_ID, or to an equal one (spec/11 Table 11.9). -/
def contendLost (equal : Bool) (w : Work) : Work :=
  let w := { w with d.trl.stopNext := none, d.trl.builtIn := false, d.trl.step := none }
  if equal then
    logEvent .trl 0 5 0 (each [false, true] (fun b w => modR b (fun r => { r with passive := true }) w)
      { w with d.trl.conflict := true })
  else logEvent .trl 0 6 0 (setRole .standby (nodesStart { w with d.grf.home := false }))

/-- A SYNC of another controller in DISCOVER: a unit that transmits stops at its next sync point (spec/11 Table 11.9). -/
def contend (id : Nat) (w : Work) : Work :=
  let own := w.d.boot.unitId
  if w.d.sys.st != .discover then w
  else if own < id then setRole .active w
  else if w.d.trl.builtIn then { w with d.trl.stopNext := some (id == own && w.d.trl.stopNext != some false) }
  else contendLost (id == own) w

/-- The sync point at which it stops. -/
def contendStop (w : Work) : Work :=
  match w.d.trl.stopNext with
  | some q => if w.d.sys.st == .discover then contendLost q w else { w with d.trl.stopNext := none }
  | none => w

/-- A unit in role STANDBY follows the active's SYNC frames (spec/01 R28, spec/13 R411). -/
def followSync (ws : List Word) (w : Work) : Work :=
  let y := nth 0 ws 2
  let w := match stOf (fld y 32 4) with | some s => setState s w | none => w
  { w with
    d.phase.ncc := nth 0 ws 1, d.sys.rate := fld y 29 3, d.sys.slowDiv := 2 ^ fld y 27 2, d.sys.mode := h0Mode (nth 0 ws 0)
    d.sys.cycOn := true }

/-- The guard of an entry: its own, or the ring's revised one (spec/19 R589, R590). -/
def guardOf (b : Bool) (e0 : Word) (w : Work) : Nat := max (e0Guard e0) (if b then w.d.age.guardB else w.d.age.guardA)

/-- Where a path of a broken ring turns back, from the GATHER frame that came back: the node that reports its port lost,
else the last node that answered (R353 asks for the latency round by that node; log 101). -/
def learnFold (b : Bool) (s : SentFrame) (blocks : List BlockAt) (body : List Word) (w : Work) : Work :=
  let r := getR b w
  let known := if s.pathW then r.loopW else r.loopE
  if s.cls != 2 || !(r.line || r.broken) || known != 0 then w
  else
    let l := (blocks.map (fun k => (nth 0 body k.wofs, (getNode b k.id w).pos, k.id))).filter (fun x =>
      bit x.1 35 && fld x.1 28 7 == x.2.2 && x.2.1 != 0)
    let pick := fun (m : List (Word × Nat × Nat)) =>
      m.foldl (fun a x => if a == 0 then x.2.1 else if s.pathW then min a x.2.1 else max a x.2.1) 0
    let lost := l.filter (fun x => bit x.1 (if s.pathW then 22 else 21))
    let p := if lost.isEmpty then pick l else pick lost
    modR b (fun r => if s.pathW then { r with loopW := p } else { r with loopE := p }) w

/-- A returned frame of our own (R348, R356 to R358, R370). -/
def ownFrame (b p1 : Bool) (t : Nat) (s : SentFrame) (ws : List Word) (w : Work) : Work :=
  let w := modR b (fun r => { r with sent := r.sent.erase s, goodNow := true }) w
  let blocks := if s.cls == 1 || s.cls == 5 then [] else frameBlocks b w.d.sys.mode s.e0 s.e1 w
  let w := if h0Looped (nth 0 ws 0) && (p1 == s.pathW) && !(getR b w).line then breakFound b w else w
  let w := when_ (h0Looped (nth 0 ws 0)) (learnFold b s blocks (ws.drop 2)) w
  let w := if s.cls == 2 && !s.pathW && p1 then modR b (fun r => { r with gatherBack := true }) w else w
  let taken := w.d.grf.tko3 || (w.d.sys.mode == 4 && !w.d.grf.home)
  let w := if taken && (getR b w).line && !h0Looped (nth 0 ws 0) && (p1 != s.pathW) then
      { w with d.grf.ringAt := w.d.grf.ringAt ++ [(b, nccPlus 1 w)] } else w
  match foreignWord b s blocks ws w with
  | some j => logEvent (ringBlk b) 0 6 (put 0 16 j) w
  | none =>
    let body := ws.drop 2
    if s.cls == 5 then takeReplies body.length b s.pathW (nth 0 ws 1) body w
    else
      let e : Int := (t : Int) - (4 * e0Offset s.e0 : Nat) - returnLatency b s.pathW p1 w
      each blocks (takeBlock b s.cls e (4 * guardOf b s.e0 w) body) w

/-! The standby as a node of the ring (spec/13 R410, spec/10 R328 to R347). -/

/-- A word of a standby's identity record (spec/10 Table 10.10, spec/13 R410). -/
def identWord (k : Nat) : Word :=
  match k with
  | 2 | 6 | 7 => 0
  | 3 => wd (put 32 4 15 + fld (Config.standbyIdent 3) 0 32)
  | _ => Config.standbyIdent k

/-- The node number that a standby's identity record carries. -/
def standbyId : Nat := fld (Config.standbyIdent 1) 13 7

/-- T0 of an answered transfer. -/
def answered (t0 : Word) (status : Nat) : Word := wd (fld t0 0 8 + put 8 4 status + put 12 23 (fld t0 12 23) + putB 35 true)

def modNp (b : Bool) (f : NodePart → NodePart) (w : Work) : Work := modR b (fun r => { r with node := f r.node }) w

/-- NCMD is carried out: LOOP takes a port out of use, UNLOOP puts it back when it is up, NODE_RESET restarts the node in
INIT (R345, spec/11 R376). -/
def nodeCommand (b : Bool) (arg : Word) (w : Work) : Work :=
  let r := getR b w
  let one := bit arg 4
  match fld arg 0 4 with
  | 0 => modNp b (fun n => if one then { n with lost1 := true } else { n with lost0 := true }) w
  | 1 => modNp b (fun n => if one then { n with lost1 := !r.p1.up } else { n with lost0 := !r.p0.up }) w
  | 2 => modNp b (fun n => { init := true, anyEpoch := true, lost0 := !r.p0.up, lost1 := !r.p1.up, lastSync := n.lastSync }) w
  | _ => w

/-- One transfer as the standby serves it in place; good says that the frame's CRC checks (R324, R327, R328). ENUM, IDENT and
TIME are answered, NCMD is obeyed (spec/11 R376), and any other service to this node alone is refused (log 147). -/
def nodeXferServe (b good : Bool) (t0 t1 : Word) (pay : List Word) (w : Work) : (Word × Word × List Word) × Work :=
  let n := (getR b w).node
  let tag := fld t0 12 12
  match fld t0 24 4 with
  | 3 =>
    if fld t1 0 7 == 127 then ((answered t0 0, t1 ||| wd (putB 7 true), pay), w)
    else
      let k := fld t1 0 7 + 1
      ((answered t0 0, wd (fld t1 7 29 * 128 + k), pay), when_ good (modNp b (fun n => { n with pos := k })) w)
  | 4 =>
    if n.pos != 0 && fld t1 0 7 == n.pos then
      ((answered t0 0, t1, ((List.range 8).map identWord ++ pay.drop 8).take pay.length), w)
    else ((t0, t1, pay), w)
  | 5 =>
    if n.pos == 0 then ((t0, t1, pay), w)
    else
      let (a, w) := freeW w
      let (f, w) := freeN 4096 w
      ((answered t0 0, t1, placeWords (2 * (n.pos - 1)) [a, wd f] pay), w)
  | svc =>
    if fld t0 28 7 == 127 || fld t0 28 7 == 0 || fld t0 28 7 != standbyId then ((t0, t1, pay), w)
    else if svc != 7 then ((answered t0 4, t1, pay), w)
    else if n.done == some tag then ((answered t0 0, t1, pay), when_ good (modNp b (fun n => { n with done := none })) w)
    else ((answered t0 1, t1, pay), when_ good (fun w => modNp b (fun n => { n with done := some tag }) (nodeCommand b t1 w)) w)

/-- The transfers of an ACYC body, front to back; the fuel is the number of words. -/
def nodeBody : Nat → Bool → Bool → List Word → Work → List Word × Work
  | 0, _, _, ws, w => (ws, w)
  | f + 1, b, good, ws, w =>
    match ws with
    | t0 :: t1 :: r =>
      let n := fld t0 0 8
      let ((t0, t1, pay), w) := nodeXferServe b good t0 t1 (r.take n) w
      let (rest, w) := nodeBody f b good (r.drop n) w
      (t0 :: t1 :: pay ++ rest, w)
    | _ => (ws, w)

/-- The node sends on what came in on a port: out of the other one, or back with LOOPED set where that one is out of use; a
frame whose CRC was wrong ends in /V/ and carries none (R333, R340, R345). -/
def nodeSend (b p1 good : Bool) (ws : List Word) (w : Work) : Work :=
  let n := (getR b w).node
  let back := if p1 then n.lost0 else n.lost1
  let ws := if back then (match ws with | h :: r => (h ||| wd (2 ^ 26)) :: r | [] => []) else ws
  let bytes := if good then frameBytes ws else wordsBytes ws
  if ringClk b w && refRuns w then send (.ring b (p1 != back) bytes) w else w

/-- The mode that the heal marker of a SYNC frame names for the cycle after it (R346). -/
def healNamed (ws : List Word) : Option (Word × Nat) :=
  let y := nth 0 ws 2
  if bit y 26 then some (nth 0 ws 1 + 1, fld y 23 3) else none

/-- What a standby does with a frame of LOOPED = 0 that a node processes: epochs (R341), SYNC (R337, R347), ACYC; the words it
sends on. -/
def nodeProcess (b p1 good : Bool) (ws : List Word) (w : Work) : List Word × Work :=
  let h := nth 0 ws 0
  let n := (getR b w).node
  let sync := h0Class h == 1
  let low := modDiffN 16 (h0Epoch h) w.d.trl.epoch < 0 && !n.anyEpoch && !(n.init && sync)
  if low then (ws, w)
  else
    let w := when_ good (fun w => modNp b (fun n => { n with anyEpoch := false }) { w with d.trl.epoch := h0Epoch h }) w
    if sync then
      (ws, when_ good (fun w =>
        let p := 2 * ringKey b + (if p1 then 1 else 0)
        let w := modNp b (fun n => { n with init := false, lastSync := w.d.ptm.frc, heal := healNamed ws }) w
        followSync ws (modR b (fun r => { r with goodNow := true }) { w with
          d.grf.syncPorts := w.d.grf.syncPorts ||| 2 ^ p })) w)
    else if h0Class h == 5 then
      let (body, w) := nodeBody ws.length b good (ws.drop 2) w
      (ws.take 2 ++ body, w)
    else (ws, w)

/-- A standby's mode at a sync point, before the SYNC frame of the cycle: the healed mode where the last one marked it
(R346). -/
def nodesMode (w : Work) : Work :=
  if w.d.sys.role != .standby then w
  else each [false, true] (fun b w => match (getR b w).node.heal with
    | some (c, m) => if c == w.d.phase.ncc then { w with d.sys.mode := m } else w
    | none => w) w

/-- What came of a frame whose end is missing goes on as it is and ends in /V/ (R333). -/
def nodeSendPart (b p1 : Bool) (bytes : List Nat) (w : Work) : Work :=
  let n := (getR b w).node
  let back := if p1 then n.lost0 else n.lost1
  let bytes := if back then (match bytes with | x :: y :: r => x :: (y ||| 64) :: r | l => l) else bytes
  if ringClk b w && refRuns w then send (.ring b (p1 != back) bytes) w else w

/-- A frame at a unit that forwards passively: every frame goes on, and a standby processes it on its first pass with LOOPED =
0. In DISCOVER a unit that listens takes note of another controller's SYNC (spec/11 R377). -/
def nodeFrame (b p1 : Bool) (bytes : List Nat) (v : Bool) (w : Work) : Work :=
  let l := bytes.length
  let raw := if l < 13 || (l - 4) % 9 != 0 then none else some (bytesWords ((l - 4) / 9) (bytes.take (l - 4)))
  let good := !v && (frameWords bytes).isSome
  let w := if good then w else countRcrc b p1 w
  match raw with
  | none => nodeSendPart b p1 bytes w
  | some ws =>
    let h := nth 0 ws 0
    let ours := h0Class h != 0 && decide (h0Class h ≤ 6) && 2 * h0Pairs h + 2 == ws.length && !h0Looped h
    if !ours then nodeSend b p1 good ws w
    else if w.d.sys.role == .standby then
      let (ws, w) := nodeProcess b p1 good ws w
      nodeSend b p1 good ws w
    else
      let w := nodeSend b p1 good ws w
      if good && h0Class h == 1 then contend (fld (nth 0 ws 4) 32 4) w else w

/-- The unit forwards the frames of its rings as a node does: listening, in conflict, or in role STANDBY. -/
def forwards (w : Work) : Bool := w.d.sys.role == .standby || w.d.trl.listening || w.d.trl.conflict

/-- A standby that has seen no SYNC frame with LOOPED = 0 for 10 ms enters INIT: it forgets the highest epoch and its ring
position (R347). -/
def nodesInit (w : Work) : Work :=
  if w.d.sys.role != .standby then w
  else each (ringsUsed w) (fun b w =>
    let n := (getR b w).node
    when_ (!n.init && decide (2500000 ≤ (w.d.ptm.frc - n.lastSync).toNat))
      (modNp b (fun n => { n with init := true, anyEpoch := true, pos := 0 })) w) w

/-- RING_FRAME_RECEIVED: ring, port, arrival of /S/ in ns after the present sync point, the bytes from the first header
byte to the last CRC byte, and whether /V/ came in it. A discarded frame is no frame, but the head of a path-E GATHER has
returned with it (R370, log 104). -/
def ringFrame (b p1 : Bool) (t : Nat) (bytes : List Nat) (v : Bool) (w : Work) : Work :=
  if b && !hasRingB w.variant then w
  else if forwards w then nodeFrame b p1 bytes v (nodesInit w)
  else
    match (if v then none else frameWords bytes) with
    | none =>
      let head := p1 && (match bytes with | x :: _ => x / 16 % 16 == 2 && x % 2 == 0 | [] => false)
      countRcrc b p1 (when_ head (modR b (fun r => { r with gatherBack := true })) w)
    | some ws =>
      let h := nth 0 ws 0
      let cls := h0Class h
      if cls == 0 || 6 < cls || 2 * h0Pairs h + 2 != ws.length then w
      else
        let mine := (getR b w).sent.find? (fun s => s.pathW == h0Path h && s.cls == cls && s.ncc == nth 0 ws 1
          && s.words.length == ws.length)
        if cls == 1 && w.d.sys.st == .discover && mine.isNone then contend (fld (nth 0 ws 4) 32 4) w
        else if h0Epoch h != w.d.trl.epoch then
          if 0 < modDiffN 16 (h0Epoch h) w.d.trl.epoch && ringSends b w then
            { w with d.trl.yieldNext := true }
          else w
        else
          match mine with
          | some s => ownFrame b p1 t s ws w
          | none => w

/-- GATHER_RETURN_TIMEOUT of a ring (R370): only on a whole ring whose GATHER head is not back. -/
def gatherTimeout (b : Bool) (w : Work) : Work :=
  let r := getR b w
  if ringSends b w && !r.line && !r.gatherBack then breakFound b w else w

/-- RING_PORT_DOWN: the port loses synchronisation or signal detect (spec/10 R313, R348); a standby turns back what it would
send there (R345). -/
def portDown (b p1 sig : Bool) (w : Work) : Work :=
  if b && !hasRingB w.variant then w
  else
    let r := getR b w
    let p := if p1 then r.p1 else r.p0
    let q := { p with up := false, cgs := false, sig := sig, downSeen := true }
    let w := setR b (if p1 then { r with p1 := q } else { r with p0 := q }) w
    let w := logEvent (ringBlk b) (if p1 then 1 else 0) 1 0 w
    let w := when_ (w.d.sys.role == .standby)
      (modNp b (fun n => if p1 then { n with lost1 := true } else { n with lost0 := true })) w
    if ringUsed b w && !r.passive then breakFound b w else w

/-- RING_PORT_UP: code-group synchronisation, and with 16 idles the port is up (spec/10 R313). -/
def portUp (b p1 idles : Bool) (w : Work) : Work :=
  if b && !hasRingB w.variant then w
  else
    let w := modR b (fun r =>
      let p := if p1 then r.p1 else r.p0
      let q := { p with up := p.up || idles, cgs := true, sig := true }
      if p1 then { r with p1 := q } else { r with p0 := q }) w
    when_ idles (logEvent (ringBlk b) (if p1 then 1 else 0) 2 0) w

/-- NODE_PARAM_TIMEOUT of a class-N command (spec/03 R651), named by queue and entry. -/
def nodeParamTimeout (q e : Nat) (w : Work) : Work :=
  match w.d.cmd.xfers.find? (fun x => x.cmd.q == q && x.cmd.entry == e) with
  | none => w
  | some x =>
    let w := xferOver x.cmd.id w
    let w := modR x.ringB (fun r => { r with acyc := r.acyc.filter (fun y => y.kind != .param x.cmd.id) }) w
    report x.cmd { status := stLate, detail := 0x02 } w

/-- A measurement begins anew; one whose answers got lost ends before (spec/11 R382). -/
def timesStart (w : Work) : Work :=
  queueTimes (each (ringsUsed w) (fun b w => if (getR b w).acyc.any (fun x => x.kind == .time)
    then timeOver b (modR b (fun r => { r with acyc := r.acyc.filter (fun x => x.kind != .time) }) w) else w) w)

/-- TIME_TRANSFER_PERIODIC: a background task, which stays queued outside FULL (spec/11 R382, spec/12 R399). -/
def timePeriodic (w : Work) : Work := if background w then timesStart w else { w with d.trl.timeDue := true }

/-- The TIME transfers held back leave once background tasks run again. -/
def timesHeld (w : Work) : Work :=
  if w.d.trl.timeDue && background w then timesStart { w with d.trl.timeDue := false } else w

/-- FRAME_DEPARTURE (spec/11 R351). -/
def execFrameDeparture (b pw : Bool) (n : Fin 16384) (s : State) : Host.Outcome State Fault Refusal :=
  run (frameDeparture b pw n) s

/-- RING_FRAME_RECEIVED (spec/10 R348). -/
def execRingFrameReceived (b p1 : Bool) (t : Nat) (bytes : List Nat) (v : Bool) (s : State) :
    Host.Outcome State Fault Refusal := run (ringFrame b p1 t bytes v) s

/-- GATHER_RETURN_TIMEOUT (spec/11 R370). -/
def execGatherReturnTimeout (b : Bool) (s : State) : Host.Outcome State Fault Refusal := run (gatherTimeout b) s

/-- RING_PORT_DOWN (spec/10 R313). -/
def execRingPortDown (b p1 sig : Bool) (s : State) : Host.Outcome State Fault Refusal := run (portDown b p1 sig) s

/-- RING_PORT_UP (spec/10 R313). -/
def execRingPortUp (b : Bool) (p : PortRise) (s : State) : Host.Outcome State Fault Refusal := run (portUp b p.p1 p.idles) s

/-- NODE_PARAM_TIMEOUT (spec/03 R651). -/
def execNodeParamTimeout (q : Fin 5) (e : Fin 256) (s : State) : Host.Outcome State Fault Refusal :=
  run (nodeParamTimeout q e) s

/-- TIME_TRANSFER_PERIODIC (spec/11 R382). -/
def execTimeTransferPeriodic (s : State) : Host.Outcome State Fault Refusal := run timePeriodic s

end Sys2Proof.Machine
end

