-- ==== Sys2Proof/Machine/Params.lean ====
section
/-! DEFINITION. Parameters: which numbers name one, their classes, accepted values and values in force, the checks of a
PARAM_WRITE, and what it does at its effect (spec/03 R80, R81, R648, R651, R652; the tables of spec/02, 05, 06, 08, 12). -/

namespace Sys2Proof.Machine

/-- Parameter classes (spec/03 Table 3.5). -/
inductive PCls where
  | a | b | c | d | n
deriving DecidableEq, Repr

/-- Class of word w of an axis page; none for a reserved word (spec/06 Table 6.6). -/
def pageCls (w : Nat) : Option PCls :=
  if w == 0x00 then some .d
  else if w == 0x0C then some .c
  else if w == 0x0F then none
  else if w < 0x10 then some .a
  else if w < 0x20 then some (if w % 4 == 2 then .c else .d)
  else if w < 0xA0 then (if w % 16 < 0xA then some .c else none)
  else if w < 0x100 then some .c else none

/-- Class of a writable parameter of an object; none where the number names none (R652). Node numbers with [35:32] = 0xF
are ring-defined and no one's to write (R651). -/
def paramCls (kind idx num : Nat) : Option PCls :=
  match kind with
  | 0 => if 0x10 ≤ num && num ≤ 0x12 then some .a else if num == 0x300 then some .c else none
  | 1 =>
    if (0x100 ≤ num && num ≤ 0x10D) || (0x110 ≤ num && num ≤ 0x117) then some .b
    else if num == 0x120 then some .a
    else if 0x200 ≤ num && num < 0x300 then pageCls (num - 0x200) else none
  | 2 =>
    if (0x100 ≤ num && num ≤ 0x103) || (0x10A ≤ num && num ≤ 0x10D) then some .b
    else if (0x300 ≤ num && num ≤ 0x303) || (0x308 ≤ num && num ≤ 0x30A) then some .a
    else if (0x304 ≤ num && num ≤ 0x306) || (num == 0x307 && 1024 ≤ idx) then some .d else none
  | 4 =>
    if num == 1 then some .a else if num == 2 then some .d else if num < 0xF00000000 then some .n else none
  | 7 => if num ≤ 4 then some .b else none
  | _ => none

/-- A ring-defined node address that exists (spec/10 Table 10.11). -/
def ringDefined (num : Nat) : Bool :=
  (decide (0xF00000000 ≤ num) && decide (num < 0xF00000800) && num % 256 < 32) || num == 0xF00001000 || num == 0xF00001001

/-- The number names a readable parameter (R652). -/
def paramReadable (kind idx num : Nat) : Bool :=
  match kind with
  | 1 => (paramCls 1 idx num).isSome || (decide (0x200 ≤ num) && decide (num < 0x300))
  | 4 => if 0xF00000000 ≤ num then ringDefined num else true
  | 8 => num < 0x4000
  | _ => (paramCls kind idx num).isSome

/-- Ring and node ID of an object word of kind 4. -/
def objNode (o : Word) : Bool × Nat := (bit o 31, fld o 0 7)

/-! Values in force. -/

/-- A stepper parameter in force (spec/08 Table 8.2); REF_SET is write only. -/
def stpParam (x : StpAxis) (num : Nat) : Word :=
  match num with
  | 0x100 => x.vmax | 0x101 => x.amax | 0x102 => x.dmax | 0x103 => x.jmax
  | 0x10A => x.posMin | 0x10B => x.posMax | 0x10C => wd (putB 0 x.travelEn) | 0x10D => x.ratioMax
  | 0x300 => wd x.table | 0x301 => wd x.runScale | 0x302 => wd x.holdScale | 0x303 => wd x.holdDelay
  | 0x304 => wd (putB 0 x.encEn) | 0x305 => wd (BitVec.ofInt 16 x.encNum).toNat | 0x306 => wd x.encDen
  | 0x307 => wd x.encPort | 0x308 => wd x.stallWin | 0x309 => wd x.stallN | _ => 0

/-- A stepper parameter takes a value. -/
def stpPut (num : Nat) (v : Word) (x : StpAxis) : StpAxis :=
  match num with
  | 0x100 => { x with vmax := v } | 0x101 => { x with amax := v } | 0x102 => { x with dmax := v }
  | 0x103 => { x with jmax := v } | 0x10A => { x with posMin := v } | 0x10B => { x with posMax := v }
  | 0x10C => { x with travelEn := bit v 0 } | 0x10D => { x with ratioMax := v }
  | 0x300 => { x with table := fld v 0 2 } | 0x301 => { x with runScale := fld v 0 17 }
  | 0x302 => { x with holdScale := fld v 0 17 } | 0x303 => { x with holdDelay := fld v 0 10 }
  | 0x304 => { x with encEn := bit v 0 } | 0x305 => { x with encNum := (BitVec.ofNat 16 (fld v 0 16)).toInt }
  | 0x306 => { x with encDen := fld v 0 16 } | 0x307 => { x with encPort := fld v 0 3 }
  | 0x308 => { x with stallWin := fld v 0 13 } | 0x309 => { x with stallN := fld v 0 4 } | _ => x

/-- A governor parameter (spec/12 Table 12.1). -/
def egvParam (e : EgvSt) (num : Nat) : Word :=
  match num with | 0 => e.peakW | 1 => wd e.winMs | 2 => e.winJ | 3 => e.regenJ | 4 => e.staticW | _ => 0
def egvPut (num : Nat) (v : Word) (e : EgvSt) : EgvSt :=
  match num with
  | 0 => { e with peakW := v } | 1 => { e with winMs := fld v 0 10 } | 2 => { e with winJ := v }
  | 3 => { e with regenJ := v } | 4 => { e with staticW := v } | _ => e

/-- A ring-defined parameter from the controller's own copy (R651). -/
def ringParam (b : Bool) (id num : Nat) (w : Work) : Word :=
  if num == 0xF00001000 then wd (fld (wd (getNode b id w).dlyE) 0 20)
  else if num == 0xF00001001 then wd (fld (wd (getNode b id w).dlyW) 0 20)
  else rd (smapAddr b id (num / 256 % 8) 0 w + num % 256) w

/-- The value in force of a parameter; the write-only ones read a free value (log 66). -/
def paramValue (o : Word) (num : Nat) (w : Work) : Word × Work :=
  let i := objIndex o
  match objKind o with
  | 0 => (match num with
    | 0x10 => (w.d.phase.vmRate, w) | 0x11 => (phSrcWord w.d.phase.src, w) | 0x12 => (wd w.d.phase.cpm, w)
    | _ => freeW w)
  | 1 => if 0x200 ≤ num then (pageWord i (num - 0x200) w, w) else (plnParam (getPln i w) num, w)
  | 2 => if num == 0x30A then freeW w else (stpParam (getStp i w) num, w)
  | 4 =>
    let (b, id) := objNode o
    if num == 1 then (wd (putB 0 (getNode b id w).isolated), w)
    else if num == 2 then (wd (((mapNode b id w).map (fun n => n.ioDiv)).getD 1), w)
    else (ringParam b id num w, w)
  | 7 => (egvParam w.d.egv num, w)
  | 8 =>
    let (v, w') := if fdDead (getFd i w) (0, num) then freeW w else (fdRead (getFd i w) 0 num, w)
    (v, fdScan i [(0, num)] w')
  | _ => (0, w)

/-! Accepted values (R648). -/

/-- Every admitted command whose effect is to come, bundle members among them. -/
def pendingEffects (w : Work) : List Effect := w.d.cmd.effects ++ w.d.cmd.bundles.flatMap (fun b => b.members)

/-- The same in order of admission. -/
def allEffects (w : Work) : List Effect := (pendingEffects w).mergeSort (fun x y => x.adm ≤ y.adm)

/-- The place of the next command in the order of admission. -/
def freshAdm (w : Work) : Nat := (pendingEffects w).foldl (fun m e => max m (e.adm + 1)) 0

/-- The value an admitted PARAM_WRITE gives a parameter. -/
def writeGives (o : Word) (num : Nat) (e : Effect) : Option Word :=
  let k := num - (prm e.ps 2).toNat
  if e.op == 0x180 && prm e.ps 1 == o && decide ((prm e.ps 2).toNat ≤ num) then e.ps[2 + k]? else none

/-- The last accepted value of a parameter. -/
def acceptedValue (o : Word) (num : Nat) (w : Work) : Word :=
  match (allEffects w).reverse.findSome? (writeGives o num) with
  | some v => v
  | none => (paramValue o num w).1

/-- The accepted value with the values of one write taken as accepted too: they take effect together (R652, log 71). -/
def acceptedWith (o : Word) (first : Nat) (vs : List Word) (num : Nat) (w : Work) : Word :=
  if first ≤ num then match vs[num - first]? with | some v => v | none => acceptedValue o num w
  else acceptedValue o num w

/-! Valid values. -/

/-- Signed 8-bit reading. -/
def sgn8 (n : Nat) : Int := (BitVec.ofNat 8 n).toInt

/-- A finite F32 word within bounds. -/
def fIn (v : Word) (lo hi : ℚ) : Bool := fWordOk v && decide (lo ≤ fWordVal v) && decide (fWordVal v ≤ hi)
def fGe0 (v : Word) : Bool := fWordOk v && decide (0 ≤ fWordVal v)
def fGt0 (v : Word) : Bool := fWordOk v && decide (0 < fWordVal v)
def fLe0 (v : Word) : Bool := fWordOk v && decide (fWordVal v ≤ 0)

/-- An AXIS_ENABLE of the axis is accepted and not complete (spec/06 R220). -/
def enabling (a : Nat) (w : Work) : Bool := (allEffects w).any (fun e => e.op == 0x040 && fld (prm e.ps 1) 0 10 == a)

/-- A word of an axis page is valid beside the other accepted words g (spec/06 Table 6.6, R220). -/
def pageOk (a x : Nat) (v : Word) (g : Nat → Word) (w : Work) : Bool :=
  let small := fun (n : Nat) => decide (v.toNat < 2 ^ n)
  if x == 0x00 then small 1
  else if x == 0x01 then small 24
  else if x == 0x02 || x == 0x04 || x == 0x06 || x == 0x0C then fGe0 v
  else if x == 0x03 || x == 0x05 || x == 0x07 then fLe0 v
  else if x == 0x08 then fWordOk v
  else if x == 0x09 then
    fIn v (1 / 1000) 100 || (fWordOk v && fWordVal v = 0 && !(getCe a w).enabled && !enabling a w)
  else if x == 0x0A then (fWordOk v && decide (fWordVal v = 0)) || fIn v (1 / 10000) 10
  else if x == 0x0B then small 35
  else if x == 0x0D then fIn v 0 4
  else if x == 0x0E then small 3
  else if x < 0x20 then
    let t := (x - 0x10) / 4
    match (x - 0x10) % 4 with
    | 0 => small 14 && (!bit v 13 || (let b := (g (x + 1)).toNat; decide (1 ≤ b) && decide (b ≤ 1023)))
    | 1 => small 10 && (v != 0 || !bit (g (x - 1)) 13)
    | 2 => small 16 && decide (-96 ≤ sgn8 (fld v 0 8)) && decide (sgn8 (fld v 0 8) ≤ 96)
        && decide (-96 ≤ sgn8 (fld v 8 8)) && decide (sgn8 (fld v 8 8) ≤ 96)
    | _ => small 24 && decide (fld v 0 12 ≤ 2048)
        && decide (((List.range 4).map (fun u => fld (if u == t then v else g (0x13 + 4 * u)) 12 12)).sum ≤ 96)
  else if x < 0xA0 then
    match x % 16 with
    | 4 => fIn v 0 2
    | 6 => fIn v 0 2
    | 7 => fGe0 v && decide (fWordVal v ≤ fWordVal (g (x + 1)))
    | 8 => fGe0 v && decide (fWordVal (g (x - 1)) ≤ fWordVal v)
    | 9 => small 16 && fld v 1 3 == 0
    | _ => fGe0 v
  else true

/-- A servo planner or energy parameter is valid beside the others (spec/05 Table 5.2, R145, spec/12 Table 12.2). -/
def servoOk (num : Nat) (v : Word) (g : Nat → Word) : Bool :=
  let q := fWordVal v
  let le := fun (n : Nat) => decide (q ≤ fWordVal (g n))
  let ge := fun (n : Nat) => decide (fWordVal (g n) ≤ q)
  match num with
  | 0x100 => fGt0 v && ge 0x106 | 0x101 => fGt0 v && ge 0x107 | 0x102 => fGt0 v && le 0x104
  | 0x103 => fGt0 v && le 0x105 && ge 0x108
  | 0x104 => fWordOk v && ge 0x102 | 0x105 => fWordOk v && ge 0x103
  | 0x106 => fGt0 v && le 0x100 | 0x107 => fGt0 v && le 0x101 | 0x108 => fGt0 v && le 0x103
  | 0x109 => decide (v.toNat < 2 ^ 35) | 0x10A => true | 0x10B => true | 0x10C => decide (v.toNat < 2)
  | 0x10D => fGt0 v
  | 0x115 => fWordOk v && (decide (q = 0) || fIn v (1 / 2) 1)
  | 0x120 => fWordOk v
  | _ => fGe0 v

/-- A stepper parameter is valid beside the others (spec/08 Table 8.2). -/
def stepOk (num : Nat) (v : Word) (g : Nat → Word) : Bool :=
  let n := v.toNat
  match num with
  | 0x100 => fIn v 0 2040000 && fGt0 v | 0x101 => fGt0 v | 0x102 => fGt0 v | 0x103 => fGt0 v
  | 0x10A => true | 0x10B => true | 0x10C => decide (n < 2) | 0x10D => fGt0 v
  | 0x300 => decide (n < 4) | 0x301 => decide (n ≤ 65536) && decide ((g 0x302).toNat ≤ n)
  | 0x302 => decide (n ≤ (g 0x301).toNat) | 0x303 => decide (n ≤ 1000) | 0x304 => decide (n < 2)
  | 0x305 => decide (n < 65536) && n != 0 | 0x306 => decide (1 ≤ n) && decide (n < 65536) | 0x307 => decide (n < 8)
  | 0x308 => decide (16 ≤ n) && decide (n ≤ 4096) | 0x309 => decide (1 ≤ n) && decide (n ≤ 8)
  | _ => true

/-- A governor parameter is valid beside the others (spec/12 Table 12.1, R385). -/
def budgetOk (num : Nat) (v : Word) (g : Nat → Word) : Bool :=
  match num with
  | 0 => fGt0 v && decide (fWordVal (g 4) < fWordVal v)
  | 1 => decide (1 ≤ v.toNat) && decide (v.toNat ≤ 1000)
  | 2 => fGt0 v
  | 3 => fGe0 v
  | _ => fGe0 v && decide (fWordVal v < fWordVal (g 0))

/-- A phase parameter's word is sound (spec/02 R43, R55). -/
def phaseOk (num : Nat) (v : Word) : Bool :=
  match num with
  | 0x10 => decide (|v.toInt| < 2 ^ 32)
  | 0x11 => decide (fld v 0 3 ≤ 2) && fld v 14 22 == 0
  | 0x12 => v != 0 && decide (v.toNat < 2 ^ 24)
  | _ => decide (v.toNat < 4)

/-- One value of a PARAM_WRITE is valid. -/
def valueOk (o : Word) (num : Nat) (v : Word) (g : Nat → Word) (w : Work) : Bool :=
  match objKind o with
  | 0 => phaseOk num v
  | 1 => if 0x200 ≤ num then pageOk (objIndex o) (num - 0x200) v (fun x => g (0x200 + x)) w else servoOk num v g
  | 2 => stepOk num v g
  | 4 => if num == 1 then v == 1 else if num == 2 then [1, 2, 4, 8].contains v.toNat else true
  | 7 => budgetOk num v g
  | _ => true

/-- PHSRC names a port or axis that is absent, or an axis without a gather record in the mode in force (spec/02 R55, R655). -/
def phsrcAbsent (v : Word) (w : Work) : Bool :=
  fld v 0 3 == 2 && (servoAbsent (fld v 6 8) w || (modeOn w && !w.d.ce.order.contains (fld v 6 8)))

/-- The states a class is written in (R80). -/
def clsStates (k : PCls) (s : DevState) : Bool :=
  match k with
  | .a | .b => s == .commission || s == .run || s == .recovery || s == .safeLock
  | .c | .n => s == .commission || s == .run || s == .recovery
  | .d => s == .config

/-- Class of a PARAM_WRITE or PARAM_READ by its first number. -/
def cmdCls (ps : List Word) : Option PCls := paramCls (objKind (prm ps 1)) (objIndex (prm ps 1)) (prm ps 2).toNat

/-- The page of a table is good: no word of it uncorrectable, and its CRC good (spec/08 R266, spec/16 R521). -/
def pageGood (a : Nat) (w : Work) : Bool := !w.d.mem.badPages.contains a && (badIn [(a, 256)] w).all (fun kv => kv.2 != 2)

/-- An IO_DIV of the node map changes (spec/01 R23). -/
def setIoDiv (b : Bool) (id d : Nat) (w : Work) : Work :=
  { w with d.trl.img := w.d.trl.img.map (fun i => { i with
      nodes := i.nodes.map (fun n => if n.ringB == b && n.id == id then { n with ioDiv := d } else n) }) }

/-! Effects. -/

/-- The engine's part of a PARAM_WRITE to a servo axis, from the compute before its effect on: class A in both pages, class
C into the inactive page and a swap (spec/06 R195); its coefficient slices into the inactive C copy (spec/07 R257). -/
def fxPage (a : Nat) (k : PCls) (vs : List (Nat × Word)) (w : Work) : Work :=
  match k with
  | .c =>
    let p := (getCe a w).page
    let q := 1 - p
    let w := wrs (pageAddr a q 0 w) (rds (pageAddr a p 0 w) 256 w) w
    let w := each vs (fun v w => wr (pageAddr a q (v.1 - 0x200) w) v.2 w) w
    let w := modCe a (fun x => { x with page := q, swapped := true }) w
    let ofs := fun (t : Nat) => ((List.range t).map (fun k => fld (pageWord a (0x13 + 4 * k) w) 12 12)).sum
    each (List.range (numFD w.variant)) (fun n w =>
      each (List.range 4) (fun t w =>
        let al := tabGet {} (getFd n w).alloc (4 * a + t)
        if al.used then
          let base := if q == 0 then al.cb0 else al.cb1
          setFd n (each (List.range (fld (pageWord a (0x13 + 4 * t) w) 12 12)) (fun k u =>
            fdWrite 2 (base + k) (pageWord a (0xA0 + ofs t + k) w) u) (getFd n w)) w
        else w) w) w
  | _ => each vs (fun v w => each [0, 1] (fun p w => wr (pageAddr a p (v.1 - 0x200) w) v.2 w) w) w

/-- The effect of a PARAM_WRITE at its effect sync point; the page words of an axis in COMMISSION and later are fxPage's. -/
def fxParam (e : Effect) (w : Work) : Work :=
  let o := prm e.ps 1
  let i := objIndex o
  let vs := paramPairs e.ps
  match objKind o with
  | 0 =>
    if prm e.ps 2 == 0x300 then
      let k := fld (prm e.ps 3) 0 2
      let words := e.ps.drop 3
      let t := if words.all (fun v => v == 0) then none else some (words.map (fun v => fld v 0 18))
      if e.bundle.isNone && nccN w % slowS w == 0 then { w with d.stp.tables := tabSet none w.d.stp.tables k t }
      else { w with d.stp.staged := w.d.stp.staged ++ [(k, t, nccPlus 1 w)] }
    else each vs (fun v w => match v.1 with
      | 0x10 => { w with d.phase.vmRate := v.2 }
      | 0x11 => phaseChange (phSrcOf v.2) w.d.phase.cpm w
      | _ => phaseChange w.d.phase.src (fld v.2 0 24) w) w
  | 1 =>
    if 0x200 ≤ (prm e.ps 2).toNat then w
    else
      let (again, w) := fxServoParam i vs w
      if again then egvChanged false (if carriesCurve i w then egvEnter i (egvCut i w) else egvCut i w) else w
  | 2 =>
    let w := each vs (fun v w => if v.1 == 0x30A then fxRefSet i v.2 w else modStp i (stpPut v.1 v.2) w) w
    if vs.any (fun v => 0x100 ≤ v.1 && v.1 ≤ 0x103) then fxStepReplan i w else w
  | 4 => if prm e.ps 2 == 1 then w else setIoDiv (objNode o).1 (objNode o).2 (prm e.ps 3).toNat w
  | 7 => egvChanged true { w with d.egv := vs.foldl (fun e v => egvPut v.1 v.2 e) w.d.egv }
  | _ => w

end Sys2Proof.Machine
end

