-- ==== Sys2Proof/Machine/Harvest.lean ====
section
/-! DEFINITION. The harvest engine: descriptors and their checks, samples, triggers, mask tests, capture records, hold-off and
the domain trigger bus (spec/15 R482 to R504). -/

namespace Sys2Proof.Machine

def getSet (s : Nat) (w : Work) : HvSet := tabGet {} w.d.hvs.sets s
def setSet (s : Nat) (x : HvSet) (w : Work) : Work := { w with d.hvs.sets := tabSet {} w.d.hvs.sets s x }
def modSet (s : Nat) (f : HvSet → HvSet) (w : Work) : Work := setSet s (f (getSet s w)) w
def getSlotHv (i : Nat) (w : Work) : Option HvSlot := tabGet none w.d.hvs.slots i
def setSlotHv (i : Nat) (x : Option HvSlot) (w : Work) : Work := { w with d.hvs.slots := tabSet none w.d.hvs.slots i x }

/-! Descriptor fields (Table 15.1) of a copy. -/

def dW (l : List Word) (k : Nat) : Word := nth 0 l k
def dNsig (l : List Word) : Nat := fld (dW l 64) 0 7
def dDiv (l : List Word) : Nat := 2 ^ fld (dW l 64) 8 4
def dSegs (l : List Word) : Nat := fld (dW l 64) 12 4 + 1
def dTkind (l : List Word) : Nat := fld (dW l 64) 16 3
def dTline (l : List Word) : Nat := fld (dW l 64) 19 3
def dTedge (l : List Word) : Nat := fld (dW l 64) 22 2
def dTsig (l : List Word) : Nat := fld (dW l 64) 24 6
def dTback (l : List Word) : Nat := fld (dW l 64) 30 4
def dOfs (l : List Word) : Nat := fld (dW l 65) 0 21
def dDepth (l : List Word) : Nat := fld (dW l 66) 0 22
def dPost (l : List Word) : Nat := fld (dW l 67) 0 21
def dHkind (l : List Word) : Nat := fld (dW l 70) 34 2
def dHval (l : List Word) : Nat := fld (dW l 70) 0 24
def dAkind (l : List Word) : Nat := fld (dW l 71) 34 2
def dTout (l : List Word) : Option Nat := if bit (dW l 73) 3 then some (fld (dW l 73) 0 3) else none
def dExtent (l : List Word) : Nat := dNsig l * dDepth l * dSegs l

/-! Signals (Table 15.2). -/

/-- A selector is of a defined kind with its unused bits zero (R483). -/
def selOk (v : Word) : Bool :=
  match fld v 32 4 with
  | 1 => decide (fld v 8 5 < 24) && fld v 13 19 == 0
  | 2 => fld v 8 24 == 0
  | 3 => fld v 17 15 == 0
  | 4 => decide (fld v 0 2 < 3) && fld v 2 30 == 0
  | 5 => decide (fld v 4 2 < 3) && fld v 6 26 == 0 && !bit v 3
  | 6 => fld v 13 19 == 0 && !bit v 11
  | 7 => decide (fld v 8 3 < 3) && fld v 11 20 == 0 && !bit v 7
  | 8 => fld v 0 32 == 0
  | _ => false

/-- A selector names an absent unit (R487, spec/00 R6). -/
def selAbsent (v : Word) (w : Work) : Bool :=
  match fld v 32 4 with
  | 1 | 2 => servoAbsent (fld v 0 8) w
  | 3 => pointAbsent (fld v 0 17) w
  | 6 => stpAbsent (fld v 0 11) w
  | 7 => (mapNode (bit v 31) (fld v 0 7) w).all (fun n => nodeLeftOut n w)
  | _ => false

/-- How two words of a signal compare (R491). -/
inductive SigFmt where
  | f32 | half | uns
deriving DecidableEq, Repr

def sigFmt (v : Word) : SigFmt :=
  match fld v 32 4 with
  | 1 => let t := fld v 8 5
         if t == 0 || t == 3 || t == 4 then .half else if 20 ≤ t && t ≤ 22 then .uns else .f32
  | 4 => if fld v 0 2 == 2 then .uns else .half
  | 5 => match fld v 4 2 with | 0 => .half | 1 => .f32 | _ => .uns
  | 6 => if bit v 12 then .uns else .half
  | 8 => .f32
  | _ => .uns

/-- a lies above b in a format; with a NaN, false. -/
def sigAbove (f : SigFmt) (a b : Word) : Bool :=
  match f with
  | .f32 => fLt (fOfWord b) (fOfWord a)
  | .half => decide (0 < modDiff a b)
  | .uns => decide (b.toNat < a.toNat)

def sigNan (f : SigFmt) (a : Word) : Bool := match f with | .f32 => fIsNaN (fOfWord a) | _ => false

/-- a is at or above b less h (h zero: at or above b). Unsigned levels less their hysteresis are taken exactly (log 72). -/
def sigAtOrBelow (f : SigFmt) (a lvl hys : Word) : Bool :=
  match f with
  | .f32 => !sigNan f a && fLe (fOfWord a) (fSub (fOfWord lvl) (fOfWord hys))
  | .half => decide (modDiff a (lvl - hys) ≤ 0)
  | .uns => decide (a.toNat + hys.toNat ≤ lvl.toNat)
def sigAtOrAbove (f : SigFmt) (a lvl hys : Word) : Bool :=
  match f with
  | .f32 => !sigNan f a && fLe (fAdd (fOfWord lvl) (fOfWord hys)) (fOfWord a)
  | .half => decide (0 ≤ modDiff a (lvl + hys))
  | .uns => decide (lvl.toNat + hys.toNat ≤ a.toNat)

/-- The word of a signal in the sample of the cycle that has ended: o is the device at its end (R484). Trace taps and stepper
positions are read from bank memory. -/
def sigSample (o : Work) (v : Word) (w : Work) : Word × Work :=
  match fld v 32 4 with
  | 1 => let (x, _, w) := softRead (w.d.ce.stBase + 64 * fld v 0 8 + fld v 8 5) w; (x, w)
  | 2 => ((getCe (fld v 0 8) o).aux, w)
  | 3 => (match pointOf (fld v 0 17) o with
    | some (n, q) => (pointRead n q { o with d.trl.inImg := o.d.hvs.inAt, d.trl.outImg := o.d.hvs.outAt }, w)
    | none => (0, w))
  | 4 => (match fld v 0 2 with | 0 => (o.d.phase.mph, w) | 1 => (o.d.phase.mphmShown, w) | _ => (o.d.phase.ncc, w))
  | 5 =>
    let p : FpPort := tabGet {} o.d.hvs.fpAt (fld v 0 3)
    (match fld v 4 2 with | 0 => (p.scnt, w) | 1 => (fToWord p.spd, w) | _ => (fpStatWord p, w))
  | 6 => let x : StpAxis := tabGet {} o.d.hvs.stpAt (fld v 0 11)
         (if bit v 12 then x.devShown else x.p, w)
  | 7 =>
    let n := getNode (bit v 31) (fld v 0 7) o
    (match fld v 8 3 with | 0 => (wdI n.eNow, w) | 1 => (wdI ((n.gNow : Int) - n.eNow.natAbs), w) | _ => (n.g0, w))
  | 8 => (fToWord o.d.hvs.pnowAt, w)
  | _ => (0, w)

/-! Arming (R487, R488). -/

/-- Comparator slots that are free, lowest first (R497). -/
def freeSlots (w : Work) : List Nat := (List.range 16).filter (fun i => (getSlotHv i w).isNone)

/-- The comparator slot the level trigger of a set holds. -/
def levelSlot (s : Nat) (w : Work) : Option Nat :=
  (List.range 16).find? (fun i => match getSlotHv i w with | some y => y.set_ == s && y.level | none => false)

/-- Two extents of the buffer area share a word. -/
def extentsMeet (a b : List Word) : Bool :=
  decide (dOfs a < dOfs b + dExtent b) && decide (dOfs b < dOfs a + dExtent a)

/-- Other sets that are not DISARMED. -/
def otherSets (s : Nat) (w : Work) : List HvSet :=
  ((List.range 8).filter (fun k => k != s)).map (fun k => getSet k w) |>.filter (fun x => x.st != 0)

/-- Words of HVS_BLEN used. -/
def hvsLen (w : Work) : Nat := min w.d.hvs.blen 2097152

/-- Descriptor word k fails (R487); a level trigger's own slot counts as free when the set holds it already. -/
def descBad (s : Nat) (linked mask : Bool) (l : List Word) (k : Nat) (w : Work) : Bool :=
  let n := dNsig l
  if k < 64 then decide (k < n) && decide (n ≤ 64) && !selOk (dW l k)
  else match k with
  | 64 => n == 0 || decide (64 < n) || decide (3 < dTkind l) || (dTkind l != 0 && dTedge l == 0)
      || (dTkind l == 1 && decide (3 < dTline l))
      || (dTkind l == 3 && (((freeSlots w).isEmpty && (levelSlot s w).isNone) || decide (n ≤ dTsig l))) || (dTkind l == 2 && !w.d.sys.domain)
  | 65 => decide (hvsLen w < dOfs l + dExtent l)
      || (otherSets s w).any (fun x => extentsMeet l x.desc)
  | 66 => decide (dDepth l < 2) || decide (2097152 < dDepth l)
  | 67 => decide (dDepth l ≤ dPost l)
  | 70 => decide (1 < dHkind l) || (dHkind l == 1 && (decide (dHval l == 0) || decide (65535 < dHval l)))
      || (dTkind l == 0 && linked && dHkind l == 1)
  | 71 => decide (2 < dAkind l) || (dAkind l != 0 && !mask)
      || (dAkind l == 1 && (if bit (dW l 71) 11 then stpAbsent (fld (dW l 71) 0 11) w
          else servoAbsent (fld (dW l 71) 0 11) w))
      || (dAkind l == 2 && decide (4 < fld (dW l 71) 0 3))
  | 73 => (dTout l).isSome && (!w.d.sys.domain || (otherSets s w).any (fun x => dTout x.desc == dTout l))
  | _ => decide (74 ≤ k) && dW l k != 0

/-- The first word that fails, with true where it names an absent unit. -/
def descCheck (s : Nat) (linked mask : Bool) (l : List Word) (w : Work) : Option (Nat × Bool) :=
  (List.range 128).findSome? (fun k =>
    if descBad s linked mask l k w then some (k, false)
    else if k < 64 && decide (k < dNsig l) && selAbsent (dW l k) w then some (k, true) else none)

/-- The descriptor of a set in bank memory. -/
def descOf (s : Nat) (w : Work) : List Word := rds (w.d.hvs.dbase + 128 * s) 128 w

/-- Release the comparator slots of a set. -/
def dropSlots (s : Nat) (w : Work) : Work :=
  each (List.range 16) (fun i w => match getSlotHv i w with
    | some x => if x.set_ == s then setSlotHv i none w else w
    | none => w) w

/-- Address of the capture record of a set's present segment (R494). -/
def recordAt_ (s : Nat) (x : HvSet) (w : Work) : Nat :=
  w.d.hvs.dbase + 1024 + 256 * s + 16 * (x.capture % dSegs x.desc)

/-- Enter PRE on a capture's segment: its record's word 0 is cleared (Table 15.3). -/
def enterPre (s : Nat) (x : HvSet) (w : Work) : Work :=
  let x := { x with
    st := 1, pos := 0, taken := 0, count := 0, maskFail := false, msig := 0, mpt := 0, midx := 0, mark := none,
    rchg := false, gap := false, latew := false, tkind := 0, tcount := 0, tpos := 0, tpre := 0, tncc := 0, tfrc := 0,
    tfine := 0, left := 0, waiting := none, events := 0, holdLost := 0, armFrc := w.d.phase.frcSync, suspended := false }
  wr (recordAt_ s x w) 0 (setSet s x w)

/-- HARVEST_ARM at its effect (Table 15.3); the words are the descriptor copied at admission. -/
def fxArm (s : Nat) (opts : Word) (l : List Word) (w : Work) : Work :=
  let x := getSet s w
  let w := match dTkind l, levelSlot s w, (freeSlots w).head? with
    | 3, none, some i => setSlotHv i (some { set_ := s, level := true }) w
    | _, _, _ => w
  enterPre s { x with
    desc := l, linked := bit opts 0, maskEn := bit opts 1, capture := if x.st == 0 then 0 else x.capture + 1,
    freezeFrc := if x.st == 0 then none else x.freezeFrc, mfail := false, primedUp := false, primedDown := false,
    anchor := false } w

/-- HARVEST_DISARM at its effect. -/
def fxDisarm (s : Nat) (w : Work) : Work :=
  let x := getSet s w
  if x.st == 0 then w else dropSlots s (setSet s { x with st := 0, waiting := none } w)

/-- A set is disarmed by the device, logged once (Table 15.3). -/
def hvsDisarm (s : Nat) (w : Work) : Work :=
  if (getSet s w).st == 0 then w else logEvent .hvs 0 2 s (fxDisarm s w)

/-- Entry to CONFIG, a takeover: every set is disarmed. -/
def hvsDisarmAll (w : Work) : Work := each (List.range 8) hvsDisarm w

/-- RUN takes effect: sets with a level trigger are disarmed. -/
def hvsRun (w : Work) : Work :=
  each (List.range 8) (fun s w =>
    let x := getSet s w
    if dTkind x.desc == 3 && (x.st == 1 || x.st == 2 || x.st == 4) then hvsDisarm s w else w) w

/-! Mask tables (R495, R496). -/

/-- The table of a MASK_LOAD is sound in a format. -/
def maskOk (f : SigFmt) : List Word → Bool
  | lo :: hi :: r => !sigAbove f lo hi && (f != .f32 || (!fSpecial (fOfWord lo) && !fSpecial (fOfWord hi))) && maskOk f r
  | _ => true

/-- The slot a MASK_LOAD uses: the signal's own, else a free one. -/
def maskSlot (s sig : Nat) (w : Work) : Option Nat :=
  match (List.range 16).find? (fun i => match getSlotHv i w with
      | some y => y.set_ == s && !y.level && y.sig == sig | none => false) with
  | some i => some i
  | none => (freeSlots w).head?

/-- Copy a table into its slot (R496). -/
def maskLoad (s sig a n i : Nat) (w : Work) : Work :=
  setSlotHv i (some { set_ := s, sig := sig, points := n })
    (wrs (w.d.hvs.mbase + 8192 * i) (rds a (2 * n) w) w)

/-! Triggers (R490 to R492). -/

/-- Domain triggers count from S0 + 64 with the compensation in force (R503). -/
def domReady (w : Work) : Bool := w.d.hvs.calOk && w.d.hvs.domOn

/-- Fire a set on the sample n whose position and cycle are given (R490); b samples have been taken since, the trigger
sample among them. -/
def hvsFire (s kind n pos : Nat) (ncc : Word) (frc : BitVec 64) (fine b : Nat) (w : Work) : Work :=
  let x := getSet s w
  let post := dPost x.desc
  let w := setSet s { x with
    st := 2, tkind := kind, tcount := n, tpos := pos, tpre := min n (dDepth x.desc - 1 - max post (b - 1)), tncc := ncc
    tfrc := frc, tfine := fine, left := post - (b - 1), waiting := none } w
  match dTout x.desc with
  | some l => if domReady w then send (.tbus l) w else w
  | none => w

/-- Mask violation at a sample (R499, R500). -/
def hvsViolate (s sig pt n : Nat) (w : Work) : Work :=
  let x := getSet s w
  if x.maskFail then w
  else
    let w := setSet s { x with maskFail := true, mfail := true, msig := sig, mpt := pt, midx := n } w
    let w := irq 15 (logEvent .hvs 0 1 (put 33 3 s + put 27 6 sig + put 0 12 pt) w)
    let q := dW x.desc 72
    if bit q 35 then ownEffect 0x047 [0x3FF] false w
    else if bit q 34 then
      each (List.range (fld q 32 2 + 1)) (fun j w => ownEffect 0x047 [wd (fld q (8 * j) 8)] false w) w
    else w

/-- Compare one sample of a set with its masks, and advance their points; true where a violation was the capture's first
(R498, R499, R501). -/
def hvsCompare (s n : Nat) (ws : List Word) (w : Work) : Bool × Work :=
  let x := getSet s w
  if !x.maskEn then (false, w)
  else
    let was := x.maskFail
    let w := each (List.range 16) (fun i w =>
      match getSlotHv i w with
      | some y =>
        if y.set_ != s || y.level then w
        else match y.next with
          | none => w
          | some p =>
            let a := w.d.hvs.mbase + 8192 * i + 2 * p
            let (lo, _, w) := softRead a w
            let (hi, _, w) := softRead (a + 1) w
            let v := nth 0 ws y.sig
            let f := sigFmt (dW x.desc y.sig)
            let bad := sigNan f v || sigAbove f v hi || sigAbove f lo v
            let w := setSlotHv i (some { y with next := if p + 1 < y.points then some (p + 1) else none }) w
            if bad && w.d.therm.state != .trim then hvsViolate s y.sig p n w else w
      | none => w) w
    (!was && (getSet s w).maskFail, w)

/-- Restart the mask points of a set at an anchor. -/
def hvsAnchor (s : Nat) (w : Work) : Work :=
  each (List.range 16) (fun i w => match getSlotHv i w with
    | some y => if y.set_ == s && !y.level then setSlotHv i (some { y with next := some 0 }) w else w
    | none => w) w

/-- A level trigger on a word: whether it fires, and the primed marks after (R491). -/
def hvsLevel (x : HvSet) (v : Word) : Bool × HvSet :=
  let l := x.desc
  let f := sigFmt (dW l (dTsig l))
  let e := dTedge l
  let rise := (e == 1 || e == 3) && x.primedUp && sigAtOrAbove f v (dW l 68) 0
  let fall := (e == 2 || e == 3) && x.primedDown && sigAtOrBelow f v (dW l 68) 0
  let x := { x with
    primedUp := (x.primedUp && !rise) || sigAtOrBelow f v (dW l 68) (dW l 69)
    primedDown := (x.primedDown && !fall) || sigAtOrAbove f v (dW l 68) (dW l 69) }
  (rise || fall, x)

/-- Words of a sample. -/
def hvsWords (o : Work) (l : List Word) (w : Work) : List Word × Work :=
  each (l.take (dNsig l)) (fun v (acc : List Word × Work) => let (x, w) := sigSample o v acc.2; (acc.1 ++ [x], w)) ([], w)

/-- The sample of the cycle that has ended, for one set; o is the device at that cycle's end (R485, R490). -/
def hvsTake (o : Work) (s : Nat) (w : Work) : Work :=
  let x := getSet s w
  let l := x.desc
  let k := o.d.phase.ncc
  if k.toNat % dDiv l != 0 || !(x.st == 1 || (x.st == 2 && x.left != 0) || (x.st == 4 && dTkind l == 3)) then w
  else if o.d.therm.state == .hold then
    if x.st == 4 then w
    else
      let w := hvsAnchorStep s w
      setSet s { (getSet s w) with suspended := true } w
  else
    let (ws, w) := hvsWords o l w
    let (lev, x) := if dTkind l == 3 then hvsLevel (getSet s w) (nth 0 ws (dTsig l)) else (false, getSet s w)
    if x.st == 4 then setSet s { x with events := x.events + (if lev then 1 else 0) } w
    else
      let n := x.count
      let p := x.pos
      let (late, w) := if w.d.mem.arb then freeN 2 w else (0, w)
      let ws := if late == 1 then (hvsWords w l w).1 else ws
      let w := wrs (w.d.hvs.bbase + dOfs l + (x.capture % dSegs l) * dDepth l * dNsig l + p * dNsig l) ws w
      let chg := n != 0 && x.rate != o.d.sys.rate
      let w := setSet s { x with
        count := n + 1, pos := (p + 1) % dDepth l, taken := min (n + 1) (dDepth l), rate := o.d.sys.rate
        rchg := x.rchg || chg, gap := x.gap || x.suspended, suspended := false, latew := x.latew || late == 1
        mark := if x.mark.isNone && (chg || x.suspended) then some n else x.mark
        anchor := false } w
      let w := when_ x.anchor (hvsAnchor s) w
      let (viol, w) := hvsCompare s n ws w
      let sync := o.d.phase.frcSync
      if x.st == 2 then modSet s (fun y => { y with left := y.left - 1 }) w
      else
        let fire := fun (kind : Nat) (frc : BitVec 64) (fine : Nat) (w : Work) =>
          let w := hvsFire s kind n p k frc fine 1 w
          if dAkind l == 0 then (hvsCompare s n ws (hvsAnchor s w)).2 else w
        if viol then fire 4 sync 0 w
        else if lev then fire 3 sync 0 w
        else match (getSet s w).waiting with
          | some t => if atOrPast k t.from_ then fire t.kind t.frc t.fine w else w
          | none => w
where
  /-- points advance with the samples a suspended set would have taken (R501) -/
  hvsAnchorStep (s : Nat) (w : Work) : Work :=
    let w := when_ (getSet s w).anchor (hvsAnchor s) w
    let w := modSet s (fun y => { y with anchor := false }) w
    if !(getSet s w).maskEn then w
    else each (List.range 16) (fun i w => match getSlotHv i w with
      | some y => if y.set_ == s && !y.level then
          setSlotHv i (some { y with next := y.next.bind (fun p => if p + 1 < y.points then some (p + 1) else none) }) w
          else w
      | none => w) w

/-- A hold-off makes no progress in thermal state HOLD (Table 15.3). -/
def hvsHeld (o : Work) (s : Nat) (w : Work) : Work :=
  if o.d.therm.state == .hold && (getSet s w).st == 4 then
    modSet s (fun x => { x with holdLost := x.holdLost + (w.d.phase.frcSync - o.d.phase.frcSync).toNat }) w
  else w

/-- The samples of the cycle that has ended. -/
def hvsSample (o : Work) (w : Work) : Work := each (List.range 8) (fun s w => hvsTake o s (hvsHeld o s w)) w

/-- The anchors of a cycle's effects reach the sets (R498): kind 1 servo, 2 stepper, 3 queue. -/
def hvsAnchors (w : Work) : Work :=
  let l := w.d.hvs.anchors
  each (List.range 8) (fun s w =>
    let x := getSet s w
    let d := dW x.desc 71
    let mine := match dAkind x.desc with
      | 1 => (if bit d 11 then 2 else 1, fld d 0 11)
      | 2 => (3, fld d 0 3)
      | _ => (0, 0)
    if x.st != 0 && l.contains mine then setSet s { x with anchor := true } w else w) { w with d.hvs.anchors := [] }

/-- Values in force at a sync point are kept for the sample of its cycle (R484). -/
def hvsSnap (w : Work) : Work :=
  { w with
    d.hvs.fpAt := w.d.fp, d.hvs.inAt := w.d.trl.inImg, d.hvs.outAt := w.d.trl.outImg, d.hvs.stpAt := w.d.stp.axes
    d.hvs.pnowAt := w.d.egv.pnow }

/-! External events. -/

/-- The first sync point at or after an instant of the present cycle or just before it. -/
def syncAfter (frc : BitVec 64) (fine : Nat) (w : Work) : Word :=
  let d := (frc - w.d.phase.frcSync).toInt
  if d < 0 || (d == 0 && fine == 0) then w.d.phase.ncc else nccPlus 1 w

/-- An event of a set's trigger source at an instant, whose first sample is of cycle c (R490). -/
def hvsEvent (s kind : Nat) (c : Word) (frc : BitVec 64) (fine : Nat) (w : Work) : Work :=
  let x := getSet s w
  let l := x.desc
  if w.d.therm.state == .hold then w
  else if x.st == 4 then (if kind == 5 then w else setSet s { x with events := x.events + 1 } w)
  else if x.st != 1 then w
  else
    let v := dDiv l
    let last := (nccN w - 1) / v * v
    let dist := modDiff (wd last) c
    let b := if dist < 0 then 0 else min (dist.toNat / v + 1) x.taken
    if b == 0 then
      let t : HvTrig := { kind := kind, from_ := c, frc := frc, fine := fine }
      let keep := match x.waiting with
        | some o => if modDiff c o.from_ < 0 || (c == o.from_ && o.kind == 5 && kind != 5) then t else o
        | none => t
      setSet s { x with waiting := some keep } w
    else
      let n := x.count - b
      let p := (x.pos + b * dDepth l - b) % dDepth l
      let w := hvsFire s kind n p (wd (last - (b - 1) * v)) frc fine b w
      if dAkind l != 0 then w
      else
        let base := w.d.hvs.bbase + dOfs l + (x.capture % dSegs l) * dDepth l * dNsig l
        each (List.range b) (fun j w =>
          (hvsCompare s (n + j) (rds (base + ((p + j) % dDepth l) * dNsig l) (dNsig l) w) w).2) (hvsAnchor s w)

/-- The edge matches TEDGE. -/
def edgeOk (l : List Word) (high : Bool) : Bool := dTedge l == 3 || dTedge l == (if high then 1 else 2)

/-- XTRIG_EDGE: line n reads a level, the pin edge being at an instant of FRC and ns; it is accepted where the level is new and
has been held for XFILT + 1 samples. -/
def xtrigEdge (n : Nat) (e : LineRun) (frc : BitVec 64) (fine : Nat) (w : Work) : Work :=
  if e.samples ≤ w.d.hvs.xfilt || w.d.hvs.xlevel.getLsbD n == e.level then w
  else
    let w := { w with d.hvs.xlevel := bvPut n e.level w.d.hvs.xlevel }
    let j := syncAfter frc fine w
    each (List.range 8) (fun s w =>
      let l := (getSet s w).desc
      if dTkind l == 1 && dTline l == n && edgeOk l e.level then hvsEvent s 1 (j - wd (dTback l)) frc fine w else w) w

/-- The domain master calibrates its stations: S0 has passed and S0 + 64 has not (R503). -/
def domEchoes (n : Nat) (high : Bool) (w : Work) : Bool :=
  w.d.hvs.s0.isSome && w.d.sys.domain && !w.d.hvs.domOn && w.d.hvs.didx == 0 && n == 0 && high

/-- TBUS_EDGE on a line, arriving at an instant; its stamp is the arrival less d; a station's probe is echoed by the master
(R503). -/
def tbusEdge (n : Nat) (high : Bool) (frc : BitVec 64) (fine : Nat) (w : Work) : Work :=
  if !domReady w then (if domEchoes n high w then send (.tbus 0) w else w)
  else
    let ns : Int := (4 * (frc.toNat : Int) + fine) - w.d.hvs.tcomp
    let t : BitVec 64 := BitVec.ofInt 64 (ns / 4)
    let f := (ns % 4).toNat
    let j := syncAfter t f w
    each (List.range 8) (fun s w =>
      let l := (getSet s w).desc
      if dTkind l == 2 && dTline l == n && edgeOk l high then hvsEvent s 2 (j - wd (dTback l)) t f w else w) w

/-- HVS_FORCE_WRITE (R490). -/
def hvsForce (v : Word) (w : Work) : Work :=
  let now := w.d.ptm.frc
  each ((List.range 8).filter (fun s => bit v s)) (fun s w => hvsEvent s 5 (syncAfter now 0 w) now 0 w) w

/-! Records (R494). -/

/-- The sixteen words of a capture record. -/
def hvsRecord (x : HvSet) (freeze : BitVec 64) : List Word :=
  let rel := fun (n : Nat) => wd (BitVec.ofInt 21 ((n : Int) - x.tcount)).toNat
  let dead : Nat := match x.freezeFrc with
    | some f => min (2 ^ 36 - 1) (4 * (x.armFrc - f).toNat)
    | none => 0
  [wd (putB 35 true + putB 34 x.maskFail + putB 33 x.rchg + putB 32 x.gap + putB 31 x.latew + put 28 3 x.tkind
      + put 24 4 (x.capture % dSegs x.desc) + put 0 2 x.tfine), x.tncc,
   wd (x.tfrc.toNat / 2 ^ 36), wd x.tfrc.toNat, wd (freeze.toNat / 2 ^ 36), wd freeze.toNat, wd x.tpre, wd x.tpos,
   wd dead, (match x.mark with | some n => rel n | none => 0),
   wd (put 30 6 x.msig + put 18 12 x.mpt), if x.maskFail then rel x.midx else 0, 0, 0, 0, 0]

/-- CAPTURE_FREEZE of set s: its POST samples have been taken; the freeze instant is the present sync point. -/
def captureFreeze (s : Nat) (w : Work) : Work :=
  let x := getSet s w
  if x.st != 2 || x.left != 0 then w
  else
    let f := w.d.phase.frcSync
    let ws := hvsRecord x f
    let a := recordAt_ s x w
    let w := wr a (nth 0 ws 0) (wrs (a + 1) (ws.drop 1) w)
    let w := irq 14 w
    setSet s { x with
      st := (if x.linked && !x.maskFail then 4 else 3), freezeFrc := some f, events := 0, holdLost := 0 } w

/-- The hold-off of a set in HELD is over (R493). -/
def holdOver (x : HvSet) (w : Work) : Bool :=
  if dHkind x.desc == 1 then decide (dHval x.desc ≤ x.events)
  else match x.freezeFrc with
    | some f => decide (250 * dHval x.desc + x.holdLost ≤ (w.d.phase.frcSync - f).toNat)
    | none => true

/-- HOLD_OFF_END of set s: back to PRE on the next segment (R493). -/
def holdOffEnd (s : Nat) (w : Work) : Work :=
  let x := getSet s w
  if x.st == 4 && w.d.therm.state != .hold && holdOver x w then enterPre s { x with capture := x.capture + 1 } w else w

/-! Domain calibration (R503). -/

/-- DOMAIN_CALIBRATION: the master sends a reference pulse for each of the stations 1 to 3; a station sends its probe, and takes the
reference pulse's arrival and the echo's round trip in ns, where both came. -/
def domCalibrate (got : Bool) (a r : Nat) (w : Work) : Work :=
  if w.d.hvs.s0.isNone || !w.d.sys.domain then w
  else if w.d.hvs.didx == 0 then
    let w := { w with d.hvs.calOk := true, d.hvs.dcomp := 0, d.hvs.tcomp := 0 }
    send (.tbus 0) (send (.tbus 0) (send (.tbus 0) w))
  else
    let w := send (.tbus 0) w
    let d : Int := ((r : Int) - 2000) / 2
    let c : Int := 1000 + d - a
    if got && decide (0 ≤ d) && decide (d ≤ 60) && decide (-60 ≤ c) && decide (c ≤ 60) then
      logEvent .hvs 0 3 (put 16 16 (BitVec.ofInt 16 c).toNat + put 0 16 d.toNat)
        { w with d.hvs.calOk := true, d.hvs.dcomp := c, d.hvs.tcomp := d.toNat }
    else logEvent .hvs 0 4 0 { w with d.hvs.calOk := false, d.hvs.dcomp := 0, d.hvs.tcomp := 0 }

/-! Registers. -/

/-- HVS_STAT and HVS_Sn_STAT (Tables 15.9, 15.12); SUSP and SLOTS as now. -/
def hvsStatWord (w : Work) : Word :=
  wd (put 17 7 w.d.hvs.derr + putB 16 (w.d.therm.state == .hold)
    + ((List.range 16).map (fun i => putB i (getSlotHv i w).isSome)).sum)
def hvsSetWord (s : Nat) (w : Work) : Word :=
  let x := getSet s w
  wd (putB 29 x.mfail + put 25 4 (if x.st == 0 then 0 else x.capture % dSegs x.desc) + put 4 21 x.pos + putB 3 x.linked
    + put 0 3 x.st)

/-- The registers of R504 take the values of the present sync point. -/
def hvsShow (w : Work) : Work :=
  let past := match w.d.hvs.s0 with | some s0 => decide (64 ≤ modDiff w.d.phase.ncc s0) | none => false
  { w with
    d.hvs.domOn := w.d.hvs.domOn || past, d.hvs.shownStat := hvsStatWord w, d.hvs.shownSets := (List.range 8).map (fun s => hvsSetWord s w) }

/-- HVS_FORCE_WRITE. -/
def execHvsForceWrite (v : Word) (s : State) : Host.Outcome State Fault Refusal := run (hvsForce v) s

/-- CAPTURE_FREEZE. -/
def execCaptureFreeze (k : Fin 8) (s : State) : Host.Outcome State Fault Refusal := run (captureFreeze k.val) s

/-- HOLD_OFF_END. -/
def execHoldOffEnd (k : Fin 8) (s : State) : Host.Outcome State Fault Refusal := run (holdOffEnd k.val) s

/-- XTRIG_EDGE. -/
def execXtrigEdge (n : Fin 4) (high : LineRun) (frc : BitVec 64) (fine : Fin 4) (s : State) :
    Host.Outcome State Fault Refusal := run (xtrigEdge n.val high frc fine.val) s

/-- TBUS_EDGE. -/
def execTbusEdge (n : Fin 8) (high : Bool) (frc : BitVec 64) (fine : Fin 4) (s : State) :
    Host.Outcome State Fault Refusal := run (tbusEdge n.val high frc fine.val) s

/-- DOMAIN_CALIBRATION. -/
def execDomainCalibration (got : Bool) (a r : Nat) (s : State) : Host.Outcome State Fault Refusal :=
  run (domCalibrate got a r) s

end Sys2Proof.Machine
end

