-- ==== Sys2Proof/Machine/Hedge.lean ====
section
/-! DEFINITION. The Hedge safety island: two channels, holds and outputs, safe inputs, the black channel, brake tests,
fault reaction, lock release and the status window (spec/14 R446 to R480, spec/22 R633). -/

namespace Sys2Proof.Machine

def hg (w : Work) : HdgSt := w.d.hdg
def setHg (h : HdgSt) (w : Work) : Work := { w with d.hdg := h }
def getConn (c : Nat) (h : HdgSt) : HConn := tabGet {} h.conns c
def putConn (c : Nat) (x : HConn) (h : HdgSt) : HdgSt := { h with conns := tabSet {} h.conns c x }

/-- The island is out of reset: HRST_N high and its supplies in range (R446, spec/22 R633). -/
def islandUp (h : HdgSt) : Bool := h.hrstN && h.supply

/-! Switches (Table 14.2). -/

def swAddr (sw : Nat) : Nat := sw % 256
def swBti (sw : Nat) : Nat := sw / 256 % 8
def swTec (sw : Nat) : Nat := sw / 2048 % 8
def swPairs (sw : Nat) : Nat := match sw / 16384 % 4 with | 0 => 0 | 1 => 2 | 2 => 4 | _ => 8

/-- The island state of R453. -/
def islandState (h : HdgSt) : HState :=
  if h.pState = .locked || h.lState = .locked then .locked
  else if h.pState = .init || h.lState = .init then .init else .open_

/-- State encoding of HDG_STAT (Table 14.14). -/
def hCode : HState → Nat | .init => 0 | .open_ => 1 | .locked => 2

/-! Holds and outputs (R454 to R458, Table 14.4). -/

/-- Hold is permitted by the last HB message (R458). -/
def holdOk (h : HdgSt) : Bool := h.hbRole == 0 || h.hbRole == 1 || (h.hbRole == 2 && !h.hbStale)

/-- The conditions of Table 14.4 that do not name a brake: state, release block, heartbeat. A lock of either channel is
the island's (log 56). -/
def holdBase (h : HdgSt) : Bool := decide (islandState h = .open_) && !h.blocked && h.hbFresh && holdOk h

/-- Connection 0 alive. -/
def conn0 (h : HdgSt) : Bool := (getConn 0 h).alive

/-- No brake test in its applied phase on a local pair, on a drive connection. -/
def testOff (remote : Bool) (k : Nat) (h : HdgSt) : Bool :=
  match h.test with | some t => !(t.remote == remote && t.idx == k) | none => true

/-- BRK_P[b] on (R456). -/
def brkPOn (b : Nat) (h : HdgSt) : Bool :=
  holdBase h && decide (b < swPairs h.swP) && conn0 h && h.lrel.getLsbD b && h.hbLocal.getLsbD b && testOff false b h

/-- STO_A high (R456). -/
def stoAOn (h : HdgSt) : Bool := holdBase h && conn0 h && h.stoPermit

/-- Hedge-L's own conditions (R457). -/
def holdL (h : HdgSt) : Bool :=
  decide (islandState h = .open_) && !h.blocked && h.xOk && !h.xLock && h.hlkiP && h.hlkiL

/-- BRK_L[b] on (R457). -/
def brkLOn (b : Nat) (h : HdgSt) : Bool :=
  holdL h && decide (b < swPairs h.swL) && h.xRel.getLsbD b && !h.lOverdue.getLsbD b

/-- BRK_REL of connection c (R467). -/
def brkRel (c : Nat) (h : HdgSt) : Bool :=
  holdBase h && conn0 h && h.rrel.getLsbD c && h.hbConn.getLsbD c && testOff true c h

/-- Eight bits from a predicate. -/
def bits8 (f : Nat → Bool) : BitVec 8 := BitVec.ofNat 8 (((List.range 8).map (fun k => putB k (f k))).sum)

/-- The outputs follow their conditions (R454, R456, R457). -/
def hOutputs (h : HdgSt) : HdgSt :=
  { h with
    brkP := bits8 (fun b => brkPOn b h)
    brkL := bits8 (fun b => brkLOn b h)
    stoA := stoAOn h
    stoB := holdL h && h.xSto }

/-! Fault reaction (R473). -/

/-- Which channel detects: Hedge-P, Hedge-L, both. -/
inductive Who where
  | p | l | both
deriving DecidableEq, Repr

/-- A fault of Table 14.12 with its index. A channel in INIT or already LOCKED keeps its state; the cause of HF_SWITCH and
HF_INTERNAL persists (R475). HLK goes low where the lock is of the unit's own fault; a fault found in LOCKED is the last one
in HDG_FAULT and no more. -/
def hFault (code idx : Nat) (who : Who) (h : HdgSt) : HdgSt :=
  let was := islandState h
  let p := (who == .p || who == .both) && (h.pState = .open_ || code == 6 || code == 9)
  let l := (who == .l || who == .both) && (h.lState = .open_ || code == 6 || code == 9)
  let last := { h with fLast := code, fIndex := idx, fTms := h.ms % 4194304 }
  if !(p || l) then (if islandState h = .init then h else last)
  else
    let own := code != 8
    hOutputs { last with
      pState := if p then .locked else h.pState
      lState := if l then .locked else h.lState
      permanent := h.permanent || code == 6 || code == 9
      propag := !own && (was != .locked || h.propag)
      fcode := if was = .locked then h.fcode else code
      hlkP := h.hlkP && !own, hlkL := h.hlkL && !own, relCheck := false
      test := if code == 4 then none else h.test }

/-- Abort a brake test: the torque goes back to 0 and the brake stays due; the command completes with result 2 (R472, log
55). -/
def btAbort (w : Work) : Work :=
  let dev := match w.d.hdg.test with | some t => t.maxDev | none => 0
  let w := { w with d.hdg := hOutputs { w.d.hdg with test := none } }
  match w.d.hdg.btCmd with
  | none => w
  | some (c, a) =>
    let w := modCe a (fun x => { x with bt := x.bt.map (fun b => { b with down := true }) }) w
    let w := logEvent .hdg 0 5 2 w
    report c { status := stOK, res := [2, wd dev] } { w with d.hdg.btCmd := none }

/-! Reset and start (R446, R451 to R454, Table 14.3). -/

/-- The island in reset: safe outputs, everything forgotten; semaphores and mailbox sides of MID 31 are reset (spec/16
R530, spec/17 R541). The device's own side of the messages stays. -/
def hedgeReset (f : HdgSt → HdgSt) (w : Work) : Work :=
  let w := if w.d.hdg.btCmd.isSome then btAbort w else w
  let o := w.d.hdg
  let fresh : HdgSt := {
    hrstN := o.hrstN, supply := o.supply, si := o.si, hlkiP := o.hlkiP, hlkiL := o.hlkiL, ackN := o.ackN
    fromHedge := o.fromHedge, hbNext := o.hbNext }
  sideReset 31 (semReleaseAll 31 { w with d.hdg := f fresh })

/-- HRST_N_LOW. -/
def hrstLow (w : Work) : Work := if hasHedge w.variant then hedgeReset (fun h => { h with hrstN := false }) w else w

/-- HEDGE_SUPPLY_FAULT. -/
def supplyFault (w : Work) : Work := if hasHedge w.variant then hedgeReset (fun h => { h with supply := false }) w else w

/-- Both channels read the switch bank as the island leaves reset; different readings lock it (R451, R452). -/
def readSwitches (p l : Nat) (h : HdgSt) : HdgSt :=
  let h := { h with swP := p, swL := l }
  if islandUp h && p != l then hFault 6 0 .both h else h

/-- HRST_N_RELEASE with the channels' readings. -/
def hrstRelease (p l : Nat) (w : Work) : Work :=
  if hasHedge w.variant && !w.d.hdg.hrstN then setHg (readSwitches p l { w.d.hdg with hrstN := true }) w else w

/-- HEDGE_SUPPLY_RESTORED with the channels' readings. -/
def supplyBack (p l : Nat) (w : Work) : Work :=
  if hasHedge w.variant && !w.d.hdg.supply then setHg (readSwitches p l { w.d.hdg with supply := true }) w else w

/-- Hedge-P enters OPEN: every pair in use and every drive connection with a timer becomes due, its HLK goes high (Table 14.3,
R468). -/
def hOpenP (h : HdgSt) : HdgSt :=
  { h with
    pState := .open_, due := bits8 (fun b => decide (b < swPairs h.swP))
    conns := h.conns.map (fun kv => (kv.1, { kv.2 with due := kv.2.timer })), hlkP := true }

/-- Hedge-L enters OPEN: its timers begin, its HLK goes high (Table 14.3, R469). -/
def hOpenL (h : HdgSt) : HdgSt := { h with lState := .open_, lOverdue := 0, hlkL := true }

/-- SELF_TEST_DONE of both channels (Table 14.3). -/
def selfTest (okP okL : Bool) (w : Work) : Work :=
  let h := w.d.hdg
  if !hasHedge w.variant || !islandUp h || h.pState != .init || h.lState != .init then w
  else
    let h := if okP then hOpenP h else h
    let h := if okL then hOpenL h else h
    if okP && okL then setHg (hOutputs h) w
    else setHg (hFault 9 0 (if okP then .l else if okL then .p else .both) h) w

/-! The cross-link (R448, R457). -/

/-- The 18 bits of a cross-link word: count, release bits, STO permit, LOCK, PASS valid and its pair. -/
def xBits (h : HdgSt) : List Bool :=
  bitsMSB 4 h.xCount ++ (List.range 8).map (fun b => brkPOn b h) ++ [stoAOn h, decide (h.pState = .locked), h.pass.isSome]
    ++ bitsMSB 3 (h.pass.getD 0)

/-- Every bit followed by its complement. -/
def xWord (h : HdgSt) : BitVec 36 :=
  BitVec.ofNat 36 ((xBits h).foldl (fun v b => 4 * v + (if b then 2 else 1)) 0)

/-- CROSS_LINK_WORD: the word of this millisecond, with whether every complement checks at Hedge-L. The word before is the
last one received, used or not (log 59). -/
def crossLink (ok : Bool) (w : Work) : Work :=
  let h := w.d.hdg
  if !hasHedge w.variant || !islandUp h || h.pState = .init then w
  else
    let w := send (.crossLink (xWord h)) w
    let use := ok && h.xCount == (h.lCount + 1) % 16
    let rel := bits8 (fun b => brkPOn b h)
    let lock := decide (h.pState = .locked)
    let n := { h with ms := h.ms + 1, xCount := (h.xCount + 1) % 16, lCount := h.xCount, pass := none }
    let n := if !use then n
      else
        let n := { n with
          xOk := true, xRel := rel, xSto := stoAOn h, xLock := lock
          lOverdue := match h.pass with | some b => bvPut b false n.lOverdue | none => n.lOverdue }
        if lock && n.lState = .open_ then { n with lState := .locked } else n
    setHg (hOutputs n) w

/-- CROSS_LINK_LOSS: no usable word for 3 ms (R457, Table 14.12). -/
def crossLoss (w : Work) : Work :=
  let h := w.d.hdg
  if !hasHedge w.variant || h.lState = .init then w
  else setHg (hFault 9 0 .l (hOutputs { h with xOk := false })) w

/-! Heartbeat (R458, R459, Table 14.8). -/

/-- The request bits SC0 sends: the brakes bound to servo axes that are enabled and not faulted (R459). -/
def hbRequests (remote : Bool) (w : Work) : Nat :=
  (((imageOf w).brakes.filter (fun x => x.1 == remote)).filter (fun x =>
    let a := getCe x.2.2 w
    a.enabled && a.fcode == 0)).foldl (fun m x => m ||| 2 ^ x.2.1) 0

/-- The words of the HB message. -/
def hbWords (w : Work) : List Word :=
  let c := hbRequests true w
  [wd (put 32 4 1 + put 30 2 (roleCode w.d.sys.role) + putB 29 w.d.sys.stale + put 0 16 w.d.hdg.hbNext),
   wd (put 0 8 (hbRequests false w)), wd (put 0 32 c), wd (put 0 32 (c / 2 ^ 32))]

/-- A heartbeat message at Hedge-P. -/
def hbTake (ws : List Word) (h : HdgSt) : HdgSt :=
  let w0 := nth 0 ws 0
  hOutputs { h with
    hbFresh := true, hbRole := fld w0 30 2, hbStale := bit w0 29, hbCount := fld w0 0 16
    hbLocal := BitVec.ofNat 8 (fld (nth 0 ws 1) 0 8)
    hbConn := BitVec.ofNat 64 (fld (nth 0 ws 2) 0 32 + 2 ^ 32 * fld (nth 0 ws 3) 0 32) }

/-- BTEST at Hedge-P: the named brake is commanded applied (R470, R471). -/
def btTake (p : Word) (conns : Nat) (h : HdgSt) : HdgSt :=
  if h.test.isSome then h
  else
    let remote := bit p 8
    let k := if remote then conns else fld p 0 3
    hOutputs { h with test := some { remote := remote, idx := k, conn := if remote then k else k + 1 } }

/-- The drive connection the base configuration binds to an axis (R470). -/
def connOfAxis (a : Nat) (w : Work) : Option Nat :=
  ((imageOf w).brakes.find? (fun x => x.1 && x.2.2 == a)).map (fun x => x.2.1)

/-- The axis the base configuration binds to a local pair. -/
def axisOfPair (b : Nat) (w : Work) : Option Nat :=
  ((imageOf w).brakes.find? (fun x => !x.1 && x.2.1 == b)).map (fun x => x.2.2)

/-- TKO at Hedge-P: seven connections' sequence numbers, next to send + 2 and next expected; each timeout restarts, so an
expected connection counts as alive from here (R479, log 109). -/
def tkoTake (ws : List Word) (h : HdgSt) : HdgSt :=
  let first := fld (nth 0 ws 0) 0 6
  each ((ws.drop 1).zipIdx) (fun p h =>
    let c := first + p.2
    if c < 64 then
      let x := getConn c h
      let wait := x.seen || (c != 0 && h.connMask.getLsbD c)
      putConn c { x with
        nextTx := (fld p.1 16 16 + 2) % 65536, nextRx := fld p.1 0 16, alive := x.alive || wait, seen := wait } h
    else h) h

/-- Hedge-P drains channel 15 (R450, Table 14.8). -/
def hedgeDrain : Nat → Work → Work
  | 0, w => w
  | n + 1, w =>
    match mbxTake 31 15 w with
    | (none, w) => w
    | (some ws, w) =>
      let w0 := nth 0 ws 0
      let w := match fld w0 32 4 with
        | 1 =>
          let w := setHg (hbTake ws w.d.hdg) w
          if w.d.hdg.test.isSome && !holdOk w.d.hdg then btAbort w else w
        | 2 => setHg (btTake (nth 0 ws 1) ((connOfAxis (fld (nth 0 ws 1) 0 8) w).getD 0) w.d.hdg) w
        | 4 => setHg (tkoTake ws w.d.hdg) w
        | _ => w
      hedgeDrain n w

/-- Whether Hedge-P runs its message loop. -/
def hedgeRuns (w : Work) : Bool := hasHedge w.variant && islandUp w.d.hdg && w.d.hdg.pState != .init

/-- Hedge-P drains its queue at once; out of reset only. -/
def hedgeHear (w : Work) : Work := if hedgeRuns w then hedgeDrain 8 w else w

/-- HB: SC0 sends its message every millisecond, from CONFIG on, and Hedge-P hears it (R459). -/
def hbSend (w : Work) : Work :=
  if !hasHedge w.variant || !fromConfig w.d.sys.st then w
  else
    let w := mbxPut 2 15 (hbWords w) w
    hedgeHear { w with d.hdg.hbNext := (w.d.hdg.hbNext + 1) % 65536 }

/-- HEARTBEAT_TIMEOUT: no HB for 3 ms; every hold is withdrawn, without a lock, and a brake test is aborted (R458, R472). -/
def hbTimeout (w : Work) : Work :=
  if !hasHedge w.variant then w
  else
    let w := { w with d.hdg := hOutputs { w.d.hdg with hbFresh := false } }
    if w.d.hdg.test.isSome then btAbort w else w

/-! Safe inputs (R460, R461, Table 14.5). -/

/-- TEST_PULSE_FRAME: a new 20 ms frame of test pulses. -/
def pulseFrame (w : Work) : Work :=
  if !hedgeRuns w then w
  else setHg { w.d.hdg with pulsePrev := w.d.hdg.pulseNow, pulseNow := [] } w

/-- PULSE_CHECK_SAMPLE: the three samples of input n around a pulse of TPS[k]. -/
def pulseSample (k n : Nat) (b d a : Bool) (w : Work) : Work :=
  if !hedgeRuns w then w
  else
    let h := w.d.hdg
    let h := if b == a then { h with si := bvPut n b h.si } else h
    let key := if n % 4 == k then (if b && d && a then some (5 * n) else none)
      else (if b && !d && a then some (5 * n + 1 + k) else none)
    match key with
    | none => setHg h w
    | some j =>
      let twice := tabGet 0 h.pulsePrev j == 1
      let h := { h with pulseNow := tabSet 0 h.pulseNow j 1 }
      if twice then
        setHg (hFault (if n % 4 == k then 2 else 3) n .both { h with siFault := bvPut n true h.siFault }) w
      else setHg h w

/-- DISCREPANCY_TIMEOUT of an input or output index (R473, Table 14.12). -/
def discrepancy (idx : Nat) (w : Work) : Work := if hedgeRuns w then setHg (hFault 1 idx .both w.d.hdg) w else w

/-- HLKI_LOW: both HLKI lines read low (Table 14.12); in the 20 ms after a lock release the check of R476 decides. -/
def hlkiLow (w : Work) : Work :=
  if !hedgeRuns w then w
  else
    let h := { w.d.hdg with hlkiP := false, hlkiL := false }
    setHg (if h.relCheck then hOutputs h else hFault 8 0 .both (hOutputs h)) w

/-! The black channel (R462 to R467). -/

/-- CID of connection c; d = 0 sent by Hedge, 1 received (R465). -/
def hCid (sw c d : Nat) : Nat := 0xC7000000 + 0x10000 * swAddr sw + 0x100 * c + d

/-- The check value of a frame's words (R464). -/
def hCrc (cid : Nat) (ws : List Word) : Nat := crc32 0x1EDC6F41 (bytesBE 4 cid ++ wordBytes5 ws)

/-- Hedge-P runs connection c: 0 always, the others while the heartbeat reports ACTIVE or SOLO (R467). -/
def connRuns (c : Nat) (h : HdgSt) : Bool := c == 0 || h.hbRole == 0 || h.hbRole == 1

/-- Connection c is expected (R462). -/
def expected (c : Nat) (h : HdgSt) : Bool := c == 0 || h.connMask.getLsbD c

/-- Alive connections from lo on, as a 32-bit field. -/
def aliveBits (lo : Nat) (h : HdgSt) : Nat := ((List.range 32).map (fun k => putB k (getConn (lo + k) h).alive)).sum

/-- The data words of a frame to the controller (connection 0) and to a drive (Table 14.7). -/
def txData (c : Nat) (h : HdgSt) : List Nat :=
  if c == 0 then
    [h.si.toNat + put 16 16 h.siFault.toNat,
     (h.brkP &&& h.brkL).toNat + put 8 8 h.due.toNat + putB 16 (islandState h = .locked) + putB 17 (holdOk h) + put 24 8 h.fcode,
     aliveBits 0 h, aliveBits 32 h]
  else
    [putB 0 (brkRel c h) + putB 1 (!h.stoA) + putB 2 (match h.test with | some t => t.conn == c | none => false)]

/-- The words of the frame sent next on connection c. -/
def txFrame (c : Nat) (h : HdgSt) : List Word :=
  let d := txData c h
  let x := getConn c h
  let ws := wd (put 32 4 1 + put 16 16 x.nextTx + put 13 3 (swTec h.swP) + put 0 8 d.length) :: d.map wd
  ws ++ [wd (hCrc (hCid h.swP c 0) ws)]

/-- Mailbox channel of connection c: 12 for the controller, 13 or 14 by the ring of its node (Table 14.1). -/
def connChannel (c : Nat) (w : Work) : Nat :=
  if c == 0 then 12
  else match (imageOf w).nodes.find? (fun n => n.conns.contains c) with
    | some n => if n.ringB then 14 else 13
    | none => 13

/-- BLACK_CHANNEL_SEND on connection c: the frame as an SFRAME message of its channel (R466, R480). -/
def blackSend (c : Nat) (w : Work) : Work :=
  let h := w.d.hdg
  if !hedgeRuns w || !connRuns c h then w
  else
    let w := mbxPut 31 (connChannel c w) (wd (put 32 4 5 + put 26 6 c) :: txFrame c h) w
    setHg (putConn c { getConn c h with nextTx := ((getConn c h).nextTx + 1) % 65536 } h) w

/-- The frame passes the checks of R466: CRC, FT, DLEN, TEC, and the sequence window. -/
def frameValid (c : Nat) (ws : List Word) (h : HdgSt) : Bool :=
  let w0 := nth 0 ws 0
  let dlen := if c == 0 then 5 else 2
  ws.length == dlen + 2 && nth 0 ws (dlen + 1) == wd (hCrc (hCid h.swP c 1) (ws.take (dlen + 1)))
    && fld w0 32 4 == 1 && fld w0 0 8 == dlen && fld w0 13 3 == swTec h.swP
    && decide ((fld w0 16 16 + 65536 - (getConn c h).nextRx) % 65536 ≤ 3)

/-- What connection 0 says: permits, brake test window, expected connections; a connection whose RREL is first set gets
its timer and is due (Table 14.7, R462, R468). -/
def take0 (d : List Nat) (h : HdgSt) : HdgSt :=
  let mask := (nth 0 d 1 + 2 ^ 32 * nth 0 d 2) / 2 * 2
  let rrel := (nth 0 d 3 + 2 ^ 32 * nth 0 d 4) / 2 * 2
  let h := { h with
    lrel := BitVec.ofNat 8 (nth 0 d 0 % 256), stoPermit := (nth 0 d 0).testBit 8, btWin := nth 0 d 0 / 65536 % 65536
    connMask := BitVec.ofNat 64 mask, rrel := BitVec.ofNat 64 rrel }
  each (List.range 64) (fun c h =>
    let x := getConn c h
    let x := if rrel.testBit c && !x.timer then { x with timer := true, due := true } else x
    let x := if c != 0 && !mask.testBit c then { x with seen := false } else x
    putConn c x h) h

/-- The modular difference of two 32-bit positions, as a magnitude (R471). -/
def posDev (a b : Nat) : Nat := (BitVec.ofInt 32 ((a : Int) - b)).toInt.natAbs

/-- A brake test fails (R471, R472): HF_BTEST, the result for SC0. -/
def btFail (t : BTest) (dev : Nat) (w : Work) : Work :=
  let w := mbxPut 31 15 [wd (put 32 4 3), 3, 1, wd dev] w
  setHg (hFault 4 t.idx .p w.d.hdg) w

/-- A valid drive frame in the hold window (R471). -/
def btCheck (c : Nat) (w : Work) : Work :=
  match w.d.hdg.test with
  | none => w
  | some t =>
    if t.conn != c || t.phase != 1 then w
    else
      let d := (getConn c w.d.hdg).data
      let dev := max t.maxDev (posDev (nth 0 d 1) t.pRef)
      let t := { t with got := true, maxDev := dev }
      if !(nth 0 d 0).testBit 2 || decide (w.d.hdg.btWin < dev) then btFail t dev w
      else setHg { w.d.hdg with test := some t } w

/-- A black-channel frame of connection c at Hedge-P: used when valid (R466), with HF_DRIVE for a drive's safety fault
(Table 14.12) and the brake test's check. -/
def blackFrame (c : Nat) (ws : List Word) (w : Work) : Work :=
  let h := w.d.hdg
  if !hedgeRuns w || !connRuns c h || !frameValid c ws h then w
  else
    let d := ((ws.drop 1).take (if c == 0 then 5 else 2)).map (fun x => fld x 0 32)
    let x := getConn c h
    let h := putConn c { x with
      alive := true, seen := true, data := d, nextRx := (fld (nth 0 ws 0) 16 16 + 1) % 65536 } h
    let h := if c == 0 then take0 d h else h
    let h := hOutputs h
    let h := if c != 0 && expected c h && (nth 0 d 0).testBit 3 then hFault 10 c .p h else h
    btCheck c (setHg h w)

/-- CONNECTION_TIMEOUT of connection c: TE without a valid frame, or 1 s without a first one. A standby's connection 0
withdraws the holds without a lock (R462, R474). -/
def connTimeout (c : Nat) (w : Work) : Work :=
  let h := w.d.hdg
  if !hedgeRuns w || (c == 0 && !(getConn c h).seen) then w
  else
    let h := hOutputs (putConn c { getConn c h with alive := false } h)
    if !expected c h || !connRuns c h || (c == 0 && h.hbRole == 2) then setHg h w else setHg (hFault 7 c .p h) w

/-- SFRAME: a message of a channel 12 to 14 is taken by its receiver: Hedge-P checks the frame; DQA or DQB keeps it for
the next SAFETY frame; the host takes its own by MBX_POP (R480). -/
def sframe (ch : Nat) (toHedge : Bool) (w : Work) : Work :=
  if toHedge then
    if !hedgeRuns w then w
    else
      match mbxTake 31 ch w with
      | (some ws, w) =>
        let w0 := nth 0 ws 0
        if fld w0 32 4 == 5 && bit w0 25 && connChannel (fld w0 26 6) w == ch then blackFrame (fld w0 26 6) (ws.drop 1) w
        else w
      | (none, w) => w
  else if ch == 13 || ch == 14 then
    match mbxTake (13 + ch) ch w with
    | (some ws, w) =>
      let w0 := nth 0 ws 0
      if fld w0 32 4 == 5 && !bit w0 25 then
        { w with d.hdg.fromHedge := w.d.hdg.fromHedge ++ [(ch == 14, fld w0 26 6, ws.drop 1)] }
      else w
    | (none, w) => w
  else w

/-! Brake tests (R468 to R472, Table 14.11). -/

/-- BT_STEP at SC0: torque on, torque off, or the result of a failed test. -/
def btStep (w : Work) : Work :=
  match mbxTake 2 15 w with
  | (none, w) => w
  | (some ws, w) =>
    match w.d.hdg.btCmd with
    | none => w
    | some (c, a) =>
      if fld (nth 0 ws 0) 32 4 != 3 then w
      else match (nth 0 ws 1).toNat with
        | 1 => modCe a (fun x => if x.enabled then
            { x with bt := some { tq := fOfWord (tabGet 0 (getPln a w).params 0x120) } } else x) w
        | 2 => modCe a (fun x => { x with bt := x.bt.map (fun b => { b with down := true }) }) w
        | 3 =>
          let w := modCe a (fun x => { x with bt := x.bt.map (fun b => { b with down := true }) }) w
          let w := logEvent .hdg 0 5 (nth 0 ws 2).toNat w
          report c { status := stOK, res := [nth 0 ws 2, nth 0 ws 3] } { w with d.hdg.btCmd := none }
        | _ => w

/-- ENGAGE_TIME_END: 100 ms into the test; p_ref is taken and torque asked for. -/
def engageEnd (w : Work) : Work :=
  match w.d.hdg.test with
  | some t =>
    if !hedgeRuns w || t.phase != 0 then w
    else
      let p := nth 0 (getConn t.conn w.d.hdg).data 1
      mbxPut 31 15 [wd (put 32 4 3), 1] (setHg { w.d.hdg with test := some { t with phase := 1, pRef := p } } w)
  | none => w

/-- HOLD_WINDOW_END: the result; a pass is told to Hedge-L, and the brake is due again only after its interval (R468,
R471). -/
def holdEnd (w : Work) : Work :=
  match w.d.hdg.test with
  | some t =>
    if !hedgeRuns w || t.phase != 1 then w
    else if !t.got then btFail t t.maxDev w
    else
      let h := w.d.hdg
      let h := { h with test := some { t with phase := 2 } }
      let h := if t.remote then putConn t.idx { getConn t.idx h with due := false } h
        else { h with pass := some t.idx, due := bvPut t.idx false h.due, passed := bvPut t.idx true h.passed }
      mbxPut 31 15 [wd (put 32 4 3), 2] (setHg h w)
  | none => w

/-- BRAKE_TEST_END: 1,200 ms after a passed test's start; the brake may be released again and the command completes. -/
def brakeEnd (w : Work) : Work :=
  match w.d.hdg.test with
  | some t =>
    if !hedgeRuns w || t.phase != 2 then w
    else
      let w := setHg (hOutputs { w.d.hdg with test := none }) w
      match w.d.hdg.btCmd with
      | some (c, _) =>
        let w := logEvent .hdg 0 5 0 w
        report c { status := stOK, res := [0, wd t.maxDev] } { w with d.hdg.btCmd := none }
      | none => w
  | none => w

/-- BRAKE_DUE: the interval since the last pass of a pair or connection is over (R468). -/
def brakeDue (remote : Bool) (k : Nat) (w : Work) : Work :=
  if !hedgeRuns w then w
  else
    let h := w.d.hdg
    if remote then
      let x := getConn k h
      if x.timer then setHg (putConn k { x with due := true } h) w else w
    else if k < swPairs h.swP then setHg { h with due := bvPut k true h.due } w else w

/-- BRAKE_OVERDUE at Hedge-P: due for I ÷ 8 without a pass (R468). -/
def brakeOverdue (remote : Bool) (k : Nat) (w : Work) : Work :=
  let h := w.d.hdg
  let due := if remote then (getConn k h).due else decide (k < swPairs h.swP) && h.due.getLsbD k
  if hedgeRuns w && due then setHg (hFault 5 k .p h) w else w

/-- HEDGE_L_OVERDUE: Hedge-L's own timer of a pair (R469). -/
def lOverdue (k : Nat) (w : Work) : Work :=
  let h := w.d.hdg
  if hedgeRuns w && decide (k < swPairs h.swL) then
    setHg (hFault 5 k .l { h with lOverdue := bvPut k true h.lOverdue }) w
  else w

/-! Lock release (R475, R476). -/

/-- A cause other than HF_PARTNER persists (R475, log 57). -/
def causePersists (h : HdgSt) : Bool :=
  h.permanent || (List.range 64).any (fun c =>
    let x := getConn c h
    expected c h && connRuns c h && ((x.seen && !x.alive && !(c == 0 && h.hbRole == 2))
      || (c != 0 && x.alive && (nth 0 x.data 0).testBit 3)))

/-- A release time in ms as a channel measures it is accepted: 500 to 3,000 by Hedge-P, 450 to 3,300 by Hedge-L. -/
def ackTime (p : Bool) (ms : Nat) : Bool :=
  if p then decide (500 ≤ ms) && decide (ms ≤ 3000) else decide (450 ≤ ms) && decide (ms ≤ 3300)

/-- SAFE_ACK_N_RISE: the time low as each channel measured it, and whether both saw the edge. A LOCKED channel that accepts
opens; with both OPEN the device leaves SAFE_LOCK for CONFIG (spec/01 Table 1.8). -/
def ackRise (p l : Nat) (both : Bool) (leave : Work → Work) (w : Work) : Work :=
  let h := { w.d.hdg with ackN := true }
  if !hedgeRuns w then w
  else
    let okP := h.pState == .locked && ackTime true p
    let okL := h.lState == .locked && ackTime false l
    if !(okP || okL) || !both || causePersists h then setHg h w
    else
      let h := if okP then hOpenP h else h
      let h := if okL then { hOpenL h with xLock := false } else h
      let h := hOutputs { h with blocked := true, relCheck := true, propag := false, siFault := 0 }
      let w := setHg h w
      if islandState h = .open_ && w.d.sys.st == .safeLock && !w.d.boot.dead then leave w else w

/-- HLKI_CHECK 20 ms after a release with the levels of the two lines (R476). -/
def hlkiCheck (p l : Bool) (w : Work) : Work :=
  let h := w.d.hdg
  if !hedgeRuns w then w
  else
    let h := hOutputs { h with hlkiP := p, hlkiL := l }
    if h.relCheck && !p && !l then setHg { hFault 8 0 .both h with relCheck := false } w
    else setHg { h with relCheck := false } w

/-- HOLDS_BLOCKED_END: 100 ms after a release (R476). -/
def blockedEnd (w : Work) : Work :=
  if hasHedge w.variant then setHg (hOutputs { w.d.hdg with blocked := false }) w else w

/-! The status window (R450, Tables 14.14 to 14.20). -/

/-- The eight words as Hedge-P has them now. -/
def hedgeWindow (h : HdgSt) : List Word :=
  let t := h.test
  let ltest := match t with | some t => !t.remote | none => false
  let rtest := match t with | some t => t.remote | none => false
  let k := match t with | some t => t.idx | none => 0

  let pend := ((List.range 16).map (fun n => putB n (h.siFault.getLsbD n || (List.range 5).any (fun j =>
    tabGet 0 h.pulseNow (5 * n + j) == 1 || tabGet 0 h.pulsePrev (5 * n + j) == 1)))).sum
  [wd (put 16 8 h.fcode + putB 12 (islandState h = .locked && h.propag) + putB 11 (holdOk h) + putB 10 (conn0 h)
     + putB 9 h.hbFresh + putB 8 (h.hlkiP && h.hlkiL) + put 2 2 (hCode h.lState) + put 0 2 (hCode h.pState)),
   wd (put 16 16 h.swL + put 0 16 h.swP),
   wd (putB 22 h.ackN + putB 21 h.hlkiL + putB 20 h.hlkiP + putB 19 h.hlkL + putB 18 h.hlkP + putB 17 h.stoB
     + putB 16 h.stoA + put 8 8 h.brkL.toNat + put 0 8 h.brkP.toNat),
   wd (put 16 16 pend + put 0 16 h.si.toNat),
   wd (putB 26 ltest + put 23 3 (if ltest then k else 0) + putB 22 rtest + put 16 6 (if rtest then k else 0)
     + put 8 8 h.passed.toNat + put 0 8 h.due.toNat),
   wd (aliveBits 0 h), wd (aliveBits 32 h),
   wd (put 28 8 h.fLast + put 22 6 h.fIndex + put 0 22 h.fTms)]

/-- A register of the window; zero while the island is in INIT or in reset, and on a variant without it. -/
def hdgRead (k : Nat) (w : Work) : Word :=
  if !hasHedge w.variant || !islandUp w.d.hdg || islandState w.d.hdg = .init then 0 else nth 0 w.d.hdg.win k

/-- The window shows LOCKED, so that SC0 puts the device into SAFE_LOCK (R473). -/
def windowLocked (w : Work) : Bool :=
  let x := hdgRead 0 w
  fld x 0 2 == 2 || fld x 2 2 == 2

/-- The drive connections that are due. -/
def dueConns (h : HdgSt) : BitVec 64 := BitVec.ofNat 64 (((List.range 64).map (fun c => putB c (getConn c h).due)).sum)

/-- The sequence numbers Hedge-P reports of its connections (R479). -/
def seqNumbers (h : HdgSt) : List Word :=
  (List.range 64).map (fun c => let x := getConn c h; wd (put 16 16 x.nextTx + put 0 16 x.nextRx))

/-- STATUS_WINDOW_REFRESH: Hedge-P writes the window, and SC0 logs its changes (HDG events, interrupt source 12). -/
def windowRefresh (w : Work) : Work :=
  if !hedgeRuns w then w
  else
    let old := w.d.hdg.win
    let new := hedgeWindow w.d.hdg
    let wasDue := w.d.hdg.winDue
    let nowDue := dueConns w.d.hdg
    let w := setHg { w.d.hdg with win := new, winDue := nowDue, winSeq := seqNumbers w.d.hdg } w
    let locked := fun (x : Word) => fld x 0 2 == 2 || fld x 2 2 == 2
    let isl := fun (x : Word) => if locked x then 2 else if fld x 0 2 == 0 || fld x 2 2 == 0 then 0 else 1
    let o := nth 0 old 0
    let n := nth 0 new 0
    let held := fun (l : List Word) => fld (nth 0 l 2) 0 8 + fld (nth 0 l 2) 16 2
    if !fromConfig w.d.sys.st || w.d.boot.dead then w else
    let w := when_ (locked n && !locked o) (logEvent .hdg 0 1 (fld n 16 8)) w
    let w := when_ (!locked n && locked o) (logEvent .hdg 0 2 0) w
    let w := when_ (!locked n && held old != 0 && held new == 0) (logEvent .hdg 0 3 0) w
    let w := each ((List.range 8).filter (fun b => bit (nth 0 new 4) b && !bit (nth 0 old 4) b))
      (fun b w => logEvent .hdg 0 4 b w) w
    let w := each ((List.range 64).filter (fun c => nowDue.getLsbD c && !wasDue.getLsbD c))
      (fun c w => logEvent .hdg 0 4 (0x100 + c) w) w
    when_ (isl n != isl o) (irq 12) w

/-! The rows. The island acts whatever the main device does (R447); SC0's part needs the main device. -/

/-- HRST_N_LOW. -/
def execHrstNLow (s : State) : Host.Outcome State Fault Refusal := runAny hrstLow s

/-- HRST_N_RELEASE. -/
def execHrstNRelease (p l : Fin 65536) (s : State) : Host.Outcome State Fault Refusal :=
  runAny (hrstRelease p.val l.val) s

/-- HEDGE_SUPPLY_FAULT. -/
def execHedgeSupplyFault (s : State) : Host.Outcome State Fault Refusal := runAny supplyFault s

/-- HEDGE_SUPPLY_RESTORED. -/
def execHedgeSupplyRestored (p l : Fin 65536) (s : State) : Host.Outcome State Fault Refusal :=
  runAny (supplyBack p.val l.val) s

/-- SELF_TEST_DONE. -/
def execSelfTestDone (okP okL : Bool) (s : State) : Host.Outcome State Fault Refusal := runAny (selfTest okP okL) s

/-- CROSS_LINK_WORD. -/
def execCrossLinkWord (ok : Bool) (s : State) : Host.Outcome State Fault Refusal := runAny (crossLink ok) s

/-- CROSS_LINK_LOSS. -/
def execCrossLinkLoss (s : State) : Host.Outcome State Fault Refusal := runAny crossLoss s

/-- HB. -/
def execHb (s : State) : Host.Outcome State Fault Refusal := run hbSend s

/-- HEARTBEAT_TIMEOUT. -/
def execHeartbeatTimeout (s : State) : Host.Outcome State Fault Refusal := runAny hbTimeout s

/-- TEST_PULSE_FRAME. -/
def execTestPulseFrame (s : State) : Host.Outcome State Fault Refusal := runAny pulseFrame s

/-- PULSE_CHECK_SAMPLE of input n around a pulse of TPS[k]: samples before, during, after. -/
def execPulseCheckSample (k : Fin 4) (n : Fin 16) (b d a : Bool) (s : State) : Host.Outcome State Fault Refusal :=
  runAny (pulseSample k.val n.val b d a) s

/-- DISCREPANCY_TIMEOUT. -/
def execDiscrepancyTimeout (idx : Fin 64) (s : State) : Host.Outcome State Fault Refusal := runAny (discrepancy idx.val) s

/-- HLKI_LOW. -/
def execHlkiLow (s : State) : Host.Outcome State Fault Refusal := runAny hlkiLow s

/-- BLACK_CHANNEL_SEND on connection c. -/
def execBlackChannelSend (c : Fin 64) (s : State) : Host.Outcome State Fault Refusal := runAny (blackSend c.val) s

/-- BLACK_CHANNEL_FRAME on connection c. -/
def execBlackChannelFrame (c : Fin 64) (ws : List Word) (s : State) : Host.Outcome State Fault Refusal :=
  runAny (blackFrame c.val ws) s

/-- CONNECTION_TIMEOUT of connection c. -/
def execConnectionTimeout (c : Fin 64) (s : State) : Host.Outcome State Fault Refusal := runAny (connTimeout c.val) s

/-- SFRAME of channel 12 + ch, to Hedge-P or to the ring controller. -/
def execSframe (ch : Fin 3) (toHedge : Bool) (s : State) : Host.Outcome State Fault Refusal :=
  runAny (sframe (12 + ch.val) toHedge) s

/-- BTEST: Hedge-P takes the message on channel 15. -/
def execBtest (s : State) : Host.Outcome State Fault Refusal := runAny hedgeHear s

/-- BT_STEP: SC0 takes the message on channel 15. -/
def execBtStep (s : State) : Host.Outcome State Fault Refusal := run btStep s

/-- ENGAGE_TIME_END. -/
def execEngageTimeEnd (s : State) : Host.Outcome State Fault Refusal := runAny engageEnd s

/-- HOLD_WINDOW_END. -/
def execHoldWindowEnd (s : State) : Host.Outcome State Fault Refusal := runAny holdEnd s

/-- BRAKE_TEST_END. -/
def execBrakeTestEnd (s : State) : Host.Outcome State Fault Refusal := runAny brakeEnd s

/-- BRAKE_DUE of a drive connection (remote) or a local pair. -/
def execBrakeDue (remote : Bool) (k : Fin 64) (s : State) : Host.Outcome State Fault Refusal :=
  runAny (brakeDue remote k.val) s

/-- BRAKE_OVERDUE. -/
def execBrakeOverdue (remote : Bool) (k : Fin 64) (s : State) : Host.Outcome State Fault Refusal :=
  runAny (brakeOverdue remote k.val) s

/-- HEDGE_L_OVERDUE of a local pair. -/
def execHedgeLOverdue (k : Fin 8) (s : State) : Host.Outcome State Fault Refusal := runAny (lOverdue k.val) s

/-- HLKI_CHECK. -/
def execHlkiCheck (p l : Bool) (s : State) : Host.Outcome State Fault Refusal := runAny (hlkiCheck p l) s

/-- HOLDS_BLOCKED_END. -/
def execHoldsBlockedEnd (s : State) : Host.Outcome State Fault Refusal := runAny blockedEnd s

/-- TKO: SC0 gives Hedge-P the grafted sequence numbers of seven connections from 7 m on, at most to 63 (R479). -/
def tkoSend (m : Nat) (w : Work) : Work :=
  if !hasHedge w.variant then w
  else
    let ws := (w.d.grf.hedge.drop (7 * m)).take (min 7 (64 - 7 * m))
    hedgeHear (mbxPut 2 15 (wd (put 32 4 4 + put 0 6 (7 * m)) :: ws) w)

/-- TKO, message m of ten. -/
def execTko (m : Fin 10) (s : State) : Host.Outcome State Fault Refusal := run (tkoSend m.val) s

end Sys2Proof.Machine
end

