-- ==== Sys2Proof/Machine/Ledger.lean ====
section
/-! DEFINITION. The ageing ledger: its measurements, records, mirror and margins (spec/19 R578 to R592). -/

namespace Sys2Proof.Machine

/-! Margins. -/

/-- E30 of a ring in ns: the largest hourly |e| of the last 720 records, 12 with none for the ring (Table 19.2). A ring's
hourly value of 0 is read as none, since a record holds nothing else of a ring that was not measured (DEDUCED, log 155). -/
def age30 (b : Bool) (w : Work) : Nat :=
  let e := (w.d.age.hours.map (fun h => if b then h.eB else h.eA)).foldl max 0
  if e == 0 then 12 else e

/-- The guard an insertion error asks for, ns (Table 19.2, R588). -/
def gReq (e : Nat) : Nat := 24 + 2 * e

/-- GUARD of a requirement, 4 ns units. -/
def gUnits (g : Nat) : Nat := min 127 (cdiv g 4)

/-- Mean of rate words. -/
def meanRate (l : List Word) : ℚ := if l.isEmpty then 0 else ((l.map (fun x => x.toInt)).sum : ℚ) / l.length

/-- XO ageing in ppm; none while it is unknown (R579). -/
def xoAge (w : Work) : Option ℚ :=
  let rs := w.d.age.hours.map (fun h => h.rate)
  if rs.length < 48 || rs.all (fun r => r == 0) then none
  else some (|meanRate (rs.take 24) - meanRate w.d.flash.firstRates| * 1000000 / (2 ^ 40 : Nat))

/-- Silicon slowdown in 0.01 % units: the largest of the monitors with a reference (R580). -/
def siliconSlow (w : Work) : Int := w.d.age.slow.foldl max 0

/-- Corrected errors of a bank in the last 24 hours. -/
def cerrDay (b : Nat) (w : Work) : Nat :=
  (((w.d.age.hours.take 24).map (fun h => tabGet 0 h.cerr b)).sum)

/-- CERR_LIM as used (Table 19.6). -/
def cerrLimit (w : Work) : Nat := max 1 w.d.age.cerrLim

/-! The summary (Table 19.3). -/

/-- Signed n-bit field of an integer. -/
def sfield (n : Nat) (x : Int) : Nat := (BitVec.ofInt n x).toNat

/-- Latency drift of a node: its last value against the one at DISCOVER, 0.5 ns units. -/
def nodeDrift (n : RNode) : Int := (n.fwdLast : Int) - n.fwdPlan

/-- Word 19 or 20: the present node of largest latency drift, its drift, the ring's jitter peak. -/
def driftWord (b : Bool) (w : Work) : Word :=
  let ns := (getR b w).nodes.filter (fun kv => kv.2.present)
  let best := ns.foldl (fun o kv => match o with
    | some (x : Nat × RNode) => if nodeDrift x.2 < nodeDrift kv.2 then some kv else some x
    | none => some kv) none
  let peak := (ns.map (fun kv => kv.2.fwdPeak - kv.2.fwdPlan)).foldl max 0
  match best with
  | some x => wd (put 28 7 x.1 + put 16 12 (sfield 12 (nodeDrift x.2)) + put 0 12 peak)
  | none => 0

/-- The 64 summary words as they stand now. -/
def ageSummary (w : Work) : List Word :=
  let a := w.d.age
  let rs := a.hours.map (fun h => h.rate)
  let age := match xoAge w with | some x => min 127 x.ceil.toNat | none => 0
  let e := fun (p : Nat × Nat × Nat) => wd (put 16 8 p.1 + put 8 8 p.2.1 + put 0 3 p.2.2)
  [a.seq, a.secs, wdI (meanRate (rs.take 24)).floor, wdI (meanRate w.d.flash.firstRates).floor,
   wd (putB 7 (xoAge w).isNone + put 0 7 age)]
    ++ a.slow.map (fun s => wd (sfield 16 s)) ++ a.eyes.map e
    ++ [wd (put 16 16 (age30 false w) + put 0 16 a.eHourA), wd (put 16 16 (age30 true w) + put 0 16 a.eHourB),
        driftWord false w, driftWord true w]
    ++ (List.range 32).map (fun b => wd (put 0 24 (cerrDay b w)))
    ++ [wd w.d.mem.retmark.toNat] ++ a.tempMs.map (fun t => wd (put 0 24 (t / 3600000)))
    ++ [wd (put 16 8 (min 255 a.trips) + put 0 9 a.tPeak.toNat), 0]

/-- Append a record: SEQ advances, the mirror takes the summary, and flash takes the record, after an erase of its sector
where it is the sector's first (R581). -/
def ageAppend (w : Work) : Work :=
  let w := { w with d.age.seq := w.d.age.seq + 1 }
  let ws := ageSummary w
  let w := wrs w.d.age.base ws w
  let p := w.d.age.place % 1920
  let w := if p % 128 == 0 then flashErase (recordAddr p) w else w
  let w := flashPuts (recordAddr p) (wordBytes5 (ws ++ [wd (fcs (wordBytes5 ws))])) w
  { w with d.age.place := (p + 1) % 1920 }

/-- The load at the transition from BOOT to CONFIG (R582). An hour's rate word and errors come from the words a record
holds of them (log 64). Marks outlast a reset other than PORST_N's (spec/16 R523), so they are taken from the record. -/
def ageLoad (w : Work) : Work :=
  match lastRecord w with
  | none => logEvent .age 0 7 0 { w with d.age.fresh := true }
  | some (p, r) =>
    let hs := ((records w).mergeSort (fun x y => decide ((nth 0 y.2 0).toNat ≤ (nth 0 x.2 0).toNat))).take 720
    let hour := fun (x : Nat × List Word) => ({
      rate := nth 0 x.2 2, eA := fld (nth 0 x.2 17) 0 16, eB := fld (nth 0 x.2 18) 0 16,
      cerr := if x.1 == p then
          (List.range 32).foldl (fun t b => tabSet 0 t b (fld (nth 0 x.2 (21 + b)) 0 24)) [] else [] } : AgeHour)
    let eye := fun k => (fld (nth 0 r (13 + k)) 16 8, fld (nth 0 r (13 + k)) 8 8, fld (nth 0 r (13 + k)) 0 3)
    let w := { w with
      d.mem.retmark := w.d.mem.retmark ||| BitVec.ofNat 32 (fld (nth 0 r 53) 0 32)
      d.age.fresh := false, d.age.seq := nth 0 r 0, d.age.secs := nth 0 r 1, d.age.hours := hs.map hour
      d.age.slow := (List.range 8).map (fun k => (BitVec.ofNat 16 (fld (nth 0 r (5 + k)) 0 16)).toInt)
      d.age.eyes := (List.range 4).map eye
      d.age.tempMs := (List.range 8).map (fun k => 3600000 * fld (nth 0 r (54 + k)) 0 24)
      d.age.trips := max w.d.age.trips (fld (nth 0 r 62) 16 8)
      d.age.tPeak := BitVec.ofNat 9 (fld (nth 0 r 62) 0 9), d.age.place := (p + 1) % 1920 }
    wrs w.d.age.base r w

/-! The hour (R578, R581, R583, R587). -/

/-- Ring-oscillator counts against the reference of the present 10 °C band; the first count of a band becomes its
reference (Table 19.1, R580). -/
def ageMonitors (counts : List Nat) (w : Work) : Work :=
  let band := (w.d.therm.tmax.toInt / 10 + 32).toNat
  each (counts.zipIdx.take 8) (fun p w =>
    let key := 8 * band + p.2
    match tabGet 0 w.d.flash.refs key with
    | 0 => { w with d.flash.refs := tabSet 0 w.d.flash.refs key (p.1 + 1), d.age.slow := w.d.age.slow.set p.2 0 }
    | r + 1 =>
      let s : Int := if r == 0 then 0 else 10000 - (10000 * (p.1 : Int)) / r
      { w with d.age.slow := w.d.age.slow.set p.2 s }) w

/-- Eye results: ring, position (0 the controller), port, horizontal and vertical opening. -/
def ageEyes (l : List (Bool × Nat × Bool × Nat × Nat)) (w : Work) : Work :=
  each l (fun x w =>
    let (b, pos, p1, h, v) := x
    let w :=
      if pos == 0 then
        let k := 2 * ringKey b + (if p1 then 1 else 0)
        { w with d.age.eyes := w.d.age.eyes.set k (h, v, (nth (0, 0, 0) w.d.age.eyes k).2.2) }
      else match (getR b w).byPos[pos - 1]? with
        | some n => modNode b n.1 (fun y => if p1 then { y with eye1 := (h, v) } else { y with eye0 := (h, v) }) w
        | none => w
    if h < 32 || v < 10 then irq 18 (logEvent .age (ringKey b) 5 (put 0 7 pos) w) else w) w

/-- LEDGER_HOUR: the hour's values and a record; deferred while background tasks are (R583). The monitor counts and eye
results are what was measured. -/
def ledgerHour (counts : List Nat) (eyes : List (Bool × Nat × Bool × Nat × Nat)) (w : Work) : Work :=
  let ok := w.d.sys.st == .commission || w.d.sys.st == .run || w.d.sys.st == .recovery
  if !background w || !ok then w
  else
    let w := ageEyes eyes (ageMonitors counts w)
    let h : AgeHour := { rate := w.d.ptm.rate, eA := w.d.age.eHourA, eB := w.d.age.eHourB, cerr := w.d.age.cerrHour }
    let firsts := w.d.flash.firstRates
    let w := { w with
      d.age.hours := (h :: w.d.age.hours).take 720, d.age.secs := w.d.age.secs + 3600, d.age.cerrHour := []
      d.flash.firstRates := if firsts.length < 24 then firsts ++ [w.d.ptm.rate] else firsts }
    let w := ageAppend w
    let w := { w with d.age.eHourA := 0, d.age.eHourB := 0 }
    each (ringsUsed w) (fun b w => modR b (fun r => { r with
      nodes := r.nodes.map (fun kv => (kv.1, { kv.2 with hourMarg := none })) }) w) w

/-- AGE_BASE_WRITE: in CONFIG the mirror moves with its contents (R582, spec/21 R615). -/
def ageBaseWrite (v : Word) (w : Work) : Work :=
  if w.d.sys.st != .config then w
  else
    let old := w.d.age.base
    let new := fld v 16 7 * 65536
    let w := { w with d.age.base := new }
    if new == old then w
    else
      let m := memApply w.base w.ops
      let inside := fun (lo : Nat) => m.filter (fun kv => decide (lo ≤ kv.1) && decide (kv.1 < lo + 65536))
      let w := each (inside new) (fun kv w => wr kv.1 0 w) w
      each (inside old) (fun kv w => wr (kv.1 - old + new) kv.2 w) w

/-! LEDGER_READ (R592, Table 19.4). -/

/-- The node table. -/
def ageNodes (w : Work) : List Word :=
  [false, true].flatMap (fun b =>
    ((getR b w).nodes.filter (fun kv => kv.2.present)).flatMap (fun kv =>
      let n := kv.2
      let worse := if n.eye1.1 < n.eye0.1 || (n.eye1.1 == n.eye0.1 && n.eye1.2 < n.eye0.2) then n.eye1 else n.eye0
      [wd (putB 35 b + put 28 7 kv.1 + put 12 12 n.fwdPlan + put 0 12 n.fwdPeak),
       wd (put 16 16 (sfield 16 (n.hourMarg.getD 0)) + put 8 8 worse.1 + put 0 8 worse.2)]))

/-- The words LEDGER_READ writes: the mirror's summary, then the node table. -/
def ageReadWords (w : Work) : List Word := rds w.d.age.base 64 w ++ ageNodes w

/-- AGE_STAT and AGE_GUARD (Tables 19.7, 19.8). -/
def ageStatWord (w : Work) : Word :=
  let a := w.d.age
  wd (putB 11 a.fresh + putB 10 a.recNone + put 7 3 a.recMode + putB 6 a.exhB + putB 5 a.exhA + putB 4 a.ceilOn
    + put 2 2 a.ceil_ + putB 1 a.xoUnk + putB 0 a.xoAged)
def ageGuardWord (w : Work) : Word :=
  let a := w.d.age
  wd (put 23 7 a.guardB + put 16 7 a.guardA + put 8 8 a.reqB + put 0 8 a.reqA)

/-- LEDGER_HOUR. -/
def execLedgerHour (counts : List Nat) (eyes : List (Bool × Nat × Bool × Nat × Nat)) (s : State) :
    Host.Outcome State Fault Refusal := run (ledgerHour counts eyes) s

/-- AGE_BASE_WRITE. -/
def execAgeBaseWrite (v : Word) (s : State) : Host.Outcome State Fault Refusal := run (ageBaseWrite v) s

end Sys2Proof.Machine
end

