-- ==== Sys2Proof/Machine/States.lean ====
section
/-! DEFINITION. Changes of device state: the transitions of spec/01 Table 1.8 that a request or a release of the Hedge lock
makes, and what each does (R27 to R30, spec/11 R377 to R379, spec/18 R554 to R556). -/

namespace Sys2Proof.Machine

/-- A servo axis is disabled at its engine (spec/06 R209). -/
def ceOff (a : Nat) (w : Work) : Work :=
  modCe a (fun x => { x with
    enabled := false, enableCycle := false, tapInit := false, ip := 0, iv := 0, satt := 0, bt := none }) w

/-- The cyclic exchange ends: no axis is in a cycle, and none has a position of the previous one (spec/06 R186). -/
def ceIdle (w : Work) : Work :=
  each (w.d.ce.axes.map (fun kv => kv.1)) (fun a w => modCe a (ceFresh none) w) w

/-- A stepper axis is powered down in retain mode where it stands (spec/08 R271, log 73). -/
def stpOff (a : Nat) (w : Work) : Work :=
  modStp a (fun x => { x with
    pwr := false, kind := .hold, prof := none, moveTarget := none, gear := none, hold := (x.p.toInt : ℚ) }) w

/-- All axes disabled, and shown so by CE_AXa_STAT (Table 1.8, log 73); a brake test ends with them (spec/14 R472). -/
def disableAll (w : Work) : Work :=
  let w := if w.d.hdg.btCmd.isSome && w.d.hdg.test.isSome then btAbort w else w
  let w := each (plnKnown w) (fun a w => egvCut a (plnDisable a w)) w
  let w := each (w.d.ce.axes.map (fun kv => kv.1)) (fun a w =>
    modCe a (fun x => { x with statShown := x.statShown &&& ~~~ wd (putB 17 true) }) (ceOff a w)) w
  each (stpKnown w) stpOff w

/-- A ring is silent and forgets its topology and its nodes but for the counters software reads; an isolated node can
rejoin (spec/11 R359, R376). -/
def ringFresh (b : Bool) (w : Work) : Work :=
  modR b (fun r => { r with
    nodes := r.nodes.map (fun kv => (kv.1, { kv.2 with
      pos := 0, present := false, passed := false, isolated := false, hpAck := false, ack := false, acked := false
      offences := 0, lateRun := false, mlowRun := false, mlowNow := false, seenNow := false, timeGrowth := 0, g0 := 0, g1 := 0, missRun := 0 }))
    byPos := [], loopE := 0, loopW := 0, found := 0, isolPos := 0, line := false, gatherBack := false, rescueTo := none
    broken := false, isolAt := none, sent := [], acyc := [], passive := true, standbyPos := 0
    p0 := { r.p0 with out := false }, p1 := { r.p1 with out := false } }) w

/-- A STATE_REQUEST that waits for the slot entries or for DISCOVER's end completes without its effect (log 90). -/
def dropRequests (w : Work) : Work :=
  let l := [w.d.trl.runWait, w.d.trl.discCmd].filterMap id
  each l (fun c w => report c { status := stLate, detail := 0x05 } w)
    { w with d.trl.runWait := none, d.trl.discCmd := none }

/-- What a start or an end of the rings leaves of the trellis' running state. -/
def trlFresh (w : Work) : Work :=
  let w := dropRequests (dropProposal 0 false w)
  { w with
    d.trl.stopNext := none, d.trl.timeDue := false
    d.trl.heal := none, d.trl.brkA := false, d.trl.brkB := false, d.trl.laterA := false, d.trl.laterB := false
    d.trl.offered := false, d.trl.builtIn := false, d.trl.statOn := false, d.trl.listening := false, d.trl.step := none
    d.trl.waiting := false, d.trl.slots0 := false, d.trl.planOk := false
    d.age.retry := none, d.phase.rateNext := none }

/-- Entry to CONFIG (Table 1.8): rings silent, all axes disabled; capture sets are disarmed (spec/15 Table 15.3), bank
groups come back on leaving TEST (spec/18 R564), and static marks and Furrow loads end (spec/16 R519, spec/07 R257). The
bindings of the mailboxes are locked from here on (spec/17 R534); the engine assignment stays as it is (R26). -/
def enterConfig (w : Work) : Work :=
  let was := w.d.sys.st
  let w := ceIdle (trlFresh (hvsDisarmAll (disableAll w)))
  let w := when_ (was == .test) groupsBack w
  let w := each (w.d.fd.map (fun kv => kv.1)) (fun n w => setFd n { getFd n w with loaded := false } w) w
  let w := { w with
    d.sys.cycOn := false, d.sys.domain := false, d.sys.trans := false, d.mem.static := [], d.mem.pageCrc := [], d.mbx.lock := true
    d.boot.domWait := false, d.hvs.calOk := false, d.hvs.s0 := none, d.hvs.domOn := false }
  let w := when_ (w.d.sys.role == .standby) (setRole .solo) w
  setState .config w

/-- The station is a domain member that follows DCLK (spec/18 R555). -/
def domFollower (w : Work) : Bool := w.d.boot.domEn && w.d.hvs.didx != 0

/-- The cycle timer starts at 8 kHz (log 74). -/
def startTimer (w : Work) : Work :=
  { w with
    d.sys.cycOn := true, d.sys.rate := 0, d.sys.slowDiv := 1, d.sys.mode := 0, d.phase.rateNext := none
    d.pln.tick := cdiv w.d.pln.tick 8 * 8 }

/-- DCLK has been low for 1 ms: no rising edge, with the 62.5 microseconds it stays high, in that time (spec/18 R554,
R555). -/
def dclkQuiet (w : Work) : Bool :=
  match w.d.boot.dclkAt with
  | none => true
  | some t => decide (265625 ≤ (w.d.ptm.frc - t).toNat)

/-- Entry to DISCOVER from CONFIG or RECOVERY: all axes disabled first, and every ring port forwards passively for the
listening time (spec/11 R377). A domain member's timer starts later (spec/18 R554, R555). -/
def enterDiscover (c : CmdRef) (w : Work) : Work :=
  let w := ceIdle (trlFresh (disableAll w))
  let w := each [false, true] ringFresh w
  let w := { w with d.trl.listening := true, d.trl.discCmd := some c }
  let w := if w.d.boot.domEn then { w with d.sys.cycOn := false, d.sys.domain := false, d.boot.domWait := domFollower w }
    else startTimer w
  let w := if domFollower w && !dclkQuiet w then logEvent .clk 0 3 0 { w with d.boot.domLate := true } else w
  setState .discover w

/-- The transitions a STATE_REQUEST makes (Table 1.8). -/
def requestOk (now to_ : DevState) : Bool :=
  match now, to_ with
  | .config, .discover | .config, .test | .discover, .config | .plan, .config | .commission, .run
  | .run, .commission | .recovery, .discover | .commission, .config | .test, .config => true
  | _, _ => false

/-- SAFE_ACK_N_RISE: the ms low as each channel measured it, and whether both saw the edge (spec/14 R475, R476). -/
def execSafeAckNRise (p l : Nat) (both : Bool) (s : State) : Host.Outcome State Fault Refusal :=
  runAny (ackRise p l both enterConfig) s

end Sys2Proof.Machine
end

