-- ==== Sys2Proof/Machine/Checks.lean ====
section
/-! DEFINITION. The checks of a command packet in the order of R7: header, unit presence, parameters, device state; then
the limits of R79 and the checks made at the admission itself (spec/00 R7, spec/03 R67 to R81, spec/04 R100, R101, and the
rules of each unit's chapter). A failure is a status and a DETAIL; o is 1 for a packet that carries a phase word. -/

namespace Sys2Proof.Machine

/-- A status and its DETAIL. -/
abbrev Fail := Nat × Nat

/-- The failure when a condition holds. -/
def failIf (c : Bool) (st det : Nat) : Option Fail := if c then some (st, det) else none

/-- The first failure of a list. -/
def firstFail (l : List (Option Fail)) : Option Fail := l.findSome? id

/-! Header (R68 to R72). -/

/-- The bundle open in a queue, doomed or not (spec/04 R115). -/
def openBundle (q : Nat) (w : Work) : Option Bundle :=
  w.d.cmd.bundles.find? (fun b => b.q == q && (b.state == .open_ || b.state == .doomed))

/-- The header word is sound and its flags are allowed. -/
def headerOk (q : Nat) (h : Word) (w : Work) : Bool :=
  let op := hOpcode h
  fld h 4 4 == 0
    && (if hPhased h then decide (1 ≤ hLen h) && lenOk op (hLen h - 1) else lenOk op (hLen h))
    && (!hPhased h || phasedOk op) && (op != 0x141 || hPhased h)
    && (!hInBundle h || (bundleOk op && !hPhased h && (openBundle q w).isSome))

/-! Unit presence (spec/00 R6, R81). -/

/-- A well-formed servo or stepper number that names an absent axis. -/
def servoGone (a : Nat) (w : Work) : Bool := decide (a < 256) && servoAbsent a w
def stepGone (a : Nat) (w : Work) : Bool := decide (a < 1032) && stpAbsent a w

/-- A gearing object that names an absent axis. Bit 31 of a master chooses its feedback (spec/05 R166), so it is no part of
the axis' number; a slave's index is the whole field. -/
def gearGone (master : Bool) (o : Word) (w : Work) : Bool :=
  match objKind o with
  | 1 => servoGone (if master then fld o 0 31 else objIndex o) w
  | 2 => stepGone (objIndex o) w
  | _ => false

/-- The index of an object word lies outside the numbering of its kind, or there is no such kind (R81). -/
def objBad (o : Word) : Bool :=
  let k := objIndex o
  match objKind o with
  | 0 | 7 => k != 0
  | 1 => decide (256 ≤ k)
  | 2 => decide (1032 ≤ k)
  | 3 | 6 => decide (8 ≤ k)
  | 4 => fld o 7 24 != 0 || fld o 0 7 == 0 || fld o 0 7 == 127
  | 5 => decide (2 ≤ k)
  | 8 => decide (4 ≤ k)
  | _ => true

/-- An object within the numbering that is absent. IO_DIV is the base configuration's, so it asks for the map (R651). -/
def objGone (o : Word) (num : Nat) (w : Work) : Bool :=
  let k := objIndex o
  !objBad o && (match objKind o with
    | 1 => servoGone k w
    | 2 => stepGone k w
    | 4 =>
      let (b, id) := objNode o
      (b && !hasRingB w.variant) || (if num == 2 then (mapNode b id w).isNone else !(getNode b id w).present)
    | 5 => k == 1 && !hasRingB w.variant
    | 8 => decide (numFD w.variant ≤ k)
    | _ => false)

/-- The parameter word that names an absent unit (R6): the first one found. -/
def goneWord (op : Nat) (ps : List Word) (w : Work) : Option Nat :=
  let a := (prm ps 1).toNat
  let one := fun (c : Bool) (k : Nat) => if c then some k else none
  match op with
  | 0x040 | 0x041 | 0x042 | 0x043 | 0x044 | 0x046 | 0x047 | 0x048 | 0x049 => one (servoGone a w) 1
  | 0x045 => one ((coordAxes (prm ps 1)).any (fun x => servoGone x w)) 1
  | 0x080 => [one (gearGone false (prm ps 1) w) 1, one (gearGone true (prm ps 2) w) 2].findSome? id
  | 0x081 | 0x082 => one (gearGone false (prm ps 1) w) 1
  | 0x0C0 | 0x0C1 | 0x0C2 | 0x0C3 => one (stepGone a w) 1
  | 0x100 => (List.range (ps.length / 2)).findSome? (fun j => one (pointAbsent (nth 0 ps (2 * j)).toNat w) (1 + 2 * j))
  | 0x101 => (List.range ps.length).findSome? (fun j => one (pointAbsent (nth 0 ps j).toNat w) (1 + j))
  | 0x180 =>
    if objGone (prm ps 1) (prm ps 2).toNat w then some 1
    else if objKind (prm ps 1) == 0 then
      (paramPairs ps).zipIdx.findSome? (fun x => one (x.1.1 == 0x11 && phsrcAbsent x.1.2 w) (3 + x.2))
    else none
  | 0x181 => one (objGone (prm ps 1) (prm ps 2).toNat w) 1
  | 0x200 => one (bit (prm ps 1) 8 && servoGone (fld (prm ps 1) 0 8) w) 1
  | _ => none

/-! Parameters. -/

/-- The slack word of a move: the last parameter of the moves (R71, spec/04 R101). -/
def slackWord (op : Nat) (ps : List Word) : Option Nat :=
  if [0x042, 0x043, 0x044, 0x045, 0x0C1, 0x0C2].contains op then some ps.length else none

/-- The slack is not zero in a phased packet, or above 256,000 microseconds. -/
def slackBad (op : Nat) (ps : List Word) (phased : Bool) : Option Nat :=
  match slackWord op ps with
  | some k => if (phased && prm ps k != 0) || decide (256000 < (prm ps k).toNat) then some k else none
  | none => none

/-- The numbers a PARAM_WRITE or PARAM_READ covers. -/
def coveredNums (op : Nat) (ps : List Word) : List Nat :=
  (List.range (if op == 0x180 then ps.length - 2 else (prm ps 3).toNat)).map (fun k => (prm ps 2).toNat + k)

/-- A PARAM_WRITE: the first failing word (R81, R651, R652, R70). -/
def writeBad (ps : List Word) (phased : Bool) (w : Work) : Option Nat :=
  let o := prm ps 1
  let (k, x) := (objKind o, objIndex o)
  let nums := coveredNums 0x180 ps
  let cls := nums.map (paramCls k x)
  let first := cls.headD none
  if objBad o then some 1
  else if k == 5 || k == 6 || k == 8 then some 2
  else if k == 4 && nums.any (fun n => 0xF00000000 ≤ n) then some 2
  else match cls.zipIdx.findSome? (fun c => if c.1.isNone || c.1 != first then some (3 + c.2) else none) with
    | some d => some d
    | none =>
      if phased && (first == some .d || first == some .n) then some 0
      else
        let g := fun n => acceptedWith o (nums.headD 0) (ps.drop 2) n w
        match (paramPairs ps).zipIdx.findSome? (fun v => if valueOk o v.1.1 v.1.2 g w then none else some (3 + v.2)) with
        | some d => some d
        | none =>
          if k == 0 && nums.contains 0x300 && !pageGood (w.d.stp.tblBase + 256 * fld (prm ps 3) 0 2) w then some 2
          else if k == 2 && nums.contains 0x30A && (let s := getStp x w; !s.pwr || s.gear.isSome || !stpAtRest s (slowTime w))
            then some 1
          else none

/-- A PARAM_READ: the first failing word (R81, R652). -/
def readBad (ps : List Word) : Option Nat :=
  let o := prm ps 1
  let (k, x) := (objKind o, objIndex o)
  let n := (prm ps 3).toNat
  if objBad o then some 1
  else if k == 5 || k == 6 then some 2
  else if n == 0 || decide (12 < n) then some 3
  else if (coveredNums 0x181 ps).all (paramReadable k x) then none else some 3

/-- The brake a BRAKE_TEST_REQ names can be tested (spec/14 R470). -/
def brakeReady (v : Word) (w : Work) : Bool :=
  let h := w.d.hdg
  let remote := bit v 8
  let named : Option (Nat × Nat) := if remote then
      (connOfAxis (fld v 0 8) w).map (fun c => (c, fld v 0 8))
    else (if decide (fld v 0 3 < swPairs h.swP) then (axisOfPair (fld v 0 3) w).map (fun a => (fld v 0 3 + 1, a)) else none)
  decide (v.toNat < 512) && (remote || fld v 3 5 == 0) && h.btCmd.isNone && (match named with
    | some (c, a) =>
      let x := getPln a w
      let rest := match x.prof with | some f => decide (profEnd f ≤ syncTime w) && f.target.isSome | none => true
      (getConn c h).alive && (getCe a w).enabled && x.kind != .disabled && x.gear.isNone && rest
        && !fIsZero (fOfWord (plnParam x 0x120))
    | none => false)

/-- MODE_SWITCH: the failing parameter (spec/11 R363, spec/13 R444). -/
def modeBad (ps : List Word) (w : Work) : Option Nat :=
  let m := (prm ps 1).toNat
  if decide (8 ≤ m) || m == 4 || m == 5 || m == w.d.sys.mode || !modeHeld m w then some 1
  else if decide ((prm ps 2).toNat < 8) || decide (64 < (prm ps 2).toNat) then some 2 else none

/-- MASK_LOAD: the failing word (spec/15 R495). -/
def maskBad (ps : List Word) (w : Work) : Option Nat :=
  let s := (prm ps 1).toNat
  let (sig, a, n) := ((prm ps 2).toNat, (prm ps 3).toNat, (prm ps 4).toNat)
  if decide (7 < s) then some 1
  else if decide (63 < sig) then some 2
  else if !(isBank a && isBank (a + 2 * n - 1)) then some 3
  else if n == 0 || decide (4096 < n) then some 4
  else if [1, 2, 4].contains (getSet s w).st || (maskSlot s sig w).isNone then some 1
  else if !maskOk (sigFmt (dW (descOf s w) sig)) (rds a (2 * n) w) then some 3
  else none

/-- A gearing packet: the slave is a servo axis or a stepper, the master a port, a servo axis or the virtual master, the
denominator not 0 (spec/05, Electronic gearing). DESIGN CHOICE (log 137): bits [35:24] of the numerator and denominator
words, of which R75 says nothing, are ignored. -/
def gearBad (op : Nat) (ps : List Word) : Option Nat :=
  let s := prm ps 1
  let m := prm ps 2
  let mk := fld m 0 31
  if !(objKind s == 1 || objKind s == 2) || objBad s then some 1
  else if op == 0x080 && !((objKind m == 0 && objIndex m == 0) || (objKind m == 1 && decide (mk < 256))
      || (objKind m == 3 && decide (objIndex m < 8))) then some 2
  else if op != 0x082 && gearD (prm ps 4) == 0 then some 4 else none

/-- An I/O packet: the failing word (spec/01 R653). -/
def ioBad (ps : List Word) (w : Work) : Option Nat :=
  (List.range (ps.length / 2)).findSome? (fun j =>
    match pointOf (nth 0 ps (2 * j)).toNat w with
    | some (_, q) =>
      if !q.output then some (1 + 2 * j)
      else if decide (2 ^ q.width ≤ (nth 0 ps (2 * j + 1)).toNat) then some (2 + 2 * j) else none
    | none => none)

/-- The first parameter word that is not valid, 0 for the header (R7). DESIGN CHOICE (log 138): a MOVE_COORD axis word may name
one axis twice and hold anything past its last axis, and one whose k does not fit LEN is named itself, not the header. -/
def badWord (op : Nat) (ps : List Word) (phased : Bool) (w : Work) : Option Nat :=
  let a := (prm ps 1).toNat
  let b := (prm ps 2).toNat
  let one := fun (c : Bool) (k : Nat) => if c then some k else none
  let slack := slackBad op ps phased
  match op with
  | 0x001 => one (decide (11 ≤ a)) 1
  | 0x002 => modeBad ps w
  | 0x003 =>
    let top := fld (prm ps 1) 28 8
    [one (top != (if bit (prm ps 1) 27 then 255 else 0)) 1, one (decide ((2 : Int) ^ 32 < |(prm ps 3).toInt|)) 3].findSome? id
  | 0x040 | 0x041 | 0x046 | 0x048 => one (decide (256 ≤ a)) 1
  | 0x047 => one (decide (256 ≤ a) && a != 0x3FF) 1
  | 0x042 | 0x043 => [one (decide (256 ≤ a)) 1, slack].findSome? id
  | 0x044 => [one (decide (256 ≤ a)) 1, one (!fWordOk (prm ps 2)) 2, slack].findSome? id
  | 0x045 =>
    let w1 := prm ps 1
    [one (fld w1 34 2 != 0 || fld w1 32 2 == 0 || fld w1 32 2 + 3 != ps.length) 1, slack].findSome? id
  | 0x049 => [one (decide (256 ≤ a)) 1, one (decide (7 < b)) 2].findSome? id
  | 0x080 | 0x081 | 0x082 => gearBad op ps
  | 0x0C0 => [one (decide (1032 ≤ a)) 1, one (decide (1 < b)) 2, one (b == 0 && decide (1 < (prm ps 3).toNat)) 3].findSome? id
  | 0x0C1 => [one (decide (1032 ≤ a)) 1, slack].findSome? id
  | 0x0C2 => [one (decide (1032 ≤ a)) 1, one (!fWordOk (prm ps 2)) 2, slack].findSome? id
  | 0x0C3 => one (decide (1032 ≤ a) && a != 0xFFF) 1
  | 0x100 => ioBad ps w
  | 0x140 => one (decide (256 < a)) 1
  | 0x180 => writeBad ps phased w
  | 0x181 => readBad ps
  | 0x1C0 =>
    [one (decide (7 < a)) 1, one (decide (3 < b)) 2, one ([1, 2, 4].contains (getSet a w).st) 1].findSome? id
  | 0x1C1 => one (decide (7 < a)) 1
  | 0x1C2 => maskBad ps w
  | 0x200 => one (!brakeReady (prm ps 1) w) 1
  | 0x240 => one (!isBank a) 1
  | 0x241 => [one (decide (4 < a)) 1, one (decide (4096 ≤ b)) 2].findSome? id
  | 0x280 => one (decide (1 < a)) 1
  | _ => none

/-! Device state (R67, Table 3.3, R80). -/

/-- A PARAM_READ or PARAM_WRITE that a node answers (R651). -/
def nodeCmd (op : Nat) (ps : List Word) : Bool :=
  (op == 0x180 || op == 0x181) && objKind (prm ps 1) == 4 && (coveredNums op ps).any (fun n => paramCls (objKind (prm ps 1)) (objIndex (prm ps 1)) n == some .n)

/-- The states a command is allowed in. -/
def opStates (op : Nat) (ps : List Word) (s : DevState) : Bool :=
  match op with
  | 0x180 => (match cmdCls ps with | some k => clsStates k s | none => false)
  | 0x181 => if nodeCmd op ps then clsStates .n s else fromConfig s
  | 0x280 => s == .commission || (s == .run && prm ps 1 == 1)
  | _ => statesOk op s

/-- Motion and enabling commands, which an axis stopped in RECOVERY does not take (log 67). -/
def motionOp (op : Nat) (ps : List Word) : Bool :=
  [0x040, 0x042, 0x043, 0x044, 0x045, 0x080, 0x081, 0x0C1, 0x0C2].contains op || (op == 0x0C0 && prm ps 2 == 1)

/-- An axis stopped in RECOVERY: the cyclic exchange with it is lost (spec/01 Table 1.7, spec/11 R374; log 67). -/
def stoppedAxis (op : Nat) (ps : List Word) (w : Work) : Bool :=
  (opServos op ps w).any (fun a => (getCe a w).missHold)
    || (opSteppers op ps w).any (fun a => decide (a < 1024) && decide (2 ≤ (getStp a w).missRun))

/-- STATE_REFUSED: the DETAIL (Table 3.8). -/
def stateBad (op : Nat) (ps : List Word) (w : Work) : Option Nat :=
  let st := w.d.sys.st
  if w.d.sys.role == .standby && !standbyOk op then some 0x10
  else if !opStates op ps st then some (stCode st)
  else if st == .recovery && motionOp op ps && stoppedAxis op ps w then some 0x11
  else match op with
    | 0x001 =>
      (match stOf (prm ps 1).toNat with
       | some t =>
         if !requestOk st t || (t == .run && w.d.age.xoAged) || (t == .commission && !w.d.grf.home) then some (stCode st)
         else if w.d.sys.trans || w.d.trl.prop.isSome then some 0x12 else none
       | none => none)
    | 0x002 => if w.d.trl.prop.isSome || w.d.trl.heal.isSome then some 0x12 else none
    | 0x1C0 => if st == .run && dTkind (descOf (prm ps 1).toNat w) == 3 then some (stCode st) else none
    | _ => none

/-! What the admitted commands make of an axis (R647, spec/05 R168, R169, spec/08 R279, R289). -/

/-- When a command will act, as far as its admission knows. -/
inductive Horizon where
  /-- at a known sync point -/
  | at (c : Word)
  /-- at a phase -/
  | phase (p : Word)
  /-- with its bundle -/
  | bundle
deriving DecidableEq, Repr

/-- Members of committed bundles with the time of their bundle, then the single commands (spec/04 R127, R649). -/
def timedEffects (w : Work) : List Effect :=
  (w.d.cmd.bundles.filter committed).flatMap (fun b => b.members.map (fun e =>
    { e with time := if b.state == .armed then .at b.c else .phase b.phase })) ++ w.d.cmd.effects

/-- An admitted effect lies at or before a horizon. -/
def comesBefore (h : Horizon) (e : Effect) : Bool :=
  match h, e.time with
  | .at c, .at t => decide (modDiff t c ≤ 0)
  | .phase _, .at _ => true
  | .phase p, .phase q => decide (modDiff q p ≤ 0)
  | .bundle, .at _ => true
  | _, _ => false

/-- The order in which two admitted effects fall. -/
def fallsBefore (x y : Effect) : Bool :=
  match x.time, y.time with
  | .at a, .at b => decide (modDiff a b ≤ 0)
  | .at _, _ => true
  | .phase a, .phase b => decide (modDiff a b ≤ 0)
  | .phase _, .at _ => false
  | _, _ => true

/-- The admitted effects at or before a horizon, in the order in which they fall. -/
def effectsBefore (h : Horizon) (w : Work) : List Effect := ((timedEffects w).filter (comesBefore h)).mergeSort fallsBefore

/-- The plans of axes as the admitted commands make them by sync point c, seen from there (R647). -/
def plansAt (axes : List Nat) (c : Word) (w : Work) : Work :=
  let l := (effectsBefore (.at c) w).filter (fun e => (plansOf e.op e.ps w).any (fun a => axes.contains a))
  atCycle w c (each l (fun e x => match e.time with | .at t => planStep e.op e.ps (atCycle w t x) | _ => x) w)

/-- The planned position of an axis at a coming sync point (spec/05 R151). -/
def planPos (a : Nat) (c : Word) (w : Work) : Int :=
  let x := plansAt [a] c w
  (posWord (planAt (getPln a x) x.d.sys.rate (syncTime x)).p).toInt

/-- The exact set-point of a master two sync points ahead: its profile, and its own gearing stepped once more (spec/05 R166,
R172); the fuel bounds the chain of masters. -/
def setPointAhead : Nat → Nat → Work → Word
  | 0, _, w => w.d.phase.vm
  | f + 1, a, w =>
    let x := plansAt [a] (nccPlus 1 w) w
    let y := getPln a x
    let s := (profPart y.prof y.hold (syncTime w + (unitsTo 2 w : ℚ) / 64000)).1
    match y.gear with
    | none => posWord s.p
    | some g =>
      let m := if g.master.kind == 1 && !g.master.feedback then setPointAhead f g.master.index w else masterAt g.master 2 w
      posWord (s.p + ((gearStep g m).1.pos.floor : ℚ))

/-- The master value predicted for sync point k + 2 (spec/05 R166, R172). -/
def masterNext (m : Master) (w : Work) : Word :=
  if m.kind == 1 && !m.feedback then setPointAhead 256 m.index w else masterAt m 2 w

/-- What the plan of an axis comes to: enabled or powered, in soft start, geared, the target of its position move. -/
structure PlanSim where
  on : Bool := false
  soft : Bool := false
  geared : Bool := false
  goal : Option Int := none
deriving DecidableEq, Repr

/-- The target of a servo move in a packet's words for axis a. -/
def moveGoal (op : Nat) (ps : List Word) (a : Nat) : Word :=
  if op == 0x045 then prm ps (2 + (coordAxes (prm ps 1)).idxOf a) else prm ps 2

/-- One admitted effect on a servo axis' plan. -/
def servoNext (a : Nat) (origin : Int) (s : PlanSim) (e : Effect) : PlanSim :=
  match e.op with
  | 0x040 => if s.on then s else { on := true, soft := true }
  | 0x041 => {}
  | 0x042 | 0x045 => if s.on then { s with soft := false, goal := some (moveGoal e.op e.ps a).toInt } else s
  | 0x043 => if s.on then { s with soft := false, goal := some (s.goal.getD origin + (prm e.ps 2).toInt) } else s
  | 0x044 => if s.on then { s with soft := false, goal := none } else s
  | 0x046 | 0x047 | 0x082 => { s with soft := false, geared := false, goal := none }
  | 0x080 => if s.on then { s with soft := false, geared := true, goal := none } else s
  | _ => s

/-- The instant of a coming sync point, as the present cycle length gives it. -/
def timeAt (h : Horizon) (w : Work) : ℚ :=
  match h with
  | .at c => syncTime w + (modDiff c w.d.phase.ncc : ℚ) * cycleTime w.d.sys.rate
  | _ => syncTime w

/-- A servo axis' plan at a horizon. -/
def simServo (a : Nat) (h : Horizon) (w : Work) : PlanSim :=
  let x := getPln a w
  let t := timeAt h w
  let soft := x.ssActive && (match x.prof with | some f => decide (t < profEnd f) | none => false)
  let now : PlanSim := {
    on := x.kind != .disabled, soft := soft, geared := x.gear.isSome
    goal := if x.kind == .posMove then x.moveTarget.map (fun g => (posWord g).toInt) else none }
  let origin := planPos a (nccPlus 2 w) w
  ((effectsBefore h w).filter (fun e => (opServos e.op e.ps w).contains a)).foldl (servoNext a origin) now

/-- One admitted effect on a stepper's plan. -/
def stepNext (s : PlanSim) (e : Effect) : PlanSim :=
  match e.op with
  | 0x0C0 => { s with on := prm e.ps 2 == 1 }
  | 0x0C3 | 0x082 => { s with geared := false }
  | 0x080 => if s.on then { s with geared := true } else s
  | _ => s

/-- A stepper axis' plan at a horizon. -/
def simStep (a : Nat) (h : Horizon) (w : Work) : PlanSim :=
  let x := getStp a w
  let now : PlanSim := { on := x.pwr, geared := x.gear.isSome }
  ((effectsBefore h w).filter (fun e => (opSteppers e.op e.ps w).contains a)).foldl stepNext now

/-- A plan of a stepper is in force or admitted and not at rest (spec/08 R279). -/
def stepBusy (a : Nat) (w : Work) : Bool :=
  !stpAtRest (getStp a w) (slowTime w)
    || (allEffects w).any (fun e => [0x0C1, 0x0C2, 0x080].contains e.op && (opSteppers e.op e.ps w).contains a)

/-- The slave of a gearing packet has a fault. -/
def slaveFaulted (o : Word) (w : Work) : Bool :=
  if objKind o == 1 then (getCe (objIndex o) w).fcode != 0 else (getStp (objIndex o) w).fcode != 0

/-- The gear of a slave, where it is geared now. -/
def gearOf (o : Word) (w : Work) : Option Gear :=
  if objKind o == 1 then (getPln (objIndex o) w).gear else (getStp (objIndex o) w).gear

/-- The master a slave follows, or will from an admitted GEAR_ENGAGE on. -/
def slaveMaster (o : Word) (w : Work) : Option Master :=
  match gearOf o w with
  | some g => some g.master
  | none => ((allEffects w).filter (fun e => e.op == 0x080 && prm e.ps 1 == o)).getLast?.map (fun e => masterOf (prm e.ps 2))

/-- A ratio change of the slave is pending (spec/05 R173). -/
def ratioPending (o : Word) (w : Work) : Bool :=
  (match gearOf o w with | some g => g.pend.isSome | none => false)
    || (allEffects w).any (fun e => e.op == 0x081 && !e.ps.isEmpty && prm e.ps 1 == o)

/-- A master position lies within the ramp in progress (spec/05 R173); of one whose direction its master has not yet shown,
within R to either side. -/
def inRamp (o m : Word) (w : Work) : Bool :=
  match gearOf o w with
  | some g => rampIn g && (match g.ramp with
    | some r =>
      let x := if r.sigma = 0 then |modDiff m r.mc| else r.sigma * modDiff m r.mc
      decide (0 ≤ x) && decide (x ≤ (r.r : Int))
    | none => false)
  | none => false

/-- The parameter word an axis' plan at the effect forbids. -/
def planBad (op : Nat) (ps : List Word) (h : Horizon) (w : Work) : Option Nat :=
  let o := prm ps 1
  let a := fld o 0 12
  let one := fun (c : Bool) (k : Nat) => if c then some k else none
  match op with
  | 0x042 | 0x044 | 0x045 => one ((opServos op ps w).any (fun x => (simServo x h w).geared)) 1
  | 0x080 =>
    if slaveFaulted o w then none
    else if objKind o == 1 then (let s := simServo (objIndex o) h w; one (!s.on || s.soft) 1)
    else one (!(simStep (objIndex o) h w).on) 1
  | 0x081 =>
    if slaveFaulted o w then none
    else
      let s := if objKind o == 1 then simServo (objIndex o) h w else simStep (objIndex o) h w
      if !s.geared then some 1 else one (ratioPending o w || inRamp o (prm ps 2) w) 2
  | 0x0C1 | 0x0C2 =>
    if (getStp a w).fcode != 0 then none else (let s := simStep a h w; one (!s.on || s.geared) 1)
  | 0x0C0 => one (prm ps 2 == 0 && (getStp a w).fcode == 0 && ((simStep a h w).geared || stepBusy a w)) 2
  | _ => none

/-- A move names a servo axis that would be disabled at its effect, and is not faulted (R647). -/
def moveDisabled (op : Nat) (ps : List Word) (h : Horizon) (w : Work) : Bool :=
  [0x042, 0x043, 0x044, 0x045].contains op
    && (opServos op ps w).any (fun a => (getCe a w).fcode == 0 && !(simServo a h w).on)

/-! Limits (R79). -/

/-- One of the nine limits of a servo axis is zero (spec/05 R146). -/
def servoZero (a : Nat) (w : Work) : Bool :=
  (List.range 9).any (fun k => fIsZero (fOfWord (plnParam (getPln a w) (0x100 + k))))

/-- One of the four limits of a stepper is zero (spec/08 R271). -/
def stepZero (a : Nat) (w : Work) : Bool :=
  (List.range 4).any (fun k => fIsZero (fOfWord (stpParam (getStp a w) (0x100 + k))))

/-- The page of an axis as last accepted keeps it from being enabled (spec/06 R196). -/
def enableBad (a : Nat) (w : Work) : Bool :=
  let g := fun (x : Nat) => acceptedValue (wd (2 ^ 32 + a)) (0x200 + x) w
  let q := fun (x : Nat) => fWordVal (g x)
  let lc := fld (g 0x0E) 0 3
  let fits := fun (r : Nat) =>
    let m := g (0x29 + 16 * r)
    bit m 0 && bit m (4 + lc) && bit m (12 + w.d.sys.rate) && decide (q (0x27 + 16 * r) ≤ 0) && decide (0 ≤ q (0x28 + 16 * r))
  g 0x01 == 0 || decide (q 0x02 ≤ 0) || decide (0 ≤ q 0x03) || decide (q 0x09 < 1 / 1000) || !(List.range 8).any fits

/-- A position lies outside the travel of an axis (spec/05 R147). -/
def travelOut (en : Bool) (lo hi : Word) (p : Int) : Bool := en && (decide (p < lo.toInt) || decide (hi.toInt < p))

/-- The ratio of a gearing packet is above the slave's RATIO_MAX (spec/05 R147). -/
def ratioOut (ps : List Word) (w : Work) : Bool :=
  let o := prm ps 1
  let r := if objKind o == 1 then plnQ (getPln (objIndex o) w) 0x10D else fWordVal (getStp (objIndex o) w).ratioMax
  decide (r < |(gearN (prm ps 3) : ℚ) / gearD (prm ps 4)|)

/-- The signed increment of a PT_ADJUST (spec/20 R604). -/
def ptIncrement (ps : List Word) : Int := (BitVec.ofNat 64 (fld (prm ps 1) 0 28 * 2 ^ 36 + (prm ps 2).toNat)).toInt

/-- The increment is above PT_JUMP_MAX where that is checked (spec/20 R606). -/
def ptJump (ps : List Word) (w : Work) : Bool :=
  w.d.sys.st != .config && w.d.ptm.set && decide ((w.d.ptm.jmax.toNat : Int) < |ptIncrement ps|)

/-- LIMIT_REFUSED: the parameter word (R79, spec/04 R108, spec/05 R146, R147, spec/06 R196, spec/12 R385, R386). -/
def limitBad (op : Nat) (ps : List Word) (h : Horizon) (w : Work) : Option Nat :=
  let a := fld (prm ps 1) 0 10
  let x := getPln a w
  let s := getStp (fld (prm ps 1) 0 12) w
  let one := fun (c : Bool) (k : Nat) => if c then some k else none
  let out := travelOut (bit (plnParam x 0x10C) 0) (plnParam x 0x10A) (plnParam x 0x10B)
  let zero := (opServos op ps w).any (fun y => servoZero y w)
  let model := w.d.egv.on && (opServos op ps w).any (fun y => !modelOk (getPln y w))
  match op with
  | 0x003 => one (ptJump ps w) 1
  | 0x040 => one (zero || enableBad a w) 1
  | 0x042 => [one (zero || model) 1, one (out (prm ps 2).toInt) 2].findSome? id
  | 0x043 =>
    let p0 := match h with
      | .at c => let y := plansAt [a] c w; (posWord (relOrigin (getPln a y) y.d.sys.rate (syncTime y))).toInt
      | _ => (simServo a h w).goal.getD (planPos a (nccPlus 2 w) w)
    [one (zero || model) 1, one (out (p0 + (prm ps 2).toInt)) 2].findSome? id
  | 0x044 => [one (zero || model) 1, one (decide (plnQ x 0x100 < |fWordVal (prm ps 2)|)) 2].findSome? id
  | 0x045 =>
    let l := coordAxes (prm ps 1)
    let far := l.zipIdx.findSome? (fun y =>
      let z := getPln y.1 w
      one (travelOut (bit (plnParam z 0x10C) 0) (plnParam z 0x10A) (plnParam z 0x10B) (prm ps (2 + y.2)).toInt) (2 + y.2))
    [one (zero || model) 1, far].findSome? id
  | 0x080 | 0x081 => one (ratioOut ps w) 3
  | 0x0C0 => one (stepZero (fld (prm ps 1) 0 12) w) 1
  | 0x0C1 => [one (stepZero (fld (prm ps 1) 0 12) w) 1, one (travelOut s.travelEn s.posMin s.posMax (prm ps 2).toInt) 2].findSome? id
  | 0x0C2 => [one (stepZero (fld (prm ps 1) 0 12) w) 1, one (decide (fWordVal s.vmax < |fWordVal (prm ps 2)|)) 2].findSome? id
  | 0x180 =>
    if objKind (prm ps 1) == 0 then
      (paramPairs ps).zipIdx.findSome? (fun v => one
        (v.1.1 == 0x10 && decide ((w.d.cmd.phMax : Int) < |v.1.2.toInt| * unitsOf w.d.sys.rate)) (3 + v.2))
    else none
  | 0x280 =>
    one (prm ps 1 == 1 && (fIsZero (fOfWord w.d.egv.peakW) || fIsZero (fOfWord w.d.egv.winJ))) 1
  | _ => none

/-! The check of a packet once, before its admission (R7, R79). -/

/-- A word of the parameters as DETAIL counts it in this packet; 0 is the header's. -/
def wordNo (o k : Nat) : Nat := if k == 0 then 0 else k + o

/-- The checks of R7 and R79 in their order. -/
def checkPacket (q : Nat) (h : Word) (ps : List Word) (hz : Horizon) (w : Work) : Option Fail :=
  let op := hOpcode h
  let o := if hPhased h then 1 else 0
  let as_ := fun (st : Nat) (k : Option Nat) => k.map (fun d => (st, wordNo o d))
  if !opcodes.contains op then some (stBadOpcode, 0)
  else if !headerOk q h w then some (stBadParam, 0)
  else if op / 64 == 8 && !hasHedge w.variant then some (stUnitAbsent, 0)
  else firstFail [
    as_ stUnitAbsent (goneWord op ps w), as_ stBadParam (badWord op ps (hPhased h) w), as_ stBadParam (planBad op ps hz w),
    (stateBad op ps w).map (fun d => (stRefused, d)), failIf (moveDisabled op ps hz w) stRefused 0x13,
    if op == 0x180 then (limitBad op ps hz w).map (fun d => (stLimit, d)) else as_ stLimit (limitBad op ps hz w)]

/-! The checks of the admission itself. -/

/-- An axis a packet of classes 1 and 2, or a stepper packet, names is faulted: AXIS_FAULT, or OK with no effect for the
stops (spec/06 R216, spec/08 R287). -/
def faultBad (op : Nat) (ps : List Word) (w : Work) : Option Fail :=
  let servo := (op / 64 == 1 || op / 64 == 2) && op != 0x048 && !(op == 0x047 && fld (prm ps 1) 0 10 == 0x3FF)
  let step := (op / 64 == 2 || op / 64 == 3) && !(op == 0x0C3 && fld (prm ps 1) 0 12 == 0xFFF)
    && !(op == 0x0C0 && prm ps 2 == 1)
  let bad := fun (k c : Nat) => if faultExempt k op then (stOK, 0) else (stAxisFault, c)
  let f := if servo then ((opServos op ps w).find? (fun a => (getCe a w).fcode != 0)).map (fun a => bad 1 (getCe a w).fcode)
    else none
  let g := if step then ((opSteppers op ps w).find? (fun a => (getStp a w).fcode != 0)).map (fun a => bad 2 (getStp a w).fcode)
    else none
  firstFail [f, g]

/-- In thermal state HOLD only these are accepted (spec/12 R401). -/
def holdBad (op : Nat) (w : Work) : Bool :=
  w.d.therm.state == .hold && !stopClass op && !([0x001, 0x181, 0x101, 0x201, 0x241].contains op)

/-- What an admission tried again finds first: the plan of the axes may have changed while the packet waited (spec/04 R102). -/
def recheck (h : Word) (ps : List Word) (hz : Horizon) (w : Work) : Option Fail :=
  let op := hOpcode h
  let o := if hPhased h then 1 else 0
  firstFail [(planBad op ps hz w).map (fun d => (stBadParam, wordNo o d)), failIf (moveDisabled op ps hz w) stRefused 0x13]

end Sys2Proof.Machine
end

