-- ==== Sys2Proof/Machine/Plan.lean ====
section
/-! DEFINITION. PLAN: the check of the region map, re-planning from the ledger, the capability check, the schedules of
every mode with the conditions of spec/11 Table 11.3, engine assignment, deadlines, tap memory, the writing of trellis and
slot maps, the loads of the Furrow units and current tables, and the proposal of mode 5 (spec/11 R349 to R381, R646,
spec/19 R584, spec/21 R616, spec/13 R412 to R424). -/

namespace Sys2Proof.Machine

/-! The region map (spec/21 R616). -/

/-- The regions of spec/21 Table 21.8 in use: row, instance, base, length in words. -/
def regions (w : Work) : List (Nat × Nat × Nat × Nat) :=
  let d := w.d
  let qs := (List.range 5).filter (fun q => (getQ q w).en)
  let fds := List.range (numFD w.variant)
  (qs.filter (fun q => !(getQ q w).loc)).map (fun q => (1, q, (getQ q w).baseL % 2 ^ 23, 16384))
    ++ qs.map (fun q => (2, q, (getQ q w).rslt, 4096))
    ++ [(3, 0, d.cmd.evBase, 4 * evLength w), (4, 0, d.cmd.jBase, 163840), (5, 0, d.ce.imgBase, 131072),
        (6, 0, d.ce.stBase, 16384)]
    ++ fds.map (fun n => (7, n, (getFd n w).pimg, 16384)) ++ fds.map (fun n => (8, n, (getFd n w).yimg, 8192))
    ++ [(9, 0, d.stp.stBase, 4128), (10, 0, d.stp.tblBase, 1024), (11, 0, d.trl.base, 32768),
        (12, 0, d.trl.smap, 65536), (13, 0, d.egv.tlBase, 2048), (14, 0, d.hvs.dbase, 4096),
        (15, 0, d.hvs.bbase, hvsLen w), (16, 0, d.hvs.mbase, 131072), (17, 0, d.age.base, 65536),
        (18, 0, 0x780000, d.boot.cfgLen)]

/-- A region lies in bank memory. -/
def regionIn (r : Nat × Nat × Nat × Nat) : Bool := decide (bankLo ≤ r.2.2.1) && decide (r.2.2.1 + r.2.2.2 ≤ bankHi)

/-- Two regions share a word. -/
def regionsMeet (r s : Nat × Nat × Nat × Nat) : Bool :=
  decide (r.2.2.1 < s.2.2.1 + s.2.2.2) && decide (s.2.2.1 < r.2.2.1 + r.2.2.2)

/-- The first pair of overlapping regions, in table order (log 83). -/
def firstMeet : List (Nat × Nat × Nat × Nat) → Option ((Nat × Nat × Nat × Nat) × (Nat × Nat × Nat × Nat))
  | [] => none
  | r :: l => match l.find? (regionsMeet r) with
    | some s => some (r, s)
    | none => firstMeet l

/-- The check of the map; false where the device stays in PLAN. -/
def mapCheck (w : Work) : Bool × Work :=
  let l := (regions w).filter (fun r => r.2.2.2 != 0)
  let say := fun (cause : Nat) (r s : Nat × Nat) =>
    (false, logEvent .sys 0 5 (put 20 4 r.2 + put 16 4 s.2 + put 12 2 cause + put 6 6 r.1 + put 0 6 s.1) w)
  match l.find? (fun r => !regionIn r) with
  | some r => say 1 (r.1, r.2.1) (0, 0)
  | none => match firstMeet l with
    | some (r, s) => say 2 (r.1, r.2.1) (s.1, s.2.1)
    | none => (true, w)

/-- The static pages of the present configuration, with the CRC of each (spec/16 R519, R520, Table 16.4). -/
def markStatic (w : Work) : Work :=
  let d := w.d
  let fds := List.range (numFD w.variant)
  let rs := [(d.trl.base, 32768), (d.trl.smap, 65536), (d.ce.imgBase, 131072)]
    ++ fds.map (fun n => ((getFd n w).pimg, 16384)) ++ fds.map (fun n => ((getFd n w).yimg, 8192))
    ++ [(d.stp.tblBase, 1024), (0x780000, d.boot.cfgLen)]
  crcAll { w with d.mem.static := rs.map (fun r => (r.1 / 256, cdiv r.2 256)) }

/-! Re-planning from the ledger (spec/19 Table 19.2). -/

/-- Highest rate code the silicon slowdown leaves. -/
def rateCeil (w : Work) : Nat := if 1000 < siliconSlow w then 1 else if 500 < siliconSlow w then 2 else 3

/-- The first place of the largest of a list. -/
def argMax (l : List Nat) : Nat := l.idxOf (l.foldl max 0)

/-- The rules of Table 19.2. -/
def agePlan (w : Work) : Work :=
  let ga := gReq (age30 false w)
  let gb := gReq (age30 true w)
  let a := xoAge w
  let ppm := match a with | some x => x.ceil.toNat | none => 0
  let aged := match a with | some x => decide (100 < x) | none => false
  let c := rateCeil w
  let many := (List.range 32).filter (fun b => cerrLimit w < cerrDay b w)
  let w := { w with
    d.age.planA := gUnits ga, d.age.planB := gUnits gb, d.age.reqA := min 255 (cdiv ga 4)
    d.age.reqB := min 255 (cdiv gb 4), d.boot.agePpm := min ppm 100, d.age.xoUnk := a.isNone, d.age.xoAged := aged
    d.age.ceilOn := c != 3, d.age.ceil_ := c
    d.age.fastScrub := (List.range 32).any (fun b => cerrLimit w < 4 * cerrDay b w)
    d.age.eyes := w.d.age.eyes.zipWith (fun e ps => (e.1, e.2.1, if ps.isEmpty then e.2.2 else argMax ps)) w.d.age.presets }
  let w := when_ aged (logEvent .age 0 1 0) w
  let w := when_ (c != 3) (logEvent .age 0 2 0) w
  each many (fun b w => logEvent .age 0 6 0 { w with d.mem.retmark := bvPut b true w.d.mem.retmark }) w

/-! Schedules (spec/11 R350, R353, R360, R646). -/

/-- The schedule of a mode: entries and the nodes' slot entries. -/
structure Sched where
  mode : Nat := 0
  rate : Nat := 0
  hsrc : Bool := false
  entries : List (Word × Word) := []
  slots : List SlotSpec := []
deriving Repr

/-- A healed mode can exist with the rings in use (R646). -/
def modeCan (m : Nat) (i : Image) : Bool :=
  match m with | 1 => i.useA | 2 => i.useB | 3 => i.useA && i.useB | _ => true

/-- First word of an entry of mode m with its guard raised to g. -/
def e0Make (m g : Nat) (e : Word) : Word :=
  wd (putB 35 true + put 32 3 m + put 22 10 (fld e 22 10) + put 15 7 (max g (e0Guard e)) + fld e 0 15)

/-- The entries of a mode, its own and those of the base its overlay leaves, in order of ring, path and OFFSET. -/
def placeEntries (m : Nat) (g : Bool → Nat) (l : List (Word × Word)) : List (Word × Word) :=
  let key := fun (e : Word × Word) => fld e.1 30 2 * 32768 + e0Offset e.1
  (l.map (fun e => (e0Make m (g (e0Ring e.1)) e.1, e.2))).mergeSort (fun x y => decide (key x ≤ key y))

/-- The schedule of mode m; none where the image gives none. -/
def schedOf (m : Nat) (g : Bool → Nat) (i : Image) : Option Sched :=
  if m == 0 then
    some { mode := 0, rate := i.rate, hsrc := i.hsrc, entries := placeEntries 0 g i.entries, slots := i.slots }
  else if !modeCan m i then none
  else
    match i.overlays.find? (fun o => o.mode == m) with
    | none => none
    | some o =>
      let base := (i.entries.zipIdx).filter (fun e => !o.removed.contains e.2)
      let base := base.map (fun e => match o.replaced.find? (fun r => r.1 == e.2) with | some r => r.2 | none => e.1)
      let sets := fun (s : SlotSpec) => o.slotsSet.any (fun t => t.ringB == s.ringB && t.node == s.node && t.e == s.e)
      let slots := i.slots.filter (fun s => !o.slotsRemoved.contains (s.ringB, s.node, s.e) && !sets s)
      some { mode := m, rate := o.rate, hsrc := o.hsrc, entries := placeEntries m g (base ++ o.added),
             slots := slots ++ o.slotsSet }

/-- The guards the ledger sets for a plan, in 4 ns units. -/
def planGuard (w : Work) (b : Bool) : Nat := if b then w.d.age.planB else w.d.age.planA

/-! Times, in tenths of a nanosecond. -/

/-- First and end code groups of a body word after /S/ (R353, Table 10.3). -/
def beta (o : Nat) : Nat := 10 + 9 * (o / 2) + 4 * (o % 2)
def betaEnd (o : Nat) : Nat := beta o + 5

/-- Wire time of a frame (spec/10 R314). -/
def wireTime (e : Word × Word) : Nat := 32 * (16 + 9 * e1Pairs e.2 + e1Pairs e.2 % 2)

/-- Cycle time of a rate. -/
def cycleT (rate : Nat) : Nat := 156250 * unitsOf rate

/-- Departure and guard of an entry. -/
def depart (e : Word × Word) : Nat := 40 * e0Offset e.1
def guardT (e : Word × Word) : Nat := 40 * e0Guard e.1

/-- A block of a schedule: node, first word, length, its number among the node's blocks of the class. -/
structure SBlock where
  node : Nat
  wofs : Nat
  wlen : Nat
  k : Nat
deriving Repr

/-- The blocks an entry of a schedule carries (R352). -/
def schedBlocks (c : Sched) (e : Word × Word) (w : Work) : List SBlock :=
  let b := e0Ring e.1
  let cls := e0Class e.1
  let ps := ((getR b w).byPos.zipIdx 1).filter (fun p => e1First e.2 ≤ p.2 && p.2 ≤ e1Last e.2 && !p.1.2)
  ps.flatMap (fun p =>
    let ss := (c.slots.filter (fun s => s.ringB == b && s.node == p.1.1 && s.cls == cls
      && (cls != 4 || s.sub == e0Sub e.1))).mergeSort (fun x y => decide (x.e ≤ y.e))
    if nodeIn b p.1.1 w then ss.zipIdx.map (fun s => { node := p.1.1, wofs := s.1.wofs, wlen := s.1.wlen, k := s.2 })
    else [])

/-- Latency of a path of a ring, ns. -/
def lam (b pw : Bool) (w : Work) : Nat := if pw then (getR b w).lamW else (getR b w).lamE

/-- The longer line of a ring folded at the home unit's position, as a return from the standby's position (spec/13
R412). -/
def foldLat (b : Bool) (w : Work) : Nat :=
  let r := getR b w
  let n := match r.byPos[r.standbyPos - 1]? with | some x => getNode b x.1 w | none => {}
  2 * max n.dlyE (r.lamE - n.dlyE)

/-- A healed mode (R359): one whose schedule serves lines. -/
def healedMode (m : Nat) : Bool := m == 1 || m == 2 || m == 3

/-- The latency conditions 5 to 7 are tried with: whole rings, the fold of mode 4, or the longest line (R354). -/
inductive LatKind where
  | whole | fold | line
deriving DecidableEq, Repr

/-- Return latency of an entry, and passage latency of a node, under a kind. -/
def retLat (k : LatKind) (e : Word × Word) (w : Work) : Nat :=
  let b := e0Ring e.1
  match k with | .whole => lam b (e0Path e.1) w | .fold => foldLat b w | .line => 2 * lam b (e0Path e.1) w
def passLat (k : LatKind) (e : Word × Word) (node : Nat) (w : Work) : Nat :=
  let n := getNode (e0Ring e.1) node w
  match k with | .whole => if e0Path e.1 then n.dlyW else n.dlyE | _ => retLat k e w

/-- Planned landing of the axes of a schedule: landing, ring, axis. A healed schedule carries GATHER on both paths, so that
an axis has two planned returns on a whole ring; the spec does not say which is its planned landing, and the model takes the
earlier one (R24, R353; DESIGN CHOICE, log 76). -/
def landings (k : LatKind) (c : Sched) (w : Work) : List (Nat × Bool × Nat) :=
  let one := (c.entries.filter (fun e => e0Class e.1 == 2)).flatMap (fun e =>
    (schedBlocks c e w).flatMap (fun s => match mapNode (e0Ring e.1) s.node w with
      | none => []
      | some n => n.axes.zipIdx.map (fun a =>
        (depart e + 10 * retLat k e w + 32 * betaEnd (s.wofs + 2 + 6 * a.2 + 5), e0Ring e.1, a.1))))
  one.foldl (fun l x => match l.find? (fun y => y.2.2 == x.2.2) with
    | some y => if x.1 < y.1 then l.map (fun z => if z.2.2 == x.2.2 then x else z) else l
    | none => l ++ [x]) []

/-- The axes of a schedule in the order of spec/01 R24. -/
def axisOrder (c : Sched) (w : Work) : List Nat :=
  let key := fun (x : Nat × Bool × Nat) => (x.1 * 2 + ringKey x.2.1) * 256 + x.2.2
  ((landings .whole c w).mergeSort (fun x y => decide (key x ≤ key y))).map (fun x => x.2.2)

/-- Result deadline of an axis: the planned instant at which the controller reaches its scatter record in the frame, the
earlier one where a healed schedule carries SCATTER on both paths (spec/06 R204, spec/10 R322, log 76). -/
def resDl (c : Sched) (a : Nat) (w : Work) : Nat :=
  let ds := (c.entries.filter (fun e => e0Class e.1 == 3 && !e1Rescue e.2)).flatMap (fun e =>
    (schedBlocks c e w).filterMap (fun s => match mapNode (e0Ring e.1) s.node w with
      | some n => if n.axes.contains a then some (depart e + 32 * beta (s.wofs + 1 + 4 * n.axes.idxOf a)) else none
      | none => none))
  ds.foldl (fun m d => if m == 0 then d else min m d) 0

/-- Largest BUDGET of an enabled tap of an axis. -/
def budgetMax (a : Nat) (w : Work) : Nat :=
  (((List.range 4).filter (fun t => tapEn a t w)).map (fun t => fld (pageWord a (0x11 + 4 * t) w) 0 10)).foldl max 0

/-- T_ax of an axis in an order (spec/06 R201), CE cycles. -/
def tAx (l : List Nat) (a : Nat) (w : Work) : Nat :=
  let eng := fun x => l.idxOf x % numCE w.variant
  let others := l.filter (fun x => eng x != eng a && eng x % numFD w.variant == eng a % numFD w.variant)
  tAxWith a ((others.map (fun x => budgetMax x w)).foldl max 0) w

/-- T_ax in tenths of a nanosecond at 600 MHz. -/
def tAxT (l : List Nat) (a : Nat) (w : Work) : Nat := cdiv (50 * tAx l a w) 3

/-- START_DL of the axes of an engine, the last of the order first (spec/06 R204). -/
def startDls (l : List Nat) (c : Sched) (w : Work) : List Nat → Option Nat → List (Nat × Nat × Nat)
  | [], _ => []
  | a :: r, next =>
    let rd := resDl c a w
    let sd := (match next with | some n => min rd n | none => rd) - tAxT l a w
    (a, sd, rd) :: startDls l c w r (some sd)

/-! The conditions of Table 11.3. -/

/-- The frames of a ring and path sent in cycle s of a slow group, in order of departure. -/
def cycleFrames (c : Sched) (b pw : Bool) (s : Nat) : List (Word × Word) :=
  c.entries.filter (fun e => e0Ring e.1 == b && e0Path e.1 == pw && (e0Every e.1 || e0Sub e.1 == s))

/-- Conditions 2 and 3 on the frames of a cycle. -/
def framesFit (T : Nat) : List (Word × Word) → Bool × Bool
  | [] => (true, true)
  | [e] => (true, decide (depart e + wireTime e + guardT e + 64 ≤ T))
  | e :: f :: l =>
    let r := framesFit T (f :: l)
    (decide (depart e + wireTime e + guardT e + 64 ≤ depart f) && r.1, r.2)

/-- A class travels on its path (Table 10.5). -/
def classPath (healed : Bool) (e : Word × Word) : Bool :=
  match e0Class e.1 with
  | 1 => true
  | 2 => healed || !e0Path e.1
  | 3 => healed || !e0Path e.1 || e1Rescue e.2
  | 4 | 5 | 6 => healed || e0Path e.1
  | _ => false

/-- PAIRS of the entries of a class on a path. -/
def pairsOf (c : Sched) (b pw : Bool) (cls : Nat) : List Nat :=
  (c.entries.filter (fun e => e0Ring e.1 == b && e0Path e.1 == pw && e0Class e.1 == cls && !e1Rescue e.2)).map
    (fun e => e1Pairs e.2)

/-- Conditions 5 to 7 under a kind of latency. -/
def lateOk (k : LatKind) (c : Sched) (l : List Nat) (w : Work) : Bool × Bool × Bool :=
  let T := cycleT c.rate
  let c5 := (landings k c w).all (fun x => decide (x.1 + tAxT l x.2.2 w ≤ resDl c x.2.2 w))
  let c6 := (c.entries.filter (fun e => e0Class e.1 == 3)).all (fun e => (schedBlocks c e w).all (fun s =>
    decide (depart e + 10 * passLat k e s.node w + 32 * betaEnd (s.wofs + s.wlen - 1) + 10000 + guardT e ≤ T)))
  let c7 := (c.entries.filter (fun e => e0Class e.1 == 2 || e0Class e.1 == 4 || e0Class e.1 == 6)).all (fun e =>
    (schedBlocks c e w).all (fun s => (e0Class e.1 == 6 && s.k % 2 == 0)
      || decide (depart e + 10 * retLat k e w + 32 * betaEnd (s.wofs + s.wlen - 1) + guardT e ≤ T)))
  (c5, c6, c7)

/-- Condition 10 on one ring. -/
def rescueOk (c : Sched) (b : Bool) (w : Work) : Bool :=
  let es := c.entries.filter (fun e => e0Ring e.1 == b)
  match es.find? (fun e => e0Class e.1 == 3 && !e0Path e.1 && !e1Rescue e.2) with
  | none => true
  | some sc =>
    let head := (es.filter (fun e => e0Class e.1 == 2 && !e0Path e.1)).map (fun g =>
      depart g + 10 * lam b false w + guardT g + 10000)
    es.any (fun e => e0Class e.1 == 3 && e0Path e.1 && e1Rescue e.2 && e1Pairs e.2 == e1Pairs sc.2
      && decide (depart sc ≤ depart e) && head.all (fun h => decide (h ≤ depart e)))

/-- Node limit of a ring at a rate (spec/00 Table 0.4, spec/01 R19). -/
def nodeLimit (rate : Nat) : Nat := match rate with | 0 => 126 | 1 => 64 | 2 => 32 | _ => 16

/-- Axis limit of an engine at a rate (spec/01 R25). -/
def engLimit (rate : Nat) : Nat := match rate with | 0 => 16 | 1 => 16 | 2 => 8 | _ => 4

/-- The lowest condition of Table 11.3 a schedule fails; need is the guard the ledger requires of a ring, in ns, and hs
says that the mode is to be a heal source. -/
def schedFails (c : Sched) (hs : Bool) (need : Bool → Nat) (w : Work) : Option Nat :=
  let rs := ringsUsed w
  let healed := healedMode c.mode || c.mode == 4
  let T := cycleT c.rate
  let l := axisOrder c w
  let both := rs.flatMap (fun b => [(b, false), (b, true)])
  let cyc := both.flatMap (fun p => (List.range (slowOf c.rate)).map (fun s => framesFit T (cycleFrames c p.1 p.2 s)))
  let k : LatKind := if c.mode == 4 then .fold else .whole
  let (c5, c6, c7) := lateOk k c l w
  let line := !healedMode c.mode || (let x := lateOk .line c l w; x.1 && x.2.1 && x.2.2)
  let c1 := both.all (fun p =>
    let s := c.entries.filter (fun e => e0Class e.1 == 1 && e0Ring e.1 == p.1 && e0Path e.1 == p.2)
    s.length == 1 && s.all (fun e => e0Every e.1 && e0Offset e.1 == 0 && e1Pairs e.2 == 2))
  let c4 := c.entries.all (classPath healed) && (!healed || rs.all (fun b =>
    pairsOf c b false 2 == pairsOf c b true 2 && pairsOf c b false 3 == pairsOf c b true 3))
  let c8 := rs.all (fun b => decide ((getR b w).found ≤ nodeLimit c.rate))
    && decide (l.length ≤ servoCap w.variant c.rate) && decide (cdiv l.length (numCE w.variant) ≤ engLimit c.rate)
  let c9 := rs.all (fun b => (getR b w).nodes.all (fun kv => !nodeIn b kv.1 w ||
    (let id3 := nth 0 kv.2.ident 3
     let mine := c.slots.filter (fun s => s.ringB == b && s.node == kv.1)
     bit id3 (32 + c.rate) && decide (mine.length ≤ max 16 (fld id3 0 16)) && mine.all (fun s => decide (s.e < 16)))))
  let c10 := !hs || healed || rs.all (fun b => rescueOk c b w)
  let c12 := c.entries.all (fun e => decide (4 ≤ e0Guard e.1) && decide (need (e0Ring e.1) ≤ 4 * e0Guard e.1))
  [(1, c1), (2, cyc.all (fun x => x.1)), (3, cyc.all (fun x => x.2)), (4, c4), (5, c5), (6, c6), (7, c7), (8, c8),
   (9, c9), (10, c10), (11, line), (12, c12)].findSome? (fun x => if x.2 then none else some x.1)

/-! Steps of PLAN (spec/11 R381). -/

/-- A standby stands on every ring in use, so that mode 4 can be planned (log 77). -/
def standbySeen (w : Work) : Bool := (ringsUsed w).all (fun b => (getR b w).standbyPos != 0)

/-- The schedules PLAN builds: those the image gives, at a rate the ceiling allows. -/
def scheds (w : Work) : List Sched :=
  (List.range 8).filterMap (fun m => (schedOf m (planGuard w) (imageOf w)).filter (fun c =>
    decide (c.rate ≤ rateCeil w) && (m != 4 || standbySeen w)))

/-- A mode is built. -/
def built (m : Nat) (w : Work) : Bool := (scheds w).any (fun c => c.mode == m)

/-- HSRC of a built mode (R646, spec/13 R413). -/
def planHsrc (c : Sched) (w : Work) : Bool :=
  match c.mode with
  | 0 | 6 | 7 => c.hsrc && (!ringUsed false w || built 1 w) && (!ringUsed true w || built 2 w)
  | 1 | 2 => built 3 w
  | 4 => let x := lateOk .line c (axisOrder c w) w; x.1 && x.2.1 && x.2.2
  | _ => false

/-- The image names a unit the variant has not, at the rate of a mode that uses it (spec/00 R8): ring B, the graft link or
Hedge, in any part of it; a stepper beyond STEP_MAX; a servo axis beyond SERVO_MAX16, or beyond the capacity at the rate of
a mode that gives it a gather record. -/
def capMissing (w : Work) : Bool :=
  let i := imageOf w
  let v := w.variant
  let ms := (List.range 8).filterMap (fun m => schedOf m (planGuard w) i)
  (!hasRingB v && (i.useB || i.nodes.any (fun n => n.ringB)
      || ms.any (fun c => c.entries.any (fun e => e0Ring e.1) || c.slots.any (fun s => s.ringB))))
    || (!hasGraft v && i.graft)
    || (!hasHedge v && (i.nodes.any (fun n => !n.conns.isEmpty) || !i.brakes.isEmpty))
    || i.nodes.any (fun n => n.steppers.any (fun a => decide (stepMax v ≤ a)))
    || i.nodes.any (fun n => n.axes.any (fun a => decide (servoMax16 v ≤ a)))
    || i.brakes.any (fun b => decide (servoMax16 v ≤ b.2.2))
    || ms.any (fun c => c.slots.any (fun s => s.cls == 2 && (i.nodes.filter (fun n =>
        n.ringB == s.ringB && n.id == s.node)).any (fun n => n.axes.any (fun a => decide (servoCap v c.rate ≤ a)))))

/-- The capability check; the word that names the unit is not laid out (log 78). -/
def capCheck (w : Work) : Bool × Work :=
  if capMissing w then let (v, w) := freeW w; (false, logEvent .sys 0 1 v.toNat w) else (true, w)

/-- Engine assignment and deadlines of every mode (spec/01 R24, spec/06 R204), and the budget check of R201. -/
def planEngines (w : Work) : Bool × Work :=
  let cs := (scheds w).map (fun c => (c, axisOrder c w))
  let w := { w with d.ce.orders := [], d.ce.deadlines := [] }
  let w := each cs (fun x w =>
    let w := { w with d.ce.orders := tabSet [] w.d.ce.orders x.1.mode x.2 }
    each (List.range (numCE w.variant)) (fun e w =>
      let mine := (x.2.filter (fun a => x.2.idxOf a % numCE w.variant == e)).reverse
      each (startDls x.2 x.1 w mine none) (fun y w => { w with
        d.ce.deadlines := tabSet (0, 0) w.d.ce.deadlines (256 * x.1.mode + y.1) (y.2.1 / 10, y.2.2 / 10) }) w) w) w
  match cs.findSome? (fun x => x.2.find? (fun a => 520 < tAx x.2 a w)) with
  | some a => (false, logEvent .ce 0 5 a w)
  | none => (true, w)

/-- The axes bound to a Furrow unit in any mode, ascending (R202). -/
def unitAxes (n : Nat) (w : Work) : List Nat :=
  (List.range 256).filter (fun a => w.d.ce.orders.any (fun kv =>
    kv.2.contains a && unitAt w kv.2 a == n))

/-- Place the taps of the axes of a unit one after another (log 82): the allocation, and the first axis that does not
fit. -/
def placeTaps (w : Work) : List (Nat × Nat) → Nat → Nat → Tab FdAlloc → Tab FdAlloc × Option Nat
  | [], _, _, t => (t, none)
  | (a, k) :: r, x, c, t =>
    let sz := pageWord a (0x13 + 4 * k) w
    let xs := fld sz 0 12
    let csz := fld sz 12 12
    if 16384 < x + xs || 8192 < c + 2 * csz then (t, some a)
    else placeTaps w r (x + xs) (c + 2 * csz) (tabSet {} t (4 * a + k) { xb := x, cb0 := c, cb1 := c + csz, used := true })

/-- Tap memory of every unit (R202). -/
def planTaps (w : Work) : Bool × Work :=
  (List.range (numFD w.variant)).foldl (fun (acc : Bool × Work) n =>
    let w := acc.2
    let taps := (unitAxes n w).flatMap (fun a => ((List.range 4).filter (fun t => tapEn a t w)).map (fun t => (a, t)))
    let (t, bad) := placeTaps w taps 0 0 []
    let w := setFd n { getFd n w with alloc := t } w
    match bad with
    | some a => if acc.1 then (false, logEvent .ce n 6 a w) else (false, w)
    | none => (acc.1, w)) (true, w)

/-- The guards a plan has to meet, ns. -/
def planNeed (w : Work) (b : Bool) : Nat := gReq (age30 b w)

/-- The conditions of R354 over every mode. -/
def planCheck (w : Work) : Bool × Work :=
  match (scheds w).findSome? (fun c => (schedFails c (planHsrc c w) (planNeed w) w).map (fun n => (c.mode, n))) with
  | some (m, n) =>
    (false, logEvent .trl 0 1 (put 4 3 m + put 0 4 n) { w with
      d.trl.invalid := true, d.trl.invMode := m, d.trl.invCond := n })
  | none => (true, w)

/-- The node's slot entry of a block (R353, Table 10.12). -/
def slotWords2 (c : Sched) (s : SlotSpec) (w : Work) : Word × Word :=
  let e := c.entries.find? (fun e => e0Ring e.1 == s.ringB && e0Class e.1 == s.cls && (s.cls != 4 || e0Sub e.1 == s.sub)
    && !e1Rescue e.2 && (let p := (getNode s.ringB s.node w).pos; decide (e1First e.2 ≤ p) && decide (p ≤ e1Last e.2)))
  let (lo, hi) := match e with
    | none => (0, 0)
    | some e =>
      let a := depart e + 10 * passLat .whole e s.node w + 32 * beta s.wofs
      ((a - guardT e) / 40, cdiv (a + guardT e) 40)
  (wd (put 32 4 s.cls + put 29 3 s.sub + putB 28 true + put 14 14 s.wofs + put 0 12 s.wlen), wd (put 18 18 lo + put 0 18 hi))

/-- Write trellis and slot maps, and record the modes (R349 to R353, R360). DESIGN CHOICE (log 128): the spec names no check
of the 16,384 trellis entries of R10 over all modes, so entries past them are written on behind the region. -/
def planWrite (w : Work) : Work :=
  let cs := scheds w
  let w := { w with d.trl.modes := [] }
  let w := wrZeros w.d.trl.smap 65536 (wrZeros w.d.trl.base 32768 w)
  let hs := cs.map (fun c => planHsrc c w)
  let w := ((cs.zip hs).foldl (fun (acc : Nat × Work) x =>
    let (at_, w) := acc
    let c := x.1
    let w := wrs (w.d.trl.base + 2 * at_) (c.entries.flatMap (fun e => [e.1, e.2])) w
    let w := each c.slots (fun s w =>
      let p := slotWords2 c s w
      if nodeIn s.ringB s.node w then wrs (smapAddr s.ringB s.node c.mode s.e w) [p.1, p.2] w else w) w
    let r : ModeRec := { valid := true, hsrc := x.2, rate := c.rate, slowl := Nat.log2 (slowOf c.rate),
                         count := c.entries.length, first := at_ }
    (at_ + c.entries.length, { w with d.trl.modes := tabSet {} w.d.trl.modes c.mode r })) (0, w)).2
  w

/-- PWRITE transfers of a mode's slot entries to every node of a ring (R361, R362). -/
def slotXfers (b : Bool) (m : Nat) (w : Work) : List AXfer :=
  ((getR b w).nodes.filter (fun kv => nodeIn b kv.1 w)).map (fun kv =>
    { dst := kv.1, svc := 1, arg := wd (0xF00000000 + 0x100 * m), words := rds (smapAddr b kv.1 m 0 w) 32 w, rwords := 32 })

/-- Queue the slot entries of modes for the nodes. -/
def queueSlots (ms : List Nat) (w : Work) : Work :=
  each (ringsUsed w) (fun b w =>
    let l := (ms.filter (fun m => (modeRec m w).valid)).flatMap (fun m => slotXfers b m w)
    modR b (fun r => { r with acyc := r.acyc ++ l }) w) w

/-- Load a Furrow unit (spec/07 R256): program, table and both coefficient copies of every tap; the images' page CRCs are
checked as they are copied, each failure is logged, and one leaves the unit not loaded. -/
def fdLoad (n : Nat) (w : Work) : Bool × Work :=
  let u := getFd n w
  let pages := (List.range 64).map (fun k => u.pimg + 256 * k) ++ (List.range 32).map (fun k => u.yimg + 256 * k)
  let bad := pages.filter (fun a => !pageGood a w)
  let pm := each ((touched u.pimg 16384 w).map (fun a => (a - u.pimg) / 2)) (fun k t =>
    tabSet 0 t k (pIns (rd (u.pimg + 2 * k) w) (rd (u.pimg + 2 * k + 1) w))) []
  let ym := each (touched u.yimg 8192 w) (fun a t => tabSet 0 t (0x2000 + (a - u.yimg)) (rd a w))
    (u.ym.filter (fun kv => decide (kv.1 < 0x2000)))
  let u := { u with pm := pm, ym := ym, ecc := u.ecc.filter (fun e => e.1 == 0 || (e.1 == 1 && decide (e.2.1 < 0x2000))) }
  let u := each u.alloc (fun kv u =>
    let a := kv.1 / 4
    let t := kv.1 % 4
    let csz := fld (rd (pageAddr a 0 (0x13 + 4 * t) w) w) 12 12
    let off := ((List.range t).map (fun k => fld (rd (pageAddr a 0 (0x13 + 4 * k) w) w) 12 12)).sum
    each (List.range csz) (fun k u =>
      fdWrite 2 (kv.2.cb1 + k) (rd (pageAddr a 1 (0xA0 + off + k) w) w)
        (fdWrite 2 (kv.2.cb0 + k) (rd (pageAddr a 0 (0xA0 + off + k) w) w) u)) u) u
  (bad.isEmpty, each bad (fun a w => logEvent .fd n 4 a w) (setFd n { u with loaded := bad.isEmpty } w))

/-- Every Furrow unit loads; PLAN goes on when all are loaded. -/
def planFurrow (w : Work) : Bool × Work :=
  (List.range (numFD w.variant)).foldl (fun (acc : Bool × Work) n => let (ok, w) := fdLoad n acc.2; (acc.1 && ok, w)) (true, w)

/-- The current tables (spec/08 R266). -/
def planTables (w : Work) : Bool × Work :=
  match (List.range 4).find? (fun k => !pageGood (w.d.stp.tblBase + 256 * k) w) with
  | some k => (false, logEvent .stp 0 2 k w)
  | none => (true, each (List.range 4) (fun k w => { w with
      d.stp.tables := tabSet none w.d.stp.tables k (stpTable k w) }) { w with d.stp.staged := [] })

/-- Capacity of the graft link at a rate (spec/13 Table 13.3), and the fixed part of a set and the allowance (R424). -/
def graftCap (rate : Nat) : Nat := match rate with | 3 => 3920 | 2 => 8256 | _ => 16368
def graftFixed (rate : Nat) (w : Work) : Nat :=
  let s := slowOf rate
  let ns := (imageOf w).nodes
  let nServo := (ns.map (fun n => n.axes.length)).sum
  let nStep := (ns.map (fun n => n.steppers.length)).sum
  let wOut := (ns.map (fun n => n.outWords)).sum
  let x := ((List.range (numFD w.variant)).map (fun n =>
    ((getFd n w).alloc.map (fun kv => fld (pageWord (kv.1 / 4) (0x13 + 4 * (kv.1 % 4)) w) 0 12)).sum)).sum
  16 + 16 * nServo + cdiv (3 * nStep) s + cdiv wOut s + 64 + cdiv x 8 + 400 + 13 * cdiv 64 s + 96
def graftAllow (rate : Nat) (w : Work) : Nat := 4 * graftCap rate / 5 - graftFixed rate w

/-- The graft sizing of the modes of Table 13.1 (R424). -/
def planGraft (w : Work) : Work :=
  let tight := [0, 3, 4].any (fun m => (modeRec m w).valid && decide (graftAllow (modeRec m w).rate w < 256))
  if hasGraft w.variant && w.d.grf.en && tight then logEvent .grf 0 8 0 { w with d.grf.capacity := true } else w

/-- The gates at the end of PLAN (spec/18 R561). -/
def planGates (w : Work) : Work :=
  let ce := (List.range (numCE w.variant)).filter (fun e => w.d.ce.orders.any (fun kv => e < kv.2.length))
  let fd := (List.range (numFD w.variant)).filter (fun n => !(getFd n w).alloc.isEmpty)
  let g := (if ce.isEmpty then 0 else 2 ^ 18) + (if fd.isEmpty then 0 else 2 ^ 19) + (fd.map (fun n => 2 ^ (14 + n))).sum
    + putB 20 (ringUsed false w) + putB 21 (ringUsed true w) + putB 22 (w.d.grf.en && hasGraft w.variant)
  { w with d.boot.gate := some g, d.boot.gateCe := some (ce.map (fun e => 2 ^ e)).sum }

/-- The outputs take the fail-safe values of the map (spec/01 R653). -/
def failSafe (w : Work) : Work :=
  each (imageOf w).nodes (fun n w => each (n.points.filter (fun q => q.output)) (fun q w => pointWrite n q q.failSafe w) w)
    { w with d.trl.outImg := [] }

/-- The proposal of mode 5 with L = 8 (R381), where the image gives that mode. -/
def proposeCommission (w : Work) : Work :=
  if (modeRec 5 w).valid then propose { mode := 5, n := nccPlus 8 w, target := some .commission } { w with d.sys.trans := true }
  else w

/-- Run the steps of a list until one fails. -/
def planSteps : List (Work → Bool × Work) → Work → Bool × Work
  | [], w => (true, w)
  | f :: r, w => let (ok, w) := f w; if ok then planSteps r w else (false, w)

/-- PLAN at its entry (R381); a step that fails leaves the device in PLAN. -/
def plan (w : Work) : Work :=
  let w := setState .plan { w with
    d.trl.invalid := false, d.trl.planOk := false, d.grf.capacity := false, d.grf.home := true }
  let w := failSafe (markStatic w)
  let (ok, w) := planSteps [mapCheck, fun w => (true, agePlan w), capCheck, planEngines, planTaps, planCheck,
    fun w => (true, queueSlots [1, 2, 3, 4, 5, 6, 7] (planWrite w)), planFurrow, planTables] w
  if !ok then w
  else
    let w := ageAppend (planGates (planGraft w))
    proposeCommission { w with d.trl.planOk := true, d.trl.offered := true, d.trl.statOn := true }

end Sys2Proof.Machine
end

