-- ==== Sys2Proof/Machine/Discover.lean ====
section
/-! DEFINITION. DISCOVER, its steps and repeats, PLAN's repeated proposal, the mode 0 slot entries, domain starts, and the
guard check of every second (spec/11 R361, R362, R377 to R381, spec/18 R554 to R557, spec/19 R588 to R591). -/

namespace Sys2Proof.Machine

/-- The built-in schedule starts, with epoch 1 after a reset and the present one otherwise (R361, R378). -/
def startSchedule (w : Work) : Work :=
  let w := each [false, true] (fun b w => modR b (fun r => { r with passive := false }) w) w
  { w with
    d.trl.builtIn := true, d.trl.step := some 0, d.trl.waiting := false, d.trl.epochKept := true
    d.trl.epoch := if w.d.trl.epochKept then w.d.trl.epoch else 1 }

/-- DISCOVER_LISTEN_END: the lowest UNIT_ID heard while listening, where one was (Table 11.9). -/
def listenEnd (u : Option (Fin 16)) (w : Work) : Work :=
  if w.d.sys.st != .discover || !w.d.trl.listening then w
  else
    let w := { w with d.trl.listening := false }
    match u with
    | none => startSchedule (setRole .solo w)
    | some u =>
      if u.val ≤ w.d.boot.unitId then contend u.val w else startSchedule (setRole .active w)

/-- Identity fields (spec/10 Table 10.10). -/
def idVendor (l : List Word) : Nat := fld (nth 0 l 0) 20 16
def idProduct (l : List Word) : Nat := fld (nth 0 l 0) 0 20
def idRev (l : List Word) : Nat := fld (nth 0 l 1) 20 16
def idNode (l : List Word) : Nat := fld (nth 0 l 1) 13 7
def idServos (l : List Word) : Nat := fld (nth 0 l 2) 33 3
def idSteppers (l : List Word) : Nat := fld (nth 0 l 2) 28 5
def idOut (l : List Word) : Nat := fld (nth 0 l 2) 16 12
def idIn (l : List Word) : Nat := fld (nth 0 l 2) 4 12
def idRates (l : List Word) : Nat := fld (nth 0 l 3) 32 4
def idDeclared (l : List Word) : Nat := fld (nth 0 l 3) 24 8

/-- An identity satisfies its entry of the node map (R380). -/
def idExpected (n : MapNode) (l : List Word) : Bool :=
  n.vendor == idVendor l && n.product == idProduct l && decide (n.minRev ≤ idRev l)
    && decide (n.axes.length ≤ idServos l) && decide (n.steppers.length ≤ idSteppers l)
    && decide (n.outWords ≤ idOut l) && decide (n.inWords ≤ idIn l)

/-- The identity of a standby unit (spec/13 R410, log 77). -/
def idStandby (l : List Word) : Bool :=
  idServos l == 0 && idSteppers l == 0 && idOut l == 0 && idIn l == 0 && idRates l == 15

/-- Classify the node at a position (R380). -/
def identifyAt (b : Bool) (pos : Nat) (l : List Word) (w : Work) : Work :=
  let id := idNode l
  let taken := (getNode b id w).pos != 0
  let ok := !taken && (match mapNode b id w with | some n => idExpected n l | none => false)
  let w := modR b (fun r => { r with
    byPos := r.byPos ++ [(id, !ok)]
    standbyPos := if !ok && idStandby l && r.standbyPos == 0 then pos else r.standbyPos }) w
  let w := if taken then w
    else modNode b id (fun n => { n with pos := pos, present := ok, passed := !ok, ident := l }) w
  when_ (!ok) (logEvent (ringBlk b) id 11 pos) w

/-- Required nodes of a ring that were not found. -/
def missingNodes (b : Bool) (w : Work) : List Nat :=
  ((mapNodes b w).filter (fun n => !n.optional && !(getNode b n.id w).present)).map (fun n => n.id)

/-- Identify: the records of every position, rings one after the other (Table 11.10). -/
def stepIdentify (recs : List (Bool × List Word)) (w : Work) : Bool × Work :=
  let w := each (ringsUsed w) (fun b w => modR b (fun r => { r with
    byPos := [], standbyPos := 0
    nodes := r.nodes.map (fun kv => (kv.1, { kv.2 with pos := 0, present := false, passed := false })) }) w) w
  let w := each (ringsUsed w) (fun b w =>
    each ((recs.filter (fun x => x.1 == b)).zipIdx 1) (fun x w => identifyAt b x.2 x.1.2 w) w) w
  let miss := (ringsUsed w).flatMap (fun b => (missingNodes b w).map (fun id => (b, id)))
  (miss.isEmpty, each miss (fun x w => logEvent (ringBlk x.1) x.2 10 0 w) w)

/-- A node forwards too slowly: above 200 ns, or more than 2 ns above its declared latency; the growth in ns. -/
def nodeSlow (n : RNode) : Option Nat :=
  let f := max n.fwdE n.fwdW
  let d := idDeclared n.ident
  if 400 < f || 2 * d + 4 < f then some ((f + 1) / 2 - d) else none

/-- Time: delays, forwarding latencies and path latencies (Table 11.10). -/
def stepTime (l : List NodeTime) (a b : Nat × Nat) (w : Work) : Bool × Work :=
  let w := modR false (fun r => { r with lamE := a.1, lamW := a.2 }) w
  let w := if hasRingB w.variant then modR true (fun r => { r with lamE := b.1, lamW := b.2 }) w else w
  let w := each l (fun t w =>
    match (getR t.ringB w).byPos[t.pos - 1]? with
    | none => w
    | some x => if (getNode t.ringB x.1 w).pos != t.pos then w
      else modNode t.ringB x.1 (fun n =>
        let f := max t.fwdE t.fwdW
        { n with
          dlyE := t.dlyE, dlyW := t.dlyW, fwdE := t.fwdE, fwdW := t.fwdW, fwdPlan := f, fwdLast := f, fwdPeak := f }) w) w
  let slow := (ringsUsed w).flatMap (fun b => (getR b w).nodes.filterMap (fun kv =>
    if kv.2.pos == 0 then none else (nodeSlow kv.2).map (fun g => (b, kv.1, g))))
  (slow.isEmpty, each slow (fun x w => logEvent (ringBlk x.1) x.2.1 12 x.2.2 w) w)

/-- Scan: eye results to the ledger; the entries of a controller receiver are those of its presets in order (log 80). -/
def stepScan (l : List (Bool × Nat × Bool × Word × Word)) (w : Work) : Work :=
  let hv := fun (v : Word) => (fld v 16 8, fld v 8 8)
  let w := each (l.filter (fun x => x.2.1 != 0)) (fun x w =>
    match (getR x.1 w).byPos[x.2.1 - 1]? with
    | some n => modNode x.1 n.1 (fun y => if x.2.2.1 then { y with eye1 := hv x.2.2.2.1 } else { y with eye0 := hv x.2.2.2.1 }) w
    | none => w) w
  each (ringsUsed w) (fun b w => each [false, true] (fun p w =>
    let mine := (l.filter (fun x => x.1 == b && x.2.1 == 0 && x.2.2.1 == p)).map (fun x => hv x.2.2.2.1)
    let k := 2 * ringKey b + (if p then 1 else 0)
    let use := (nth (0, 0, 0) w.d.age.eyes k).2.2
    let now := nth (0, 0) mine use
    if mine.isEmpty then w
    else { w with
      d.age.presets := w.d.age.presets.set k (mine.map (fun x => x.1))
      d.age.eyes := w.d.age.eyes.set k (now.1, now.2, use) }) w) w

/-- The work of a step; true where it passed, none where the result is of another step. -/
def stepWork (k : Nat) (r : StepResult) (w : Work) : Option (Bool × Work) :=
  match k, r with
  | 0, .enumerate a b =>
    let cnt := fun (x : Bool) => if x then b else a
    let open_ := (ringsUsed w).filter (fun x => (cnt x).isNone)
    let w := each (ringsUsed w) (fun x w => modR x (fun y => { y with found := (cnt x).getD 0 }) w) w
    some (open_.isEmpty, each open_ (fun x w =>
      logEvent (ringBlk x) 0 9 0 (modR x (fun y => { y with openSeen := true }) w)) w)
  | 1, .identify recs => some (stepIdentify recs w)
  | 2, .time l a b => some (stepTime l a b w)
  | 3, .configure ok => some (ok, w)
  | 4, .scan l => some (true, stepScan l w)
  | _, _ => none

/-- The last step has passed: PLAN, and the STATE_REQUEST(DISCOVER) completes (spec/03 Table 3.4). -/
def discovered (w : Work) : Work :=
  let c := w.d.trl.discCmd
  let w := plan { w with d.trl.step := none, d.trl.discCmd := none }
  match c with | some c => report c { status := stOK } w | none => w

/-- DISCOVER_STEP (R379). -/
def discStep (r : StepResult) (w : Work) : Work :=
  if w.d.sys.st != .discover || !w.d.trl.builtIn || w.d.trl.waiting || !w.d.sys.cycOn then w
  else
    match w.d.trl.step with
    | none => w
    | some k =>
      match stepWork k r w with
      | none => w
      | some (false, w) => { w with d.trl.waiting := true }
      | some (true, w) => if k == 4 then discovered w else { w with d.trl.step := some (k + 1) }

/-- DISCOVER_RETRY: the failed step is repeated. -/
def discRetry (w : Work) : Work := if w.d.sys.st == .discover then { w with d.trl.waiting := false } else w

/-- PLAN_REPROPOSE (R381). -/
def planAgain (w : Work) : Work :=
  if w.d.sys.st == .plan && w.d.trl.planOk && w.d.trl.prop.isNone then proposeCommission w else w

/-- The proposal of STATE_REQUEST(RUN) or (COMMISSION) with L = 8 (R363). -/
def proposeState (m : Nat) (t : DevState) (c : CmdRef) (w : Work) : Work :=
  propose { mode := m, n := nccPlus 8 w, cmd := c, target := some t } { w with d.sys.trans := true }

/-- A RUN request that waits is proposed once the mode 0 slot entries are written and nothing else is pending (R362, R363). -/
def runDelayed (w : Work) : Work :=
  match w.d.trl.runWait with
  | some c => if w.d.trl.slots0 && w.d.sys.st == .commission && w.d.trl.prop.isNone && w.d.trl.heal.isNone then
      proposeState 0 .run c { w with d.trl.runWait := none } else w
  | none => w

/-- SLOT_ENTRIES_WRITTEN (R362). -/
def slotsWritten (w : Work) : Work :=
  if w.d.sys.st != .commission then w else runDelayed { w with d.trl.slots0 := true }

/-! Domains (spec/18 R554 to R557). -/

/-- NCC starts again from zero: what waits for a coming cycle waits for as many cycles as before (spec/02 R44, log 135). -/
def nccRestart (w : Work) : Work :=
  let n := w.d.phase.ncc
  let k := n.toNat
  { w with
    d.phase.ncc := 0, d.phase.vmDirect := w.d.phase.vmDirect.map (fun e => (e.1 - n, e.2))
    d.cmd.effects := w.d.cmd.effects.map (fun e => match e.time with | .at t => { e with time := .at (t - n) } | _ => e)
    d.cmd.acyc := w.d.cmd.acyc.filterMap (fun x => if x.2.1 < k then none else some (x.1, x.2.1 - k, x.2.2))
    d.stp.staged := w.d.stp.staged.map (fun x => (x.1, x.2.1, x.2.2 - n)) }

/-- The cycle timer starts at this instant, which is sync point S0: NCC and the virtual master are zero, and so is the phase
where the virtual master is its source (spec/02 R49). -/
def domainLock (w : Work) : Work :=
  let w := nccRestart (startTimer w)
  let f := w.d.phase
  { w with
    d.sys.domain := true, d.boot.domWait := false, d.hvs.s0 := some 0, d.hvs.domOn := false, d.ptm.sncc := 0
    d.ptm.spt := plantTime w.d.ptm w.d.ptm.frc
    d.phase := if f.src.kind == 0 then
        { f with
          vm := 0, mph := 0, mphm := 0, mphmShown := 0, hist := [0], frcSync := w.d.ptm.frc, lastUnits := 0, sampled := true }
      else { f with vm := 0, frcSync := w.d.ptm.frc, lastUnits := 0, sampled := true } }

/-- DOMAIN_START: the master's timer starts and it drives DCLK. -/
def domainStart (w : Work) : Work :=
  if w.d.sys.st == .discover && w.d.boot.domEn && w.d.hvs.didx == 0 && !w.d.sys.cycOn then send .dclk (domainLock w) else w

/-- DCLK_RISING_EDGE: it starts a waiting station where DCLK was low for 1 ms before (R555, R556). -/
def dclkEdge (w : Work) : Work :=
  let go := w.d.boot.domWait && domFollower w && dclkQuiet w
  let w := { w with d.boot.dclkAt := some w.d.ptm.frc }
  when_ go domainLock w

/-- DCLK_LOSS (R557). -/
def dclkLoss (w : Work) : Work :=
  if domFollower w && w.d.sys.domain then
    logEvent .clk 0 2 0 { w with d.sys.domain := false, d.hvs.calOk := false, d.boot.domLoss := true }
  else w

/-! The guard check of every second (spec/19 R588 to R591). -/

/-- Guards with one ring's raised. -/
def guardsWith (b : Bool) (g : Nat) (w : Work) (x : Bool) : Nat :=
  if x == b then g else if x then w.d.age.guardB else w.d.age.guardA

/-- The mode recommended to a ring that asks for a guard of g ns (R591). -/
def recommend (b : Bool) (g : Nat) (w : Work) : Option Nat :=
  [0, 6, 7].find? (fun m =>
    let r := modeRec m w
    r.valid && r.hsrc && decide (r.rate < w.d.sys.rate)
      && (match schedOf m (guardsWith b (gUnits g) w) (imageOf w) with
        | some c => (schedFails c true (fun x => if x == b then g else 0) w).isNone
        | none => false))

/-- The revised guard of a ring at the end of a second; none where its guard suffices or is exhausted. -/
def guardRing (b : Bool) (w : Work) : Option Nat × Work :=
  let g := gReq (if b then w.d.age.eSecB else w.d.age.eSecA)
  let have_ := if b then w.d.age.guardB else w.d.age.guardA
  let q := min 255 (cdiv g 4)
  let w := if b then { w with d.age.eSecB := 0, d.age.reqB := q } else { w with d.age.eSecA := 0, d.age.reqA := q }
  if g ≤ 4 * have_ then (none, w)
  else
    let fits := match schedOf w.d.sys.mode (guardsWith b (gUnits g) w) (imageOf w) with
      | some c => (schedFails c (modeRec c.mode w).hsrc (fun x => if x == b then g else 0) w).isNone
      | none => false
    if decide (g ≤ 508) && fits then (some (gUnits g), w)
    else
      let once := if b then w.d.age.exhRunB else w.d.age.exhRunA
      let m := recommend b g w
      let w := { w with d.age.recMode := m.getD 0, d.age.recNone := m.isNone }
      let w := if b then { w with d.age.exhB := true, d.age.exhRunB := true }
        else { w with d.age.exhA := true, d.age.exhRunA := true }
      (none, when_ (!once) (fun w => irq 18 (logEvent .age (ringKey b) 4 (putB 3 m.isNone + put 0 3 (m.getD 0)) w)) w)

/-- Propose a guard revision of the mode in force, or keep it for REVISION_REPROPOSE (R589, log 84). -/
def proposeGuards (g : Nat × Nat) (w : Work) : Work :=
  if w.d.trl.prop.isSome || w.d.trl.heal.isSome then { w with d.age.retry := some g }
  else propose { mode := w.d.sys.mode, n := nccPlus 8 w, revision := some g } { w with d.age.retry := none }

/-- A mode of the image is in force and the unit sends it. -/
def modeRuns (w : Work) : Bool := w.d.sys.cycOn && !w.d.trl.builtIn && w.d.sys.role != .standby && (modeRec w.d.sys.mode w).valid

/-- GUARD_CHECK. -/
def guardCheck (w : Work) : Work :=
  if !modeRuns w then w
  else
    let (a, w) := if ringUsed false w then guardRing false w else (none, w)
    let (b, w) := if ringUsed true w then guardRing true w else (none, w)
    if a.isNone && b.isNone then w
    else proposeGuards (a.getD w.d.age.guardA, b.getD w.d.age.guardB) w

/-- REVISION_REPROPOSE: an aborted revision is proposed again, unless the mode in force has changed (R589, R590). -/
def reviseAgain (w : Work) : Work :=
  match w.d.age.retry with
  | some g => if modeRuns w then proposeGuards g w else w
  | none => w

/-- DISCOVER_LISTEN_END (R377). -/
def execDiscoverListenEnd (u : Option (Fin 16)) (s : State) : Host.Outcome State Fault Refusal := run (listenEnd u) s

/-- DISCOVER_STEP (R379). -/
def execDiscoverStep (r : StepResult) (s : State) : Host.Outcome State Fault Refusal := run (discStep r) s

/-- DISCOVER_RETRY (R379). -/
def execDiscoverRetry (s : State) : Host.Outcome State Fault Refusal := run discRetry s

/-- PLAN_REPROPOSE (R381). -/
def execPlanRepropose (s : State) : Host.Outcome State Fault Refusal := run planAgain s

/-- SLOT_ENTRIES_WRITTEN (R362). -/
def execSlotEntriesWritten (s : State) : Host.Outcome State Fault Refusal := run slotsWritten s

/-- DOMAIN_START (spec/18 R554). -/
def execDomainStart (s : State) : Host.Outcome State Fault Refusal := run domainStart s

/-- DCLK_RISING_EDGE (spec/18 R555). -/
def execDclkRisingEdge (s : State) : Host.Outcome State Fault Refusal := run dclkEdge s

/-- DCLK_LOSS (spec/18 R557). -/
def execDclkLoss (s : State) : Host.Outcome State Fault Refusal := run dclkLoss s

/-- GUARD_CHECK (spec/19 R588). -/
def execGuardCheck (s : State) : Host.Outcome State Fault Refusal := run guardCheck s

/-- REVISION_REPROPOSE (spec/19 R589). -/
def execReviseAgain (s : State) : Host.Outcome State Fault Refusal := run reviseAgain s

end Sys2Proof.Machine
end

