-- ==== Sys2Proof/Machine/Admission.lean ====
section
/-! DEFINITION. The admission of single commands: packets and back-pressure, the four resources of spec/04 R102 to R114, the
commands that complete in the cycle of their admission, and those accepted for a later effect (spec/03 R61 to R67, Tables
3.3 and 3.4, spec/04 R97 to R114). -/

namespace Sys2Proof.Machine

/-! Packets. -/

/-- The header, parameter words and phase of a packet; the phase word is not a parameter here. -/
def pHdr (p : Packet) : Word := nth 0 p.words 0
def pOp (p : Packet) : Nat := hOpcode (pHdr p)
def pAll (p : Packet) : List Word := ((p.words.drop 1) ++ List.replicate 64 0).take (hLen (pHdr p))
def pPhased (p : Packet) : Bool := hPhased (pHdr p)
def pPhase (p : Packet) : Word := if pPhased p then nth 0 (pAll p) 0 else 0
def pPs (p : Packet) : List Word := if pPhased p then (pAll p).drop 1 else pAll p
def pRef (p : Packet) : CmdRef := { id := p.id, q := p.q, entry := p.entry, hdr := pHdr p }

/-! Back-pressure (spec/03 R63, spec/04 R115, R133). -/

/-- The words of the entry at HEAD, where they are at hand (spec/03 R58). -/
def headWords (q : Nat) (w : Work) : Option (List Word) :=
  let x := getQ q w
  if x.loc then x.fetched else some (rds (x.baseL % 2 ^ 23 + 64 * (x.head % 256)) 64 w)

/-- Task priority of a packet's admission job (spec/03 R68, spec/12 R403). -/
def pktLevel (h : Word) : Nat := if hUrgent h then 7 else if stopClass (hOpcode h) then 6 else 5

/-- Three committed bundles of a queue have not reached C (spec/04 R115). -/
def commitsFull (q : Nat) (w : Work) : Bool := decide (3 ≤ cnt (fun b => b.q == q && committed b) w.d.cmd.bundles)

/-- The task dispatcher refuses new admission work: a level of it is full (spec/12 R403, R407, log 139). -/
def tduBusy (w : Work) : Bool := [5, 6, 7].any (fun n => tduFull n w)

/-- No queue's HEAD advances (R63). -/
def headsHeld (w : Work) : Bool := decide (64 ≤ w.d.cmd.dispatch.length) || tduBusy w

/-- A packet with this header is not dequeued now (R63, R115). -/
def heldBack (q : Nat) (h : Word) (w : Work) : Bool := headsHeld w || (hOpcode h == 0x140 && commitsFull q w)

/-- The queue's next command waits for a journal entry (spec/04 R133). -/
def journalWaits (q : Nat) (w : Work) : Bool := w.d.cmd.dispatch.any (fun p => p.q == q) && jFull q w

/-- CMDq_STAT.BP as the present state gives it. -/
def bpNow (q : Nat) (w : Work) : Bool :=
  let x := getQ q w
  (x.en && queueFill x != 0 && headsHeld w) || (x.en && commitsFull q w) || journalWaits q w

/-- BP of every queue, CMD_JSTAT.JWAIT and interrupt source 7 follow the present state. -/
def bpRefresh (w : Work) : Work :=
  let w := each (List.range 5) (fun q w => if (getQ q w).bp == bpNow q w then w else modQ q (fun x => { x with bp := bpNow q w }) w) w
  irqQueueStat { w with d.cmd.jWait := (List.range 5).any (fun q => journalWaits q w) }

/-! When a command takes effect (spec/03 Table 3.3, R78, R80, spec/04 Table 4.1). -/

/-- First slow-group start an immediate slow-class command may take, a pending proposal counted in (R78, spec/11 R364). -/
def slowFirst (w : Work) : Word :=
  wd (((List.range 17).map (fun i => (slowBound w).toNat + i)).find? (fun k => slowStart k w)
    |>.getD (slowBound w).toNat)

/-- The bound of an immediate command admitted in the present cycle. -/
def boundOf (op : Nat) (ps : List Word) (w : Work) : Word :=
  if slowOp op ps then slowFirst w
  else if op == 0x180 then
    (match cmdCls ps with
     | some .b => nccPlus 3 w
     | some .c => nccPlus 4 w
     | _ => nccPlus 2 w)
  else nccPlus 2 w

/-- The largest I/O divider of the nodes an IO_WRITE names (spec/01 R23). -/
def carriedOf (op : Nat) (ps : List Word) (w : Work) : Nat :=
  ((opPoints op ps).map (fun p => match pointOf p w with | some (n, _) => n.ioDiv | none => 1)).foldl max 0

/-- Latest slow-group start whose decision cycle is at or before the present cycle (spec/04 R111). -/
def slowLast (w : Work) : Nat :=
  (((List.range 65).map (fun i => nccN w + 9 - i)).find? (fun k => slowStart k w && slowDecided k w)).getD 0

/-- MPHS of such a start (R111). -/
def mphsAt (k : Nat) (w : Work) : Word :=
  let f := w.d.phase
  if phIsVm w then
    if nccN w ≤ k then vmAhead (k - nccN w) w else nth f.mph f.hist (nccN w - k)
  else
    let n := slowAt k w + 1
    let j := nccN w + n - k
    if f.sampled then extrapolate (f.hist.drop j) n
    else if j = 0 then extrapolate f.hist (n + 1) else extrapolate (f.hist.drop (j - 1)) n

/-- The earliest effect lies ahead of the phase (R110, R111). -/
def phaseAhead (slow : Bool) (p : Word) (w : Work) : Bool :=
  if slow then !atOrPast (mphsAt (slowLast w) w) p else !atOrPast (mphAhead 2 w) p

/-- The phase speed per cycle that predictions use: of the virtual master what its rate gives, else M(k) - M(k-1). -/
def phaseSpeed (w : Work) : Int :=
  if phIsVm w then (vmRateInto 3 w).toInt * (unitsInto 3 w : Int)
  else match w.d.phase.hist with | a :: b :: _ => modDiff a b | _ => 0

/-- Cycle in which a phased command is predicted to take effect (R113); none when the phase stands or runs back. -/
def predictAt (slow : Bool) (p : Word) (w : Work) : Option Word :=
  let v := phaseSpeed w
  if v ≤ 0 then none
  else
    let d := modDiff p (mphAhead 2 w)
    let j := nccN w + 2 + (if 0 < d then cdiv d.toNat v.toNat else 0)
    if slow then
      let k := max j (slowLast w + 1)
      some (wd (((List.range 65).map (fun i => k + i)).find? (fun x => slowStart x w) |>.getD k))
    else some (wd (max j (nccN w + 3)))

/-! Planner and generator capacity (spec/04 R104 to R106, spec/08 R270). -/

/-- A class-B write to an axis with a move in flight, which is re-planned in the cycle after its admission (Table 4.2). -/
def replanUnits (op : Nat) (ps : List Word) (w : Work) : Nat :=
  if op == 0x180 && objKind (prm ps 1) == 1 && cmdCls ps == some .b && moveInFlight (objIndex (prm ps 1)) w then 1 else 0

/-- What bundles being staged still need of the general shares: planner units and stepper plans. -/
def stageDemand (w : Work) : Nat × Nat :=
  let l := w.d.cmd.bundles.filter (fun b => b.state == .staging)
  ((l.map (fun b => b.unitsLeft + (b.redo.map (fun x => x.2)).sum)).sum, (l.map (fun b => b.plansLeft)).sum)

/-- Room in the general shares for an immediate command, bundle staging first (R104, R105, R270; log 136). -/
def generalRoom (op : Nat) (ps : List Word) (w : Work) : Bool :=
  let (u, p) := stageDemand w
  let k := replanUnits op ps w
  let m := stepperPlans op ps
  decide (w.d.cmd.genNow + plannerUnits op ps ≤ 8) && (k == 0 || decide (min 8 u + w.d.cmd.genNext + k ≤ 8))
    && (m == 0 || decide (min 32 p + w.d.stp.genNow + m ≤ 32))

/-- Two immediate commands need a common general share. -/
def sameShare (a b : Packet) (w : Work) : Bool :=
  let need := fun (p : Packet) => (plannerUnits (pOp p) (pPs p) != 0, replanUnits (pOp p) (pPs p) w != 0, stepperPlans (pOp p) (pPs p) != 0)
  let (x, y) := (need a, need b)
  (x.1 && y.1) || (x.2.1 && y.2.1) || (x.2.2 && y.2.2)

/-- An immediate command dequeued before this one waits for the same share, which goes in order of dequeue (R104). -/
def behind (p : Packet) (w : Work) : Bool :=
  (w.d.cmd.dispatch.takeWhile (fun x => x.id != p.id)).any (fun x =>
    x.checked && !hInBundle (pHdr x) && !pPhased x && sameShare x p w
      && !(w.d.egv.rebuild && [0x042, 0x043, 0x044, 0x045].contains (pOp x)))

/-- The general shares an immediate command takes. -/
def takeGeneral (op : Nat) (ps : List Word) (w : Work) : Work :=
  { w with
    d.cmd.genNow := w.d.cmd.genNow + plannerUnits op ps, d.cmd.genNext := w.d.cmd.genNext + replanUnits op ps w
    d.stp.genNow := w.d.stp.genNow + stepperPlans op ps }

/-- Units of admitted phased commands, not yet in effect, within a distance of p (R106); slow counts stepper plans. -/
def clusterUnits (slow : Bool) (dist : Nat) (p : Word) (w : Work) : Nat :=
  let near := fun (t : Word) => decide (|modDiff t p| ≤ (dist : Int))
  let one := fun (e : Effect) => if slow then effPlans e else effUnits e
  ((w.d.cmd.effects.filter (fun e => e.phased && near e.target)).map one).sum
    + ((w.d.cmd.bundles.filter (fun (b : Bundle) => committed b && near b.phase)).map (fun b => (b.members.map one).sum)).sum

/-- R106 lets units of planner and plans of the generators in at p. -/
def clusterRoom (units plans : Nat) (p : Word) (w : Work) : Bool :=
  (units == 0 || decide (clusterUnits false w.d.cmd.phMax p w + units ≤ 8))
    && (plans == 0 || decide (clusterUnits true (slowS w * w.d.cmd.phMax) p w + plans ≤ 32))

/-! Ring slot capacity (spec/04 R109, spec/03 R651). -/

/-- ACYC bytes of path W of a ring in cycle c, by the mode in force. -/
def acycCap (b : Bool) (c : Nat) (w : Work) : Nat :=
  (((modeEntries w.d.sys.mode w).filter (fun e =>
    e0Valid e.1 && e0Class e.1 == 5 && e0Ring e.1 == b && e0Path e.1 && (e0Every e.1 || e0Sub e.1 == c % slowS w))).map
      (fun e => 9 * e1Pairs e.2)).sum

/-- Bytes of ring b already reserved in a cycle. -/
def acycTaken (b : Bool) (c : Nat) (w : Work) : Nat :=
  ((w.d.cmd.acyc.filter (fun x => x.1 == b && x.2.1 == c)).map (fun x => x.2.2)).sum

/-- Bytes free in a cycle. -/
def acycFree (b : Bool) (c : Nat) (w : Work) : Nat := acycCap b c w - acycTaken b c w

/-- Bytes of a node transfer of n words: request and reply share its words. -/
def acycBytes (n : Nat) : Nat := 9 * (1 + cdiv n 2)

/-- Reserve bytes in consecutive cycles from c on. -/
def acycReserve (b : Bool) : Nat → Nat → Nat → Work → Work
  | 0, _, _, w => w
  | f + 1, c, n, w =>
    let k := min n (acycFree b c w)
    let w := if k = 0 then w else { w with d.cmd.acyc := w.d.cmd.acyc ++ [(b, c, k)] }
    if n ≤ k then w else acycReserve b f (c + 1) (n - k) w

/-- What n bytes find in the cycles from the present one: more than they hold at all, no room now, or room. -/
inductive AcycRoom where
  | never | later | fits
deriving DecidableEq, Repr

/-- Room for n bytes on ring b in the present cycle and the k - 1 after it (R109). -/
def acycRoom (b : Bool) (k n : Nat) (w : Work) : AcycRoom :=
  let cs := (List.range k).map (fun i => nccN w + i)
  if (cs.map (fun c => acycCap b c w)).sum < n then .never
  else if (cs.map (fun c => acycFree b c w)).sum < n then .later else .fits

/-! Energy placement (spec/04 R112, R113, spec/12 R384 to R396). -/

/-- A move of servo axes, which carries a power curve (spec/12 R384). -/
def servoMove (op : Nat) : Bool := [0x042, 0x043, 0x044, 0x045].contains op

/-- Slack in network cycles (spec/04 R100). -/
def slackCycles (op : Nat) (ps : List Word) (w : Work) : Nat :=
  match slackWord op ps with
  | some k => (prm ps k).toNat * 64 / (1000 * unitsOf w.d.sys.rate)
  | none => 0

/-- A move that carries a curve of its own where it takes effect; one superposed on gearing carries none (spec/05 R178). -/
def curvedMove (op : Nat) (ps : List Word) (h : Horizon) (w : Work) : Bool :=
  servoMove op && !(op == 0x043 && (simServo (fld (prm ps 1) 0 10) h w).geared)

/-- The summed power curve of moves that start together at c (spec/05 R177, spec/12 R391). -/
def curveAt (moves : List (Nat × List Word)) (c : Word) (w : Work) : Curve :=
  let axes := moves.flatMap (fun m => opServos m.1 m.2 w)
  let x := each moves (fun m => fxServo m.1 m.2) (plansAt axes c w)
  curveSum (axes.map (fun a =>
    let y := getPln a x
    match (if carriesCurve a x then y.prof else none) with
    | some f => let (bins, tail, len) := curveOf y f; ([a], bins, tail, len)
    | none => ([a], [], 0, some 0)))

/-- The placement of moves at e within dmax cycles: the delay and the curve's identity, or the DETAIL. With the governor
off it is entered unchecked (R112, R113, R394). -/
def placeMoves (moves : List (Nat × List Word)) (e : Option Word) (dmax : Nat) (w : Work) : Nat ⊕ (Nat × Option Nat × Work) :=
  if moves.isEmpty then .inr (0, none, w)
  else match e with
    | none => if w.d.egv.on then .inl 0x13 else .inr (0, none, w)
    | some c =>
      let cv := curveAt moves c w
      if w.d.egv.on then
        match egvPlace cv c dmax w with
        | .inr det => .inl det
        | .inl d => let (id, w) := egvKeep cv (instantOf (c + wd d) w) w; .inr (d, some id, w)
      else let (id, w) := egvAdd cv (instantOf c w) w; .inr (0, some id, egvChanged false w)

/-! Outcomes. -/

/-- What an admission comes to: the packet waits, it is refused, or it is taken. -/
inductive Verdict where
  | wait
  | refuse (st det : Nat)
  | take (w : Work)

/-- ACCEPTED in the present cycle. -/
def accept (p : Packet) (eff : Option Word) (delay : Nat) (w : Work) : Work :=
  report (pRef p) { status := stAccepted, delay := some delay, acc := some w.d.phase.ncc, eff := eff } w

/-- The parameter words an effect keeps: with HARVEST_ARM the descriptor, with TBL_RELOAD the page, as admission copies
them (spec/15 R487, spec/08 R267). -/
def keptWords (p : Packet) (w : Work) : List Word :=
  let ps := pPs p
  match pOp p with
  | 0x1C0 => ps ++ descOf (prm ps 1).toNat w
  | 0x180 => if objKind (prm ps 1) == 0 && prm ps 2 == 0x300 then
      ps ++ rds (w.d.stp.tblBase + 256 * fld (prm ps 3) 0 2) 256 w else ps
  | _ => ps

/-- The effect of an admitted command, its time still to be set. -/
def effectOf (p : Packet) (w : Work) : Effect :=
  let op := pOp p
  let ps := pPs p
  { cmd := pRef p, op := op, ps := keptWords p w, slow := slowOp op ps, target := pPhase p, phased := pPhased p
    units := if slowOp op ps then stepperPlans op ps else plannerUnits op ps + replanUnits op ps w
    carried := carriedOf op ps w, adm := freshAdm w }

/-! Commands that complete in the cycle of their admission, or are carried out by another unit's protocol. -/

/-- STATE_REQUEST (spec/03 Table 3.4). -/
def admitState (p : Packet) (w : Work) : Verdict :=
  let c := pRef p
  match stOf (prm (pPs p) 1).toNat with
  | some .config => .take (finishOk c [] (enterConfig w))
  | some .test => .take (finishOk c [] (setState .test w))
  | some .discover => .take (enterDiscover c (accept p none 0 w))
  | some .run =>
    if !allAck w || w.d.sys.role == .standby then .refuse stLate 0x05
    else if !(modeRec 0 w).valid then .refuse stBadParam 1
    else if w.d.trl.slots0 then .take (proposeState 0 .run c (accept p (some (nccPlus 8 w)) 0 { w with d.sys.trans := true }))
    else .take (accept p none 0 { w with d.sys.trans := true, d.trl.runWait := some c })
  | some .commission =>
    if w.d.sys.role == .standby then .refuse stLate 0x05
    else .take (proposeState 5 .commission c (accept p (some (nccPlus 8 w)) 0 w))
  | _ => .refuse stRefused (stCode w.d.sys.st)

/-- MODE_SWITCH (spec/11 R363, R364). -/
def admitMode (p : Packet) (w : Work) : Verdict :=
  let m := (prm (pPs p) 1).toNat
  let n := w.d.phase.ncc + prm (pPs p) 2
  let s := 2 ^ (modeRec m w).slowl
  let off := slowS w < s && (timedEffects w).any (fun e => e.slow && (match e.time with
    | .at t => decide (0 ≤ modDiff t n) && t.toNat % s != 0
    | _ => false))
  if off then .refuse stLate 0x05
  else .take (propose { mode := m, n := n, cmd := pRef p } (accept p (some n) 0 w))

/-- PT_ADJUST (spec/20 R604). -/
def ptAdjust (p : Packet) (w : Work) : Work :=
  let t := w.d.ptm
  let now := t.frc
  let ofs := plantTime t now + BitVec.ofInt 64 (ptIncrement (pPs p))
  finishOk (pRef p) [wd (now.toNat / 2 ^ 36), wd now.toNat]
    { w with d.ptm := { t with ofs := ofs, frcB := now, rate := prm (pPs p) 3, set := true } }

/-- PARAM_READ from the device's own copies. -/
def paramRead (p : Packet) (w : Work) : Work :=
  let o := prm (pPs p) 1
  let (l, w) := each (coveredNums 0x181 (pPs p)) (fun n (acc : List Word × Work) =>
    let (v, w) := paramValue o n acc.2; (acc.1 ++ [v], w)) ([], w)
  finishOk (pRef p) l w

/-- LEDGER_READ (spec/19 R592). -/
def ledgerRead (p : Packet) (w : Work) : Work :=
  let l := ageReadWords w
  let n := min l.length (prm (pPs p) 2).toNat
  finishOk (pRef p) [wd n, wd l.length] (wrs (prm (pPs p) 1).toNat (l.take n) w)

/-- JOURNAL_READ (spec/04 R134): the latest entry of that queue and SEQ. -/
def journalRead (p : Packet) (w : Work) : Work :=
  let hit := (w.d.cmd.journal.filter (fun j =>
    j.q == (prm (pPs p) 1).toNat && j.seq == (prm (pPs p) 2).toNat)).getLast?
  finishOk (pRef p) (match hit with | some j => jWords j | none => []) w

/-- BRAKE_TEST_REQ (spec/14 R470, Table 14.11). -/
def brakeRequest (p : Packet) (w : Work) : Work :=
  let v := prm (pPs p) 1
  let a := if bit v 8 then fld v 0 8 else (axisOfPair (fld v 0 3) w).getD 0
  mbxPut 2 15 [wd (2 * 2 ^ 32), v] (accept p none 0 { w with d.hdg.btCmd := some (pRef p, a) })

/-- The values the device itself gives for the numbers a PARAM_READ covers: none for the node's own (R651, R652). -/
def ownValues (o : Word) (nums : List Nat) (w : Work) : List (Option Word) :=
  nums.map (fun n => if paramCls (objKind o) (objIndex o) n == some .n then none else some (paramValue o n w).1)

/-- A class-N command (spec/03 R651): one transfer over the node's numbers it covers, from the first to the last of them. -/
def admitNode (p : Packet) (w : Work) : Verdict :=
  let ps := pPs p
  let read := pOp p == 0x181
  let (b, id) := objNode (prm ps 1)
  let own := if read then ownValues (prm ps 1) (coveredNums 0x181 ps) w else []
  let skip := own.idxOf none
  let addr := (prm ps 2).toNat + (if read then skip else 0)
  let n := if read then own.length - skip - own.reverse.idxOf none else ps.length - 2
  match acycRoom b 8 (acycBytes n) w with
  | .never => .refuse stLate 0x02
  | .later => .wait
  | .fits =>
    let vs := if read then [] else ps.drop 2
    let x : NodeXfer := {
      cmd := pRef p, read := read, own := own, ringB := b, node := id, addr := addr, values := vs, count := n }
    let t : AXfer := {
      kind := .param p.id, pathW := true, dst := id, svc := if read then 0 else 1, arg := wd addr, words := vs, rwords := n }
    let w := acycReserve b 8 (nccN w) (acycBytes n) (accept p none 0 w)
    .take (modR b (fun r => { r with acyc := r.acyc ++ [t] }) { w with d.cmd.xfers := w.d.cmd.xfers ++ [x] })

/-- BUNDLE_OPEN (spec/04 R115). DESIGN CHOICE (log 140): while the queue's bundle is open or doomed it completes with BAD_PARAM,
DETAIL 0. -/
def bundleOpen (p : Packet) (w : Work) : Verdict :=
  if (openBundle p.q w).isSome then .refuse stBadParam 0
  else if commitsFull p.q w then .wait
  else
    let b : Bundle := { id := w.d.cmd.nextBundle, q := p.q, expected := (prm (pPs p) 1).toNat }
    .take (finishOk (pRef p) [] { w with d.cmd.bundles := w.d.cmd.bundles ++ [b], d.cmd.nextBundle := b.id + 1 })

/-- BUNDLE_ABORT (spec/04 R128). -/
def bundleAbort (p : Packet) (w : Work) : Work :=
  let w := match openBundle p.q w with
    | some b => removeBundle b.id (failMembers b 0x03 w)
    | none => each (w.d.cmd.bundles.filter (fun b => b.q == p.q && b.state == .staging)) (fun b => abortCommitted b 0x03) w
  finishOk (pRef p) [] w

/-- Commands that need no resource of spec/04: none for the others. -/
def admitAtOnce (p : Packet) (w : Work) : Option Verdict :=
  let ps := pPs p
  let c := pRef p
  match pOp p with
  | 0x000 => some (.take (finishOk c [] w))
  | 0x001 => some (admitState p w)
  | 0x002 => some (admitMode p w)
  | 0x003 => some (.take (ptAdjust p w))
  | 0x101 => some (.take (finishOk c (ps.map (fun v => match pointOf v.toNat w with
      | some (n, q) => pointRead n q w | none => 0)) w))
  | 0x140 => some (bundleOpen p w)
  | 0x142 => some (.take (bundleAbort p w))
  | 0x180 =>
    if nodeCmd 0x180 ps then some (admitNode p w)
    else if cmdCls ps == some .d then
      let page := objKind (prm ps 1) == 1 && decide (0x200 ≤ (prm ps 2).toNat)
      some (.take (finishOk c [] (if page then fxPage (objIndex (prm ps 1)) .d (paramPairs ps) w
        else fxParam { op := 0x180, ps := ps } w)))
    else none
  | 0x181 => if nodeCmd 0x181 ps then some (admitNode p w) else some (.take (paramRead p w))
  | 0x1C2 =>
    let s := (prm ps 1).toNat
    let sig := (prm ps 2).toNat
    some (.take (finishOk c [] (maskLoad s sig (prm ps 3).toNat (prm ps 4).toNat ((maskSlot s sig w).getD 0) w)))
  | 0x200 => some (.take (brakeRequest p w))
  | 0x201 => some (.take (finishOk c ((List.range 8).map (fun k => hdgRead k w)) w))
  | 0x240 => some (.take (ledgerRead p w))
  | 0x241 => some (.take (journalRead p w))
  | _ => none

/-! Commands with a later effect. -/

/-- An admitted PARAM_WRITE of VM_RATE governs from the advance into its effect (spec/02 R44). -/
def rateFrom (e : Effect) (c : Word) (w : Work) : Work := match vmRateOf e with | some v => vmPush c v w | none => w

/-- Take an immediate command for the effect c, its curve placed (spec/04 R97, R124). -/
def takeImmediate (p : Packet) (c : Word) (d : Nat) (cv : Option Nat) (w : Work) : Work :=
  let e := { effectOf p w with delay := d, curve := cv }
  let t := placedAt e (c + wd d) w
  let e := { e with time := .at t }
  rateFrom e t (restage none t e.op e.ps (addEffect e (accept p (some (effNcc e t w)) d w)))

/-- Take a phased command. -/
def takePhased (p : Packet) (cv : Option Nat) (w : Work) : Work :=
  addEffect { effectOf p w with time := .phase (pPhase p), curve := cv } (accept p none 0 w)

/-- A stop command: no reservation; a phase already past takes the bound (R77). -/
def admitStop (p : Packet) (w : Work) : Verdict :=
  if pPhased p && phaseAhead (slowOp (pOp p) (pPs p)) (pPhase p) w then .take (takePhased p none w)
  else .take (takeImmediate p (boundOf (pOp p) (pPs p) w) 0 none w)

/-- GEAR_RATIO_AT waits for its master position (spec/05 R172). -/
def ratioSigma (ps : List Word) (w : Work) : Int :=
  match slaveMaster (prm ps 1) w with
  | some m => (modDiff (prm ps 2) (masterNext m w)).sign
  | none => 0

/-- GEAR_RATIO_AT: its effect keeps the direction after the parameters. -/
def admitRatio (p : Packet) (w : Work) : Verdict :=
  let s := ratioSigma (pPs p) w
  if s == 0 then .refuse stLate 0x03
  else
    let e := effectOf p w
    .take (addEffect { e with time := .master (prm (pPs p) 2), ps := e.ps ++ [wdI s] } (accept p none 0 w))

/-- The descriptor check of HARVEST_ARM, its failure and the word HVS_STAT.DERR names (spec/15 R487). -/
def armCheck (p : Packet) (w : Work) : Option (Fail × Option Nat) :=
  if pOp p != 0x1C0 then none
  else
    let ps := pPs p
    let k := wordNo (if pPhased p then 1 else 0) 2
    match descCheck (prm ps 1).toNat (bit (prm ps 2) 0) (bit (prm ps 2) 1) (descOf (prm ps 1).toNat w) w with
    | some (_, true) => some ((stUnitAbsent, k), none)
    | some (x, false) => some ((stBadParam, k), some x)
    | none => none

/-- A phased command: deadline, planner capacity, energy (R110, R111, R106, R113). -/
def admitPhased (p : Packet) (w : Work) : Verdict :=
  let op := pOp p
  let ps := pPs p
  let slow := slowOp op ps
  if !phaseAhead slow (pPhase p) w then .refuse stLate 0x03
  else if !clusterRoom (plannerUnits op ps + replanUnits op ps w) (stepperPlans op ps) (pPhase p) w then .refuse stLate 0x01
  else
    match placeMoves (if curvedMove op ps (.phase (pPhase p)) w then [(op, ps)] else []) (predictAt slow (pPhase p) w) 0 w with
    | .inl det => .refuse stBudget det
    | .inr (_, cv, w) => .take (takePhased p cv w)

/-- An immediate command: planner capacity, energy (R102, R104, R112). -/
def admitImmediate (p : Packet) (w : Work) : Verdict :=
  let op := pOp p
  let ps := pPs p
  if !generalRoom op ps w || behind p w then .wait
  else
    let c := boundOf op ps w
    match placeMoves (if curvedMove op ps (.at c) w then [(op, ps)] else []) (some c) (slackCycles op ps w) w with
    | .inl det => .refuse stBudget det
    | .inr (d, cv, w) => .take (takeImmediate p c d cv (takeGeneral op ps w))

/-- The admission of a single command whose checks have passed (spec/04, the admission algorithm). -/
def admitSingle (p : Packet) (w : Work) : Verdict :=
  match admitAtOnce p w with
  | some v => v
  | none =>
    let op := pOp p
    if stopClass op then admitStop p w
    else if op == 0x081 then admitRatio p w
    else if servoMove op && w.d.egv.rebuild && (!pPhased p || phaseAhead false (pPhase p) w) then .wait
    else if pPhased p then admitPhased p w
    else admitImmediate p w

end Sys2Proof.Machine
end

