-- ==== Sys2Proof/Machine/GraftBase.lean ====
section
/-! DEFINITION. Graft redundancy, the part that goes with every network cycle: cover, the records of the graft set and of the
background stream, completeness of a standby, yielding, and the registers (spec/13 R414, R420 to R431, R436, R439, R441,
R443, R445). -/

namespace Sys2Proof.Machine

/-- The unit uses its graft link (spec/00 R2, Table 13.6). -/
def graftUsed (w : Work) : Bool := hasGraft w.variant && w.d.grf.en

/-- Its lanes run. -/
def graftRuns (w : Work) : Bool := graftUsed w && graftClk w && refRuns w && w.d.sys.cycOn

def laneUp (lane : Bool) (w : Work) : Bool := if lane then w.d.grf.lane1 else w.d.grf.lane0

/-- Lanes on which frames are counted: those that are up, or both while none is (R419, R432, log 92). -/
def laneCounts (lane : Bool) (w : Work) : Bool := laneUp lane w || (!w.d.grf.lane0 && !w.d.grf.lane1)

/-- A line of ring b is folded at the partner's position, as far as its loops are known: those of home lie beside the
position of the standby; an away unit knows none, and its lines come of the takeover (R436, R443). -/
def foldedAtPartner (b : Bool) (w : Work) : Bool :=
  let r := getR b w
  let p := r.standbyPos
  !w.d.grf.home || (p != 0 && (r.loopE == 0 || r.loopE + 1 == p) && (r.loopW == 0 || r.loopW == p + 1))

/-- A ring that counts as whole for the cover: no line, or one that is folded at a partner that is back as a standby and has not
yet the rings. DEDUCED (log 149): R443 has the active unloop the neighbours of such a standby, whose RINGWAIT asks for a takeover
mode first. -/
def coverWhole (b : Bool) (w : Work) : Bool :=
  !(getR b w).line || (w.d.grf.pRole == 2 && w.d.grf.pStale && foldedAtPartner b w)

/-- The takeover mode of the mode in force; 0 is none (R414, R424, Table 13.1). -/
def takeoverMode (w : Work) : Nat :=
  let m := w.d.sys.mode
  let home := w.d.grf.home
  let t := if m == 0 && home then 4 else if m == 4 && !home then 3 else if m == 3 && w.d.grf.tko3 && home then 4 else 0
  let r := modeRec t w
  if t == 0 || !graftUsed w || w.d.trl.builtIn || (ringsUsed w).any (fun b => !coverWhole b w) || !r.valid
    || decide (graftAllow (modeRec m w).rate w < 256) then 0 else t

/-! Records (R421, Table 13.4). -/

/-- A record. -/
def grfRec (type index : Nat) (ws : List Word) : List Word := wd (put 32 4 type + put 20 12 ws.length + put 0 20 index) :: ws

/-- SYS: the state at the sync point that ends cycle c (R420). -/
def recSys (c : Word) (w : Work) : List Word :=
  let f := w.d.phase
  grfRec 1 0 [c, f.vm, wd f.rem, nth f.mph f.hist 1, nth f.mph f.hist 2, nth f.mph f.hist 3, phSrcWord f.src, wd f.cpm,
    f.vmRate, wd (stCode w.d.sys.st), wd w.d.sys.mode, wd (takeoverMode w), wd w.d.trl.epoch, wd (nccN w % slowS w), 0, 0]

/-- SERVO of one axis. -/
def recServo (a : Nat) (w : Work) : List Word :=
  let s := getSp a w
  let g := (getPln a w).gear.getD {}
  grfRec 2 a (rds (w.d.ce.stBase + 64 * a + 24) 8 w
    ++ [plnStateWord a w, s.pos, wd s.frac, fToWord s.vel, fToWord s.acc, posWord g.pos,
      wd ((g.pos - (g.pos.floor : ℚ)) * g.d).floor.toNat, g.m])

/-- STEP of one stepper. -/
def recStep (a : Nat) (w : Work) : List Word := grfRec 3 a (rds (w.d.stp.stBase + 4 * a) 3 w)

/-- The output image words in order: nodes as the map lists them, word by word. -/
def outKeys (w : Work) : List Nat :=
  (imageOf w).nodes.flatMap (fun n => (List.range n.outWords).map (fun k => imgKey n.ringB n.id k))

/-- The parameter words of an ACCEPTED command, the phase word first, and whether it is phased. -/
def paramsOf (id : Nat) (w : Work) : List Word × Bool :=
  match (allEffects w).find? (fun e => e.cmd.id == id) with
  | some e =>
    let n := hLen e.cmd.hdr
    if e.phased then (e.target :: e.ps.take (n - 1), true) else (e.ps.take n, false)
  | none =>
    match w.d.cmd.bundles.find? (fun b => b.commit.id == id && b.commit.id != 0) with
    | some b => ([b.phase], true)
    | none => ([], false)

/-- JRN of one entry; INDEX is its place, with bit 19 for a phased command (log 93). -/
def recJrn (j : JEntry) (w : Work) : List Word :=
  let (ps, ph) := if isFinal j.status then ([], false) else paramsOf j.id w
  grfRec 5 (putB 19 ph + 4096 * j.q + j.pos) (jWords j ++ ps)

/-- Words whose layout the spec does not give (log 47). -/
def freeWords (n : Nat) (w : Work) : List Word × Work :=
  (List.range n).foldl (fun (acc : List Word × Work) _ => let (v, w) := freeW acc.2; (acc.1 ++ [v], w)) ([], w)

/-- PLAN of an axis, or of a stepper from 0x1000 on. -/
def recPlan (x : Nat) (w : Work) : List Word × Work :=
  let (ws, w) := freeWords (if x < 0x1000 then 25 else 13) w
  (grfRec 6 x ws, w)

/-- STAGE of a committed bundle. -/
def recStage (b : Bundle) (w : Work) : List Word × Work :=
  let (ws, w) := freeWords 16 w
  (grfRec 7 (16 * b.id) ws, w)

/-- What a STAGE record says of a bundle, to see a change of it (R421). -/
def stageKey (b : Bundle) : List Nat :=
  [b.id, if b.state == .armed then 1 else 0, b.unitsLeft, b.plansLeft, b.flags, b.c.toNat]
    ++ b.redo.flatMap (fun x => [x.1.toNat, x.2])

/-- HEDGE: the sequence numbers of the 64 connections as Hedge-P last reported them (spec/14 R479). -/
def recHedge (w : Work) : List Word :=
  grfRec 8 0 ((List.range 64).map (fun c => if hasHedge w.variant then nth 0 w.d.hdg.winSeq c else 0))

/-- FURROW: slice k of 8 of each tap's X state (R421). -/
def recFurrow (k : Nat) (w : Work) : List (List Word) :=
  (List.range (numFD w.variant)).flatMap (fun n =>
    (getFd n w).alloc.filterMap (fun kv =>
      let x := fld (pageWord (kv.1 / 4) (0x13 + 4 * (kv.1 % 4)) w) 0 12
      let lo := k * x / 8
      let hi := (k + 1) * x / 8
      if hi ≤ lo then none
      else some (grfRec 9 (16384 * n + kv.2.xb + lo)
        ((List.range (hi - lo)).map (fun i => fdRead (getFd n w) 0 (kv.2.xb + lo + i))))))

/-! The background stream (R431). -/

/-- The page at place k of a list of ranges. -/
def rangeAt : List (Nat × Nat) → Nat → Option Nat
  | [], _ => none
  | (p, n) :: r, k => if k < n then some (p + k) else rangeAt r (k - n)

/-- Records of the static transfer: the registers written in CONFIG, then the static pages in four records each. -/
def staticTotal (w : Work) : Nat := w.d.grf.regs.length + 4 * (w.d.mem.static.map (fun r => r.2)).sum
def staticRec (k : Nat) (w : Work) : List Word :=
  let n := w.d.grf.regs.length
  match w.d.grf.regs[k]? with
  | some kv => grfRec 0xB kv.1 [kv.2]
  | none =>
    match rangeAt w.d.mem.static ((k - n) / 4) with
    | some p =>
      let a := 256 * p + 64 * ((k - n) % 4)
      grfRec 0xA ((a - bankLo) / 4) (rds a 64 w)
    | none => []

/-- Records of the refresh rotation: the journal as it stood at the end of the set's cycle (R135, R138), every plan in force,
every staged half. -/
def rotTotal (w : Work) : Nat := w.d.grf.rot.length + w.d.pln.axes.length + w.d.stp.axes.length + w.d.cmd.bundles.length
def rotRec (k : Nat) (w : Work) : List Word × Work :=
  let j := w.d.grf.rot.length
  let p := w.d.pln.axes.length
  let q := w.d.stp.axes.length
  match w.d.grf.rot[k]?, (plnKnown w)[k - j]?, (stpKnown w)[k - j - p]?, w.d.cmd.bundles[k - j - p - q]? with
  | some x, _, _, _ => (x, w)
  | none, some a, _, _ => recPlan a w
  | none, none, some a, _ => recPlan (0x1000 + a) w
  | none, none, none, some b => recStage b w
  | _, _, _, _ => ([], w)

/-- Records of the stream up to room words; fuel bounds their number. -/
def streamTake : Nat → Nat → List Word → Work → List Word × Work
  | 0, _, out, w => (out, w)
  | f + 1, room, out, w =>
    let g := w.d.grf
    let (r, w) := if g.statPos < staticTotal w then (staticRec g.statPos w, w) else rotRec g.rotPos w
    if r.isEmpty || room < out.length + r.length then (out, w)
    else
      let w := if g.statPos < staticTotal w then { w with d.grf.statPos := g.statPos + 1 }
        else { w with d.grf.rotPos := (g.rotPos + 1) % max 1 (rotTotal w) }
      streamTake f room (out ++ r) w

/-! The set (R420, R421, R424). -/

/-- The records of the set of the cycle that ends at the present sync point. -/
def graftSet (w : Work) : List (List Word) × Work :=
  let c := w.d.phase.ncc - 1
  let s := slowS w
  let k := c.toNat % s
  let servos := (imageOf w).nodes.flatMap (fun n => n.axes)
  let steps := ((imageOf w).nodes.flatMap (fun n => n.steppers)).filter (fun a => a % s == k)
  let outs := ((outKeys w).zipIdx).filter (fun p => p.2 % s == k)
  let news := w.d.cmd.journal.filter (fun j => j.acc == c && j.status != stPending)
  let base := [recSys c w] ++ servos.map (fun a => recServo a w) ++ steps.map (fun a => recStep a w)
    ++ outs.map (fun p => grfRec 4 p.2 [tabGet 0 w.d.trl.outImg p.1]) ++ news.map (fun j => recJrn j w)
  let (plans, w) := w.d.grf.newPlans.foldl (fun (acc : List (List Word) × Work) x =>
    let (r, w) := recPlan x acc.2; (acc.1 ++ [r], w)) ([], w)
  let (stage, w) := (w.d.cmd.bundles.filter (fun b => committed b && !w.d.grf.stageSeen.contains (stageKey b))).foldl
    (fun (acc : List (List Word) × Work) b => let (r, w) := recStage b acc.2; (acc.1 ++ [r], w)) ([], w)
  (base ++ plans ++ stage ++ [recHedge w] ++ recFurrow (c.toNat % 8) w, w)

/-- Word pairs a frame holds at most (Table 13.3). -/
def pairsMax (rate : Nat) : Nat := match rate with | 3 => 245 | 2 => 516 | _ => 1023

/-- The records of the set that a frame takes, in order, and those that are left. -/
def takeRecords (room : Nat) : List (List Word) → List Word × List (List Word)
  | [] => ([], [])
  | r :: l =>
    if room < r.length then ([], r :: l)
    else let (ws, rest) := takeRecords (room - r.length) l; (r ++ ws, rest)

/-- The records go into n frames in order (R419, R421). -/
def packs (room : Nat) : Nat → List (List Word) → Bool
  | 0, l => l.isEmpty
  | n + 1, l => packs room n (takeRecords room l).2

/-- Build the set that is sent in the cycle that begins (R420). -/
def graftBuild (w : Work) : Work :=
  if !graftRuns w || w.d.sys.role == .standby then w
  else
    let (l, w) := graftSet w
    let n := (l.map (fun r => r.length)).sum
    { w with
      d.grf.out := l, d.grf.outNcc := w.d.phase.ncc - 1, d.grf.last := w.d.phase.ncc - 1, d.grf.newPlans := []
      d.grf.stageSeen := (w.d.cmd.bundles.filter committed).map stageKey, d.grf.rot := w.d.cmd.journal.map (fun j => recJrn j w)
      d.grf.incomplete := !packs (2 * pairsMax w.d.sys.rate) (4 * (w.d.grf.lane0.toNat + w.d.grf.lane1.toNat)) l
      d.grf.sizeLast := n % 65536
      d.grf.sizePeak := max w.d.grf.sizePeak (min 65535 n) }

/-! Completeness (R428, R429). -/

/-- Every condition of R428 but the last. -/
def graftReady (w : Work) : Bool :=
  let g := w.d.grf
  g.staticOk && decide (8 ≤ g.goodSets) && g.rotOk && g.cover

/-- Good SYNC frames came on both ports of every present ring in the cycle that ends. -/
def syncSeen (w : Work) : Bool := (ringsUsed w).all (fun b => (w.d.grf.syncPorts / 4 ^ ringKey b) % 4 == 3)

/-- SYS_STATE.STALE takes a value (R428). -/
def setStale (v : Bool) (w : Work) : Work :=
  if w.d.sys.stale == v then w else logEvent .grf 0 (if v then 3 else 4) 0 { w with d.sys.stale := v }

/-- STALE at a sync point: kept as it stood while a run of misses is suspect (R429). -/
def graftStale (w : Work) : Work :=
  if w.d.sys.role != .standby then { w with d.sys.stale := false }
  else if w.d.grf.suspect then w
  else setStale (!(graftReady w && w.d.grf.syncOk)) w

/-- The unit becomes a standby that holds nothing yet. -/
def becomeStandby (w : Work) : Work :=
  let w := nodesStart w
  setStale true (setRole .standby { w with
    d.grf.staticOk := false, d.grf.rotOk := false, d.grf.goodSets := 0, d.grf.cover := false, d.grf.missRun := 0
    d.grf.suspect := false, d.grf.decided := none, d.grf.rx := [], d.grf.rxBad := true, d.grf.jrn := [], d.grf.plans := []
    d.grf.syncOk := false
    d.grf.stage := [], d.grf.hedge := [], d.grf.servo := [], d.grf.home := false })

/-! Yielding (R439) and whole rings (R436, R443). -/

/-- A controller yields: it is silent from this sync point on, and a standby. -/
def grfYield (w : Work) : Work :=
  logEvent .grf 0 5 0 (becomeStandby { w with d.trl.yieldNext := false, d.trl.noGood := 0, d.grf.yielded := true })

/-- A controller that counts the cycles without a good frame: in charge of rings that run on the trellis. -/
def grfCounts (w : Work) : Bool :=
  graftUsed w && w.d.sys.role != .standby && w.d.sys.cycOn && !w.d.trl.builtIn && w.d.sys.st != .discover
    && (ringsUsed w).any (fun b => ringSends b w)

/-- The yield of R439 at a sync point; a unit whose graft link is not in use stays SOLO (Table 13.6). -/
def graftYield (w : Work) : Work :=
  let quiet := [false, true].all (fun b => !(getR b w).goodNow)
  let n := if grfCounts w && quiet then w.d.trl.noGood + 1 else 0
  let w := { w with d.trl.noGood := n }
  if !graftUsed w || w.d.sys.role == .standby then { w with d.trl.yieldNext := false }
  else if w.d.trl.yieldNext || decide (2 ≤ n) then grfYield w else w

/-- Rings that are whole from this sync point on. -/
def graftWhole (w : Work) : Work :=
  let due := w.d.grf.ringAt.filter (fun x => atOrPast w.d.phase.ncc x.2)
  let w := { w with d.grf.ringAt := w.d.grf.ringAt.filter (fun x => !atOrPast w.d.phase.ncc x.2) }
  each due (fun x w => wholeAgain x.1 w) w

/-! Registers (Tables 13.7 to 13.13). -/

/-- GRF_STAT. -/
def grfStatWord (w : Work) : Word :=
  let g := w.d.grf
  let m := if w.d.sys.role == .standby then (if g.cover then g.tkMode else 0) else takeoverMode w
  wd (putB 15 g.missSat + putB 14 g.capacity + putB 13 g.yielded + putB 12 g.tko + put 9 3 m + putB 8 (m != 0)
    + putB 7 g.rotOk + putB 6 g.staticOk + putB 5 g.suspect + putB 4 w.d.sys.stale + putB 3 (g.lane0 != g.lane1)
    + putB 2 g.partner + putB 1 g.lane1 + putB 0 g.lane0)

/-- GRF_PSTAT. -/
def grfPstatWord (w : Work) : Word :=
  let g := w.d.grf
  wd (put 32 4 g.pUnit + put 30 2 g.pRole + putB 29 g.pStale + putB 28 g.pSuspect + putB 27 g.pRingWait + put 0 16 g.pEpoch)

/-- The link's part of a sync point, before the new cycle's frames: rings, counts of silence, STALE. -/
def graftSync (w : Work) : Work :=
  let w := graftWhole (graftYield w)
  let g := w.d.grf
  let w := { w with
    d.grf.noStatus := if w.d.sys.role == Role.active && graftUsed w && !g.gotStatus then g.noStatus + 1 else 0
    d.grf.partner := g.gotStatus, d.grf.gotStatus := false, d.grf.got := 0
    d.grf.tko3 := g.tko3 && w.d.sys.mode == 3
    d.grf.cap := if graftUsed w then graftCap w.d.sys.rate else 0
    d.grf.allow := if graftUsed w then graftAllow w.d.sys.rate w else 0 }
  let w := graftStale { w with d.grf.syncOk := syncSeen w }
  { w with d.grf.syncPorts := 0 }

/-- The registers of R445 take the values of the present sync point. -/
def graftShow (w : Work) : Work :=
  { w with d.grf.shownStat := grfStatWord w, d.grf.shownLast := w.d.grf.last, d.grf.shownPstat := grfPstatWord w }

end Sys2Proof.Machine
end

