-- ==== Sys2Proof/Machine/Bundles.lean ====
section
/-! DEFINITION. Bundle members and commits, and the admission of one packet from its first check to its outcome (spec/04
R101 to R103, R115 to R121, R127, R128, R133, Table 4.4). -/

namespace Sys2Proof.Machine

/-! Members (R115 to R117). -/

/-- The axes and points a member names: kind (1 servo, 2 stepper, 3 point), number, parameter word (R116). -/
def memberNames (op : Nat) (ps : List Word) (w : Work) : List (Nat × Nat × Nat) :=
  let obj := match opObject op ps with
    | some (k, x) => if k == 1 || k == 2 then [(k, x, 1)] else []
    | none => []
  let master := if op == 0x080 && objKind (prm ps 2) == 1 then [(1, fld (prm ps 2) 0 31, 2)] else []
  (opServos op ps w).map (fun a => (1, a, 1)) ++ (opSteppers op ps w).map (fun a => (2, a, 1)) ++ obj ++ master
    ++ ((opPoints op ps).zipIdx).map (fun p => (3, p.1, 1 + 2 * p.2))

/-- R116 broken: the parameter word, 0 where the bundle is full. -/
def memberClash (b : Bundle) (op : Nat) (ps : List Word) (w : Work) : Option Nat :=
  if 256 ≤ b.members.length then some 0
  else
    let have_ := b.members.flatMap (fun e => (memberNames e.op e.ps w).map (fun x => (x.1, x.2.1)))
    ((memberNames op ps w).find? (fun x => have_.contains (x.1, x.2.1))).map (fun x => x.2.2)

/-- A member passes its checks: ACCEPTED (Table 4.4). -/
def admitMember (b : Bundle) (p : Packet) (w : Work) : Verdict :=
  let op := pOp p
  let ps := pPs p
  match memberClash b op ps w with
  | some k => .refuse stBadParam k
  | none =>
    let s := if op == 0x081 then ratioSigma ps w else 1
    if s == 0 then .refuse stLate 0x03
    else
      let e := effectOf p w
      let e := { e with time := .bundle, bundle := some b.id, ps := if op == 0x081 then e.ps ++ [wdI s] else e.ps }
      .take (putBundle { b with members := b.members ++ [e] }
        (report (pRef p) { status := stAccepted, acc := some w.d.phase.ncc, member := true } w))

/-! The commit (R118 to R121). -/

/-- A member of slow class makes the bundle slow (R121). -/
def bundleSlow (b : Bundle) : Bool := b.members.any (fun e => e.slow)

/-- The largest I/O divider of a bundle's points (spec/01 R23). -/
def bundleDiv (b : Bundle) : Nat := (b.members.map (fun e => e.carried)).foldl max 1

/-- A cycle that can be the commit of a bundle: for slow members a slow-group start that is an I/O start of every node
named. -/
def commitStart (slow : Bool) (div k : Nat) (w : Work) : Bool :=
  !slow || k % (slowUnit k w * max 1 div) == 0

/-- The first possible commit is still ahead of the phase (R110, R111, spec/01 R23). -/
def commitAhead (b : Bundle) (p : Word) (w : Work) : Bool :=
  if bundleSlow b then
    match ((List.range 129).map (fun i => nccN w + 9 - i)).find? (fun k =>
      commitStart true (bundleDiv b) k w && slowDecided k w) with
    | some k => !atOrPast (mphsAt k w) p
    | none => true
  else !atOrPast (mphAhead 2 w) p

/-- Predicted commit sync point of a bundle (R113); none while the phase stands or runs back. -/
def commitAt (slow : Bool) (div : Nat) (p : Word) (w : Work) : Option Word :=
  (predictAt slow p w).map (fun t =>
    if slow then
      wd (((List.range 129).map (fun i => t.toNat + i)).find? (fun k => commitStart true div k w) |>.getD t.toNat)
    else t)

/-- Predicted decision cycle (R121). -/
def decisionAt (b : Bundle) (p : Word) (w : Work) : Option Nat :=
  let slow := bundleSlow b
  (commitAt slow (bundleDiv b) p w).map (fun t => t.toNat - (if slow then slowAt t.toNat w + 1 else 2))

/-- Its decision cycle is earlier than dcy: an armed bundle's has been. -/
def decidedBefore (dcy : Nat) (x : Bundle) (w : Work) : Bool :=
  x.state == .armed || (x.state == .staging && (match decisionAt x x.phase w with
    | some y => decide (y < dcy)
    | none => false))

/-- The bundle is staged by its decision cycle, all units of committed bundles with an earlier one counted (R119); with the
phase at rest it has time (log 91). -/
def stagingInTime (b : Bundle) (p : Word) (u : Nat) (w : Work) : Bool :=
  match decisionAt b p w with
  | none => true
  | some dcy =>
    let q := ((w.d.cmd.bundles.filter (fun x => decidedBefore dcy x w)).map (fun x => (x.members.map effUnits).sum)).sum
    decide (nccN w + 1 + cdiv (q + u) 8 ≤ dcy)

/-- Words of a member's node transfer; none for the others (R109). -/
def memberBytes (e : Effect) : Option (Bool × Nat) :=
  if nodeCmd e.op e.ps then some ((objNode (prm e.ps 1)).1, acycBytes (e.ps.length - 2)) else none

/-- ACYC bytes the members need on a ring. -/
def bundleBytes (b : Bundle) (ring : Bool) : Nat :=
  ((b.members.filterMap memberBytes).map (fun x => if x.1 == ring then x.2 else 0)).sum

/-- Cycles from the present one up to the one before the earliest effect (R654). -/
def commitSpan (slow : Bool) (w : Work) : Nat :=
  if slow then
    let first := ((List.range 65).map (fun i => slowLast w + 1 + i)).find? (fun k => slowStart k w)
    (first.getD (slowLast w + slowS w)) - nccN w
  else 3

/-- The node transfers of a bundle find room (R109, R654). -/
def bundleRoom (b : Bundle) (w : Work) : Bool :=
  [false, true].all (fun r => bundleBytes b r == 0 || acycRoom r (commitSpan (bundleSlow b) w) (bundleBytes b r) w == .fits)

/-- Send the node transfers of a committed bundle; each of these members completes with its answer (R97, spec/03 R651,
log 14). -/
def sendTransfers (b : Bundle) (w : Work) : Work :=
  each b.members (fun e w =>
    match memberBytes e with
    | some (r, n) =>
      let t : AXfer := {
        kind := .param e.cmd.id, pathW := true, dst := (objNode (prm e.ps 1)).2, svc := 1, arg := prm e.ps 2
        words := e.ps.drop 2, rwords := e.ps.length - 2 }
      let x : NodeXfer := {
        cmd := e.cmd, ringB := r, node := t.dst, addr := (prm e.ps 2).toNat, values := t.words, count := t.rwords }
      let w := { w with d.cmd.xfers := w.d.cmd.xfers ++ [x] }
      modR r (fun x => { x with acyc := x.acyc ++ [t] }) (acycReserve r (commitSpan (bundleSlow b) w) (nccN w) n w)
    | none => w) w

/-- The first servo move among the members holds the curve of them all (spec/12 R391). -/
def withCurve (cv : Option Nat) : List Effect → List Effect
  | [] => []
  | e :: r => if servoMove e.op then { e with curve := cv } :: r else e :: withCurve cv r

/-- BUNDLE_COMMIT on an open bundle (R118, R119). -/
def admitCommit (b : Bundle) (p : Packet) (w : Work) : Verdict :=
  let ph := pPhase p
  let slow := bundleSlow b
  let u := (b.members.map effUnits).sum
  let plans := (b.members.map effPlans).sum
  let moves := (b.members.filter (fun e => curvedMove e.op e.ps (.phase ph) w)).map (fun e => (e.op, e.ps))
  if b.expected != 0 && b.expected != b.members.length then .refuse stBadParam 0
  else if !commitAhead b ph w then .refuse stLate 0x03
  else if !clusterRoom u plans ph w then .refuse stLate 0x01
  else if !bundleRoom b w then .refuse stLate 0x02
  else if !moves.isEmpty && w.d.egv.rebuild then .wait
  else
    match placeMoves moves (commitAt slow (bundleDiv b) ph w) 0 w with
    | .inl det => .refuse stBudget det
    | .inr (_, cv, w') =>
      if !stagingInTime b ph u w then .refuse stLate 0x01
      else
        let b := { b with
          state := .staging, commit := pRef p, phase := ph, slow := slow, unitsLeft := u, plansLeft := plans, flagsAtSync := 0
          flags := stageFlags u plans, members := withCurve cv b.members }
        let w := report (pRef p) { status := stAccepted, acc := some w.d.phase.ncc, member := true } w'
        .take (sendTransfers b (putBundle b w))

/-! One packet. -/

/-- The packet belongs to a bundle: a member, or a commit. -/
def ofBundle (p : Packet) : Bool := hInBundle (pHdr p) || pOp p == 0x141

/-- A refusal: its status, and what becomes of the bundle the packet was for (R117, R118, R119); a refused PT_ADJUST jump
is flagged (spec/20 R606). -/
def refusePacket (p : Packet) (st det : Nat) (w : Work) : Work :=
  let w := report (pRef p) { status := st, detail := det, acc := some w.d.phase.ncc, member := ofBundle p } w
  let w := if pOp p == 0x003 && st == stLimit then
      irq 19 (logEvent .ptm 0 1 (wdI (ptIncrement (pPs p))).toNat { w with d.ptm.jumpRefused := true })
    else w
  match openBundle p.q w with
  | some b =>
    if pOp p == 0x141 then removeBundle b.id (failMembers b 0x01 w)
    else if hInBundle (pHdr p) && b.state == .open_ then doomBundle b 0x01 w else w
  | none => w

/-- When a packet's effect would fall, as its admission knows it. -/
def pktHorizon (p : Packet) (w : Work) : Horizon :=
  if hInBundle (pHdr p) then .bundle else if pPhased p then .phase (pPhase p) else .at (boundOf (pOp p) (pPs p) w)

/-- Checks of R7 and R79 on the first try; later what may have changed since. -/
def packetFails (p : Packet) (w : Work) : Option Fail :=
  if p.checked then recheck (pHdr p) (pPs p) (pktHorizon p w) w
  else checkPacket p.q (pHdr p) (pPs p) (pktHorizon p w) w

/-- DETAIL of what a packet of a doomed bundle completes with (R117), or none. -/
def doomedBy (p : Packet) (w : Work) : Option Nat :=
  match openBundle p.q w with
  | some b => if ofBundle p && b.state == .doomed then some b.doom else none
  | none => none

/-- The verdict on a packet in a cycle without a commit decision. DESIGN CHOICE (log 140): a BUNDLE_COMMIT with no bundle open
in its queue completes with BAD_PARAM, DETAIL 0. -/
def verdict (p : Packet) (w : Work) : Verdict :=
  let member := hInBundle (pHdr p)
  let b := openBundle p.q w
  match (doomedBy p w).map (fun d => (stAborted, d)) |>.orElse (fun _ => packetFails p w) with
    | some (st, det) => .refuse st det
    | none =>
      match armCheck p w with
      | some ((st, det), x) => .take (refusePacket p st det (match x with | some k => { w with d.hvs.derr := k } | none => w))
      | none =>
        match faultBad (pOp p) (pPs p) w with
        | some (0, _) =>
          (match member, b with
           | true, some b => admitMember b p w
           | _, _ => .take (finishOk (pRef p) [] w))
        | some (st, det) => .refuse st det
        | none =>
          if holdBad (pOp p) w then .refuse stLate 0x01
          else
            match member, pOp p == 0x141, b with
            | true, _, some b => admitMember b p w
            | false, true, some b => admitCommit b p w
            | false, true, none => .refuse stBadParam 0
            | _, _, _ => admitSingle p w

/-- The graft set of this cycle has room for the packet's journal entry (spec/13 R425). -/
def journalRoom (p : Packet) (w : Work) : Bool :=
  let j := w.d.grf.allow
  !graftRuns w || w.d.sys.role == .standby || decide (j < 256)
    || decide ((((w.d.cmd.journal.filter (fun x => x.acc == w.d.phase.ncc && x.status != stPending)).map
      (fun x => (recJrn x w).length)).sum + 5 + hLen (pHdr p)) ≤ j)

/-- The phase has no sample of this cycle yet: what needs M(k) waits for it (R48, R103, R110, R111, R113). -/
def sampleWaits (p : Packet) (w : Work) : Bool :=
  !w.d.phase.sampled && (pPhased p || w.d.cmd.bundles.any (fun b => b.state == .staging))

/-- Try to admit a packet in the present cycle: the packet as it waits on, or none when its admission is over (R102, R103,
R133). -/
def tryAdmit (p : Packet) (w : Work) : Option Packet × Work :=
  if jFull p.q w || decisionCycle w || sampleWaits p w || !journalRoom p w then (some p, w)
  else
    match verdict p w with
    | .wait => (some { p with checked := true }, w)
    | .refuse st det => (none, refusePacket p st det w)
    | .take w => (none, w)

end Sys2Proof.Machine
end

