-- ==== Sys2Proof/Machine/Queues.lean ====
section
/-! DEFINITION. The command queues: their registers, dequeue, the fetch of host-memory entries, result slot release, and the
event log's registers (spec/03 R56 to R66, R87 to R96, R645, spec/20 R596). -/

namespace Sys2Proof.Machine

/-! Registers. -/

/-- The port that owns a queue: MID 0 for Q0 to Q3, MID 1 for Q4 (R56). -/
def queueOwner (q : Nat) : Nat := if q == 4 then 1 else 0

/-- A write of CMDq_TAIL or CMDq_REL by another MID is ignored and logged (R57). -/
def owned (mid q : Nat) (f : Work → Work) (w : Work) : Work := if mid == queueOwner q then f w else logEvent .cmd q 5 0 w

/-- CMDq_TAIL (Table 3.16). -/
def tailWrite (mid q : Nat) (v : Word) (w : Work) : Work :=
  owned mid q (fun w =>
    let t := fld v 0 9
    let h := (getQ q w).head
    if 256 < (t + 512 - h) % 512 then w else bpRefresh (modQ q (fun x => { x with tail := t }) w)) w

/-- CMDq_REL (R87). -/
def relWrite (mid q : Nat) (v : Word) (w : Work) : Work :=
  owned mid q (fun w =>
    let e := fld v 0 8
    let x := getSlot q e w
    if x.status == stPending then logEvent .cmd q 3 0 w
    else
      let w := putSlot q e { x with status := stPending, rlen := 0, res := [], owner := none, released := true } w
      irqQueueStat (if (getQ q w).head % 256 == e then modQ q (fun y => { y with slotWait := false }) w else w)) w

/-- EN changes from 0 to 1 with the LOC of the same write (Table 3.11, R615). -/
def queueEnable (q : Nat) (loc rmir : Bool) (w : Work) : Work :=
  let w := modQ q (fun x => { x with
    en := true, loc := loc, rmir := rmir, head := 0, tail := 0, fetched := none, slotWait := false
    baseL := if loc then x.baseL / 4096 * 4096 else x.baseL / 64 * 64 }) w
  each (List.range 256) (fun e w => putSlot q e { getSlot q e w with
    status := stPending, gen := 0, rlen := 0, res := [], owner := none, released := true } w) w

/-- CMDq_CTL (Table 3.11, R96); LOC and RMIR of Q4 read 0. -/
def ctlWrite (q : Nat) (v : Word) (w : Work) : Work :=
  let x := getQ q w
  let loc := bit v 1 && q != 4
  let rmir := bit v 2 && q != 4
  let w := match x.en, bit v 0 with
    | false, true => queueEnable q loc rmir w
    | false, false => modQ q (fun x => { x with loc := loc, rmir := rmir }) w
    | true, false => modQ q (fun x => { x with en := false }) w
    | true, true => w
  bpRefresh w

/-- The address registers of a queue, written while EN is 0 (R96, R615): 1 BASEL, 2 BASEH, 3 RSLT, 8 MIRL, 9 MIRH. -/
def queueAddrWrite (q k : Nat) (v : Word) (w : Work) : Work :=
  if (getQ q w).en then w
  else modQ q (fun x =>
    match k with
    | 1 => { x with baseL := fld v 0 32 }
    | 2 => if q == 4 then x else { x with baseH := fld v 0 32 }
    | 3 => { x with rslt := fld v 0 23 / 16 * 16 }
    | 8 => if q == 4 then x else { x with mirL := fld v 0 32 / 32768 * 32768 }
    | 9 => if q == 4 then x else { x with mirH := fld v 0 32 }
    | _ => x) w

/-- CMDq_STAT.DMA_ERR written 1: cleared, and the fetch is tried again (R65). -/
def dmaErrClear (q : Nat) (w : Work) : Work :=
  bpRefresh (modQ q (fun x => { x with dmaErr := false, fetched := if x.dmaErr then none else x.fetched }) w)

/-- A queue's DMA fetch of the entry at HEAD ends (R65, R596); a free bus read brings 64 words. -/
def entryFetch (q : Nat) (ok : Bool) (ws : List Word) (w : Work) : Work :=
  let x := getQ q w
  if !(x.en && x.loc && queueFill x != 0 && x.fetched.isNone && !x.dmaErr) then w
  else if ok then bpRefresh (modQ q (fun x => { x with fetched := some ws }) w)
  else
    let w := modQ q (fun x => { x with dmaErr := true }) w
    irqQueueStat (logEvent .hif 0 2 q (logEvent .cmd q 2 0 { w with d.hif.cto := true }))

/-! Dequeue (R61 to R66, R89). -/

/-- The slot of an entry at a dequeue (R89). -/
def claimSlot (q e id : Nat) (h : Word) (w : Work) : Work :=
  let x := getSlot q e w
  putSlot q e { x with
    opcode := hOpcode h, gen := (x.gen + 1) % 64, seq := hSeq h, status := stPending, rlen := 0, effKnown := false
    detail := 0, delay := 0, res := [], owner := some id, released := false } w

/-- Take a packet: its job is enqueued, its slot claimed, and its admission tried unless an earlier packet of the queue
waits (R61, R63, R89). False where the task dispatcher refuses the job. -/
def takePacket (q e : Nat) (ws : List Word) (w : Work) : Bool × Work :=
  let h := nth 0 ws 0
  let id := freshId w
  let (key, w) := freeN 4096 w
  match tduEnqueue (pktLevel h) { key := key, packet := id } w with
  | (false, w) => (false, w)
  | (true, w) =>
    let w := claimSlot q e id h { w with d.cmd.nextId := id + 1 }
    let p : Packet := { id := id, q := q, entry := e, words := ws }
    if w.d.cmd.dispatch.any (fun x => x.q == q) then (true, { w with d.cmd.dispatch := w.d.cmd.dispatch ++ [p] })
    else
      match tryAdmit p w with
      | (none, w) => (true, tduDone id w)
      | (some p, w) => (true, { w with d.cmd.dispatch := w.d.cmd.dispatch ++ [p] })

/-- Queue q waits for the release of the slot at its HEAD: SLOT_WAIT, and CMD_SLOT_BUSY once per stall (R64). -/
def slotStall (q : Nat) (w : Work) : Work :=
  if (getQ q w).slotWait then w
  else irqQueueStat (logEvent .cmd q 1 0 (modQ q (fun x => { x with slotWait := true }) w))

/-- The job of a packet that may not be dequeued is offered where its level is full, and refused (R63, spec/12 R407). -/
def offerRefused (h : Word) (w : Work) : Work := if tduFull (pktLevel h) w then (tduEnqueue (pktLevel h) {} w).2 else w

/-- A packet of a queue as a command row brings it: it is dequeued where the device would dequeue it now (R63, R64, R66,
log 28). -/
def submit (q e : Nat) (ws : List Word) (w : Work) : Work :=
  if !(fromConfig w.d.sys.st && (getQ q w).en) then w
  else if !(getSlot q e w).released then slotStall q w
  else
    let stop := fun (w : Work) => irqQueueStat (modQ q (fun x => { x with bp := true }) w)
    if heldBack q (nth 0 ws 0) w then stop (offerRefused (nth 0 ws 0) w)
    else
      match takePacket q e ws w with
      | (false, w) => stop w
      | (true, w) => bpRefresh w

/-- The packet at the HEAD of a queue that may be dequeued now. -/
def headReady (q : Nat) (w : Work) : Option (List Word) :=
  let x := getQ q w
  if !(x.en && queueFill x != 0 && !x.dmaErr && (getSlot q (x.head % 256) w).released) then none
  else match headWords q w with
    | some ws => if hOpcode (nth 0 ws 0) == 0x140 && commitsFull q w then none else some ws
    | none => none

/-- Queues in round-robin order from the one whose turn is next. -/
def turnOrder (rr : Nat) : List Nat := (List.range 5).map (fun k => (rr + k) % 5)

/-- The queue served next: an urgent head packet of the lowest queue first, else the next in turn (R62). -/
def pickQueue (w : Work) : Option (Nat × List Word) :=
  let ready := (turnOrder w.d.cmd.rr).filterMap (fun q => (headReady q w).map (fun ws => (q, ws)))
  let urgent := ready.filter (fun x => hUrgent (nth 0 x.2 0))
  match urgent with
  | [] => ready.head?
  | u :: r => some (r.foldl (fun a b => if b.1 < a.1 then b else a) u)

/-- DEQUEUE: SLOT_WAIT of stalled queues, then one packet (R61 to R66); an urgent packet served out of turn leaves the
round-robin position. -/
def dequeue (w : Work) : Work :=
  if !fromConfig w.d.sys.st then w
  else
    let w := each (List.range 5) (fun q w =>
      let x := getQ q w
      if x.en && queueFill x != 0 && !(getSlot q (x.head % 256) w).released then slotStall q w else w) w
    let turn := (turnOrder w.d.cmd.rr).find? (fun q => (headReady q w).isSome)
    match pickQueue w with
    | none => bpRefresh w
    | some (q, ws) =>
      if headsHeld w then bpRefresh (if w.d.cmd.dispatch.length < 64 then offerRefused (nth 0 ws 0) w else w)
      else
      match takePacket q ((getQ q w).head % 256) ws w with
      | (false, w) => irqQueueStat (modQ q (fun x => { x with bp := true }) w)
      | (true, w) =>
        let w := modQ q (fun x => { x with head := (x.head + 1) % 512, fetched := none, slotWait := false }) w
        bpRefresh (if turn == some q then { w with d.cmd.rr := (q + 1) % 5 } else w)

/-- ADMISSION of the k-th packet of the dispatch list, where it is the first of its queue (R61, spec/04 R102). -/
def admission (k : Nat) (w : Work) : Work :=
  match w.d.cmd.dispatch[k]? with
  | none => w
  | some p =>
    if (w.d.cmd.dispatch.take k).any (fun x => x.q == p.q) then w
    else
      bpRefresh (match tryAdmit p w with
        | (none, w) => tduDone p.id { w with d.cmd.dispatch := w.d.cmd.dispatch.filter (fun x => x.id != p.id) }
        | (some p, w) => { w with d.cmd.dispatch := w.d.cmd.dispatch.map (fun x => if x.id == p.id then p else x) })

/-! The event log's registers (R94, R645, R615). -/

/-- CMD_EVRD: the index modulo the log length in force (R645). -/
def evrdWrite (v : Word) (w : Work) : Work := { w with d.cmd.evRd := fld v 0 16 % evLength w }

/-- CMD_EVBASE or CMD_EVLEN, in CONFIG: both indices are cleared, and the base is aligned to the length (R94, R615). -/
def evConfigWrite (len : Bool) (v : Word) (w : Work) : Work :=
  if w.d.sys.st != .config then w
  else
    let w := if len then { w with d.cmd.evLen := fld v 0 4 } else { w with d.cmd.evBase := fld v 0 23 }
    let n := 4 * evLength w
    { w with d.cmd.evBase := w.d.cmd.evBase / n * n, d.cmd.evWr := 0, d.cmd.evRd := 0 }

/-! The commands. -/

/-- CMDQ_TAIL_WRITE (R57, Table 3.16). -/
def execCmdqTailWrite (mid : Fin 32) (q : Fin 5) (v : Word) (s : State) : Host.Outcome State Fault Refusal :=
  run (tailWrite mid q v) s

/-- CMDQ_REL_WRITE (R57, R87). -/
def execCmdqRelWrite (mid : Fin 32) (q : Fin 5) (v : Word) (s : State) : Host.Outcome State Fault Refusal :=
  run (relWrite mid q v) s

/-- CMDQ_CTL_WRITE (Table 3.11). -/
def execCmdqCtlWrite (q : Fin 5) (v : Word) (s : State) : Host.Outcome State Fault Refusal := run (ctlWrite q v) s

/-- DMA_ERR_CLEAR (R65). -/
def execDmaErrClear (q : Fin 5) (s : State) : Host.Outcome State Fault Refusal := run (dmaErrClear q) s

/-- DEQUEUE (R61 to R66). -/
def execDequeue (s : State) : Host.Outcome State Fault Refusal := run dequeue s

/-- ENTRY_FETCH (R65, spec/20 R596). -/
def execEntryFetch (q : Fin 5) (ok : Bool) (ws : List Word) (s : State) : Host.Outcome State Fault Refusal :=
  run (entryFetch q ok ws) s

/-- ADMISSION (spec/04 R102, R103). -/
def execAdmission (k : Fin 64) (s : State) : Host.Outcome State Fault Refusal := run (admission k) s

/-- CMD_EVRD_WRITE (R645). -/
def execCmdEvrdWrite (v : Word) (s : State) : Host.Outcome State Fault Refusal := run (evrdWrite v) s

/-- EVENT_LOG_CONFIG_WRITE (R94). -/
def execEventLogConfigWrite (len : Bool) (v : Word) (s : State) : Host.Outcome State Fault Refusal :=
  run (evConfigWrite len v) s

end Sys2Proof.Machine
end

