-- ==== Sys2Proof/Machine/Commands.lean ====
section
/-! DEFINITION. The command packets of spec/03 Table 3.3: each row brings one packet, whose header is the row's opcode with
the flags it carries, to its queue (log 28). -/

namespace Sys2Proof.Machine

/-- The header word of a packet (spec/03 Table 3.1); n counts the parameters without the phase word. -/
def headerWord (op n : Nat) (h : PktHead) : Word :=
  wd (put 26 10 op + put 20 6 (n + if h.phased then 1 else 0) + put 8 12 h.seq.toNat + putB 3 h.urgent + putB 2 h.noResult
    + putB 1 h.inBundle + putB 0 h.phased)

/-- The words of a packet: header, phase word where it is phased, parameters (spec/03 R58). -/
def packetWords (op : Nat) (h : PktHead) (ps : List Word) : List Word :=
  headerWord op ps.length h :: ((if h.phased then [h.phase] else []) ++ ps)

/-- A command packet arrives at its queue. -/
def packet (op : Nat) (h : PktHead) (ps : List Word) (s : State) : Host.Outcome State Fault Refusal :=
  run (submit h.queue h.entry (packetWords op h ps)) s

/-- NOP: OK in n. -/
def execNop (h : PktHead) (s : State) : Host.Outcome State Fault Refusal := packet 0x000 h [] s

/-- STATE_REQUEST (Table 3.4). -/
def execStateRequest (h : PktHead) (t : Word) (s : State) : Host.Outcome State Fault Refusal := packet 0x001 h [t] s

/-- MODE_SWITCH (spec/11 R363, R364). -/
def execModeSwitch (h : PktHead) (m l : Word) (s : State) : Host.Outcome State Fault Refusal := packet 0x002 h [m, l] s

/-- PT_ADJUST (spec/20 R604 to R606). -/
def execPtAdjust (h : PktHead) (hi lo r : Word) (s : State) : Host.Outcome State Fault Refusal :=
  packet 0x003 h [hi, lo, r] s

/-- AXIS_ENABLE (spec/05 R164, spec/06 R208). -/
def execAxisEnable (h : PktHead) (a : Word) (s : State) : Host.Outcome State Fault Refusal := packet 0x040 h [a] s

/-- AXIS_DISABLE (spec/06 R209). -/
def execAxisDisable (h : PktHead) (a : Word) (s : State) : Host.Outcome State Fault Refusal := packet 0x041 h [a] s

/-- MOVE_ABS (spec/05 R151). -/
def execMoveAbs (h : PktHead) (a p k : Word) (s : State) : Host.Outcome State Fault Refusal :=
  packet 0x042 h [a, p, k] s

/-- MOVE_REL (spec/05 R151). -/
def execMoveRel (h : PktHead) (a p k : Word) (s : State) : Host.Outcome State Fault Refusal :=
  packet 0x043 h [a, p, k] s

/-- MOVE_VEL (spec/05 R160). -/
def execMoveVel (h : PktHead) (a v k : Word) (s : State) : Host.Outcome State Fault Refusal :=
  packet 0x044 h [a, v, k] s

/-- MOVE_COORD (spec/05 R156, R157). -/
def execMoveCoord (h : PktHead) (a : Word) (ts : List Word) (k : Word) (s : State) : Host.Outcome State Fault Refusal :=
  packet 0x045 h (a :: (ts ++ [k])) s

/-- STOP (spec/05 R161). -/
def execStop (h : PktHead) (a : Word) (s : State) : Host.Outcome State Fault Refusal := packet 0x046 h [a] s

/-- QUICK_STOP (spec/05 R161). -/
def execQuickStop (h : PktHead) (a : Word) (s : State) : Host.Outcome State Fault Refusal := packet 0x047 h [a] s

/-- FAULT_CLEAR (spec/06 R217). -/
def execFaultClear (h : PktHead) (a : Word) (s : State) : Host.Outcome State Fault Refusal := packet 0x048 h [a] s

/-- LOAD_CLASS (spec/06). -/
def execLoadClass (h : PktHead) (a c : Word) (s : State) : Host.Outcome State Fault Refusal := packet 0x049 h [a, c] s

/-- GEAR_ENGAGE (spec/05 R168). -/
def execGearEngage (h : PktHead) (o m n d r : Word) (s : State) : Host.Outcome State Fault Refusal :=
  packet 0x080 h [o, m, n, d, r] s

/-- GEAR_RATIO_AT (spec/05 R172). -/
def execGearRatioAt (h : PktHead) (o p n d r : Word) (s : State) : Host.Outcome State Fault Refusal :=
  packet 0x081 h [o, p, n, d, r] s

/-- GEAR_DISENGAGE (spec/05 R170). -/
def execGearDisengage (h : PktHead) (o : Word) (s : State) : Host.Outcome State Fault Refusal := packet 0x082 h [o] s

/-- STEP_ENABLE (spec/08 R279 to R283). -/
def execStepEnable (h : PktHead) (a on rel : Word) (s : State) : Host.Outcome State Fault Refusal :=
  packet 0x0C0 h [a, on, rel] s

/-- STEP_MOVE (spec/08 R269). -/
def execStepMove (h : PktHead) (a p k : Word) (s : State) : Host.Outcome State Fault Refusal :=
  packet 0x0C1 h [a, p, k] s

/-- STEP_VEL (spec/08 R269). -/
def execStepVel (h : PktHead) (a v k : Word) (s : State) : Host.Outcome State Fault Refusal :=
  packet 0x0C2 h [a, v, k] s

/-- STEP_STOP (spec/08 R269). -/
def execStepStop (h : PktHead) (a : Word) (s : State) : Host.Outcome State Fault Refusal := packet 0x0C3 h [a] s

/-- IO_WRITE (spec/01 R23, R653). -/
def execIoWrite (h : PktHead) (ps : List (Word × Word)) (s : State) : Host.Outcome State Fault Refusal :=
  packet 0x100 h (ps.flatMap (fun p => [p.1, p.2])) s

/-- IO_READ (spec/01 R653). -/
def execIoRead (h : PktHead) (ps : List Word) (s : State) : Host.Outcome State Fault Refusal := packet 0x101 h ps s

/-- BUNDLE_OPEN (spec/04 R115). -/
def execBundleOpen (h : PktHead) (n : Option Word) (s : State) : Host.Outcome State Fault Refusal :=
  packet 0x140 h n.toList s

/-- BUNDLE_COMMIT (spec/04 R119). -/
def execBundleCommit (h : PktHead) (s : State) : Host.Outcome State Fault Refusal := packet 0x141 h [] s

/-- BUNDLE_ABORT (spec/04 R128). -/
def execBundleAbort (h : PktHead) (s : State) : Host.Outcome State Fault Refusal := packet 0x142 h [] s

/-- PARAM_WRITE (R80, R81, R651, R652). -/
def execParamWrite (h : PktHead) (o n : Word) (vs : List Word) (s : State) : Host.Outcome State Fault Refusal :=
  packet 0x180 h (o :: n :: vs) s

/-- PARAM_READ (R80, R81, R651, R652). -/
def execParamRead (h : PktHead) (o n c : Word) (s : State) : Host.Outcome State Fault Refusal :=
  packet 0x181 h [o, n, c] s

/-- HARVEST_ARM (spec/15 R487, R488). -/
def execHarvestArm (h : PktHead) (k o : Word) (s : State) : Host.Outcome State Fault Refusal := packet 0x1C0 h [k, o] s

/-- HARVEST_DISARM (spec/15 Table 15.3). -/
def execHarvestDisarm (h : PktHead) (k : Word) (s : State) : Host.Outcome State Fault Refusal := packet 0x1C1 h [k] s

/-- MASK_LOAD (spec/15 R495, R496). -/
def execMaskLoad (h : PktHead) (k g a n : Word) (s : State) : Host.Outcome State Fault Refusal :=
  packet 0x1C2 h [k, g, a, n] s

/-- BRAKE_TEST_REQ (spec/14 R470). -/
def execBrakeTestReq (h : PktHead) (b : Word) (s : State) : Host.Outcome State Fault Refusal := packet 0x200 h [b] s

/-- SAFE_STATUS_READ (spec/14). -/
def execSafeStatusRead (h : PktHead) (s : State) : Host.Outcome State Fault Refusal := packet 0x201 h [] s

/-- LEDGER_READ (spec/19 R592). -/
def execLedgerRead (h : PktHead) (a n : Word) (s : State) : Host.Outcome State Fault Refusal := packet 0x240 h [a, n] s

/-- JOURNAL_READ (spec/04 R134). -/
def execJournalRead (h : PktHead) (q n : Word) (s : State) : Host.Outcome State Fault Refusal := packet 0x241 h [q, n] s

/-- EGV_MODE (spec/12 R394). -/
def execEgvMode (h : PktHead) (on : Word) (s : State) : Host.Outcome State Fault Refusal := packet 0x280 h [on] s

end Sys2Proof.Machine
end

