-- ==== Sys2Proof/Machine/Sync.lean ====
section
/-! DEFINITION. The sync point: the end of one network cycle and the start of the next. What was decided in the cycle that
ends, the counters, changes of mode, the effects that fall due with their parts before the sync point, the planner and the
step generators, and what the new cycle sends (spec/01 R14 to R26, spec/02 R41 to R51, spec/04 R97 to R131, R649, Table
4.3, spec/06 R208 to R217, spec/08 R288, spec/20 R597, R610). -/

namespace Sys2Proof.Machine

/-! What an effect does ahead of its sync point (spec/04 Table 4.3). -/

/-- The engine's part: enable state, load class and page words, from the compute of the cycle before the effect (log 26). -/
def engineEarly (e : Effect) (w : Work) : Work :=
  let a := fld (prm e.ps 1) 0 10
  match e.op with
  | 0x040 => modCe a (fun x => if x.enabled || x.fcode != 0 then x else { x with
      enabled := true, enableCycle := true, tapInit := true, ip := 0, iv := 0, gains := none, swapped := false }) w
  | 0x041 => ceOff a w
  | 0x049 => fxPage a .a [(0x20E, prm e.ps 2)] w
  | 0x180 =>
    if objKind (prm e.ps 1) == 1 && 0x200 ≤ (prm e.ps 2).toNat then
      (match cmdCls e.ps with
       | some k => fxPage (objIndex (prm e.ps 1)) k (paramPairs e.ps) w
       | none => w)
    else w
  | _ => w

/-- The opcodes an engine acts on ahead. -/
def engineOp (op : Nat) : Bool := [0x040, 0x041, 0x049, 0x180].contains op

/-- The I/O points of an IO_WRITE take their values in the output image. -/
def fxPoints (ps : List Word) (w : Work) : Work :=
  each (List.range (ps.length / 2)) (fun j w =>
    match pointOf (nth 0 ps (2 * j)).toNat w with
    | some (n, q) => pointWrite n q (nth 0 ps (2 * j + 1)).toNat w
    | none => w) w

/-- The step generators' and the image's part, at the slow-group start before the effect: a fault code for a STEP_ENABLE
that fails (spec/08 R279, R287). -/
def slowEarly (e : Effect) (w : Work) : Option Nat × Work :=
  let p := e.ps
  let a := fld (prm p 1) 0 12
  match e.op with
  | 0x0C0 => fxStepEnable a (bit (prm p 2) 0) (bit (prm p 3) 0) w
  | 0x0C1 => (none, fxStepMove a (prm p 2) w)
  | 0x0C2 => (none, fxStepVel a (prm p 2) w)
  | 0x0C3 => (none, if a == 0xFFF then each (stpKnown w) fxStepStop w else fxStepStop a w)
  | 0x080 => (none, fxStepGear (objIndex (prm p 1)) (masterOf (prm p 2)) (gearN (prm p 3)) (gearD (prm p 4)) (prm p 5).toNat w)
  | 0x082 => (none, if (getStp (objIndex (prm p 1)) w).gear.isSome then fxStepStop (objIndex (prm p 1)) w else w)
  | 0x100 => (none, fxPoints p w)
  | _ => (none, w)

/-- What the engine's part of an effect is about to change is kept until the command is complete (R97). -/
def keepEngine (e : Effect) (w : Work) : Work :=
  let o := prm e.ps 1
  let a := if e.op == 0x180 then objIndex o else fld o 0 10
  let page := fun (p : Nat) (n : Nat) => let k := pageAddr a p n w; (k, rd k w)
  let both := fun (l : List Nat) => l.flatMap (fun n => [page 0 (n - 0x200), page 1 (n - 0x200)])
  let words := match e.op with
    | 0x049 => both [0x20E]
    | 0x180 => if objKind o == 1 && 0x200 ≤ (prm e.ps 2).toNat then
        (if cmdCls e.ps == some .c then (List.range 256).map (page (1 - (getCe a w).page)) else both ((paramPairs e.ps).map (fun p => p.1)))
      else []
    | _ => []
  { w with d.ce.undo := w.d.ce.undo ++ [{ id := e.cmd.id, op := e.op, axis := a, old := getCe a w, words := words }] }

/-- The same for the step generators' and the output image's part. -/
def keepSlow (e : Effect) (w : Work) : Work :=
  let id := e.cmd.id
  let outs := (opPoints e.op e.ps).filterMap (fun p => (pointOf p w).map (fun x =>
    let k := imgKey x.1.ringB x.1.id x.2.word
    (id, k, x.2.lo, x.2.width, fld (tabGet 0 w.d.trl.outImg k) x.2.lo x.2.width)))
  { w with
    d.stp.undo := w.d.stp.undo ++ (opSteppers e.op e.ps w).map (fun a => (id, a, getStp a w))
    d.trl.undoOut := w.d.trl.undoOut ++ outs }

/-- The part of an effect at sync point c that is due now, ahead of c: the effect with what it leaves. -/
def earlyPart (c : Word) (slowNow : Bool) (e : Effect) (w : Work) : Effect × Work :=
  let d := modDiff c w.d.phase.ncc
  if e.early then (e, w)
  else if e.slow then
    if slowNow && decide (d ≤ (slowS w : Int)) then
      let (f, w) := slowEarly e (keepSlow e w)
      ({ e with early := true, faulted := e.faulted.orElse (fun _ => f) }, w)
    else (e, w)
  else if engineOp e.op && decide (d ≤ 1) then ({ e with early := true }, engineEarly e (keepEngine e w))
  else (e, w)

/-- The early parts due now of a list of effects at c. -/
def earlyList (c : Effect → Option Word) (slowNow : Bool) (l : List Effect) (w : Work) : List Effect × Work :=
  l.foldl (fun (acc : List Effect × Work) e =>
    match c e with
    | some t => let (e, w) := earlyPart t slowNow e acc.2; (acc.1 ++ [e], w)
    | none => (acc.1 ++ [e], acc.2)) ([], w)

/-- The early parts due now, of armed bundles before single commands (R127, R649). -/
def earlyParts (slowNow : Bool) (w : Work) : Work :=
  let w := each w.d.cmd.bundles (fun (b : Bundle) w =>
    if b.state == .armed then
      let (l, w) := earlyList (fun _ => some b.c) slowNow b.members w
      putBundle { b with members := l } w
    else w) w
  let (l, w) := earlyList (fun e => match e.time with | .at t => some t | _ => none) slowNow w.d.cmd.effects w
  { w with d.cmd.effects := l }

/-! Effects at their sync point. -/

/-- A mask anchor of a harvest set (spec/15 R498): kind 1 servo, 2 stepper, 3 queue. -/
def anchorAt (k i : Nat) (w : Work) : Work := { w with d.hvs.anchors := w.d.hvs.anchors ++ [(k, i)] }


/-- The curve placed for an effect begins half a cycle or more away from the present sync point (spec/12 R393). -/
def placedAway (e : Effect) (w : Work) : Bool :=
  match e.curve.bind (fun k => w.d.egv.curves.find? (fun c => c.id == k)) with
  | some c => decide (cycleTime w.d.sys.rate / 2 ≤ |c.t0 - frcTime w|)
  | none => false

/-- An axis carries a curve in force (spec/12 R392). -/
def curveInForce (a : Nat) (w : Work) : Bool :=
  let ahead := pendingCurves w
  let t := frcTime w
  w.d.egv.curves.any (fun c => c.axes.contains a && !ahead.contains c.id && (match c.fin with
    | some f => decide (t < f)
    | none => true))


/-- A servo move at its effect: the placed curve gives way to the actual one (spec/12 R392, R393). -/
def fxMove (e : Effect) (w : Work) : Work :=
  let axes := opServos e.op e.ps w
  let away := placedAway e w
  let w := dropCurve e w
  if axes.any (fun a => (getPln a w).kind == .disabled) then (if away then egvChanged false w else egvWrite w)
  else
    let old := axes.any (fun a => curveInForce a w)
    let w := each axes egvCut (fxServo e.op e.ps w)
    let w := each axes (fun a w => if carriesCurve a w then egvEnter a w else w) w
    let w := each axes (fun a w => anchorAt 1 a (planMade a w)) w
    if away || old then egvChanged false w else egvWrite w

/-- The other planner commands at their effect; what no longer moves loses its curve below. -/
def fxPlan (e : Effect) (w : Work) : Work :=
  each (opServos e.op e.ps w) planMade (fxServo e.op e.ps w)

/-- A motion command or AXIS_DISABLE that takes effect on the axis of a brake test ends the test (spec/14 R470). -/
def brakeTouched (e : Effect) (w : Work) : Work :=
  match w.d.hdg.btCmd with
  | some (_, a) =>
    if [0x041, 0x042, 0x043, 0x044, 0x045, 0x046, 0x047, 0x080, 0x082].contains e.op && (opServos e.op e.ps w).contains a
    then btAbort w else w
  | none => w

/-- FAULT_CLEAR at its effect: the DETAIL of the cause that persists, or none (spec/06 R217, log 68). -/
def fxFaultClear (a : Nat) (w : Work) : Option Nat × Work :=
  let x := getCe a w
  if x.fcode == 0 then (none, w)
  else if x.missThis then (some 0x05, w)
  else if x.drvFault then (some 0x06, w)
  else (none, setCe a { x with fcode := 0, fmask := 0 } w)

/-- A pending ratio change of the slave an effect names is put in place (spec/05 R172). -/
def fxRatio (cmd : CmdRef) (ps : List Word) (w : Work) : Work :=
  let o := prm ps 1
  let p : RatioPend := {
    mc := prm ps 2, n := gearN (prm ps 3), d := gearD (prm ps 4), r := (prm ps 5).toNat, sigma := (prm ps 6).toInt
    cmd := cmd }
  if objKind o == 1 then
    modPln (objIndex o) (fun x => { x with gear := x.gear.map (fun g => { g with pend := some p }) }) w
  else modStp (objIndex o) (fun x => { x with gear := x.gear.map (fun g => { g with pend := some p }) }) w

/-- What a command does at its effect sync point: none, or the fault code it completes with. -/
def effectAt (e : Effect) (w : Work) : Option Nat × Work :=
  let a := fld (prm e.ps 1) 0 10
  let w := brakeTouched e w
  match e.op with
  | 0x042 | 0x043 | 0x044 | 0x045 => (none, fxMove e w)
  | 0x040 | 0x041 | 0x046 | 0x047 => (none, fxPlan e w)
  | 0x080 | 0x082 => if e.slow then (none, planMade (0x1000 + objIndex (prm e.ps 1)) w) else (none, fxPlan e w)
  | 0x048 => fxFaultClear a w
  | 0x081 => (none, if e.ps.isEmpty then w else fxRatio {} e.ps w)
  | 0x0C0 => (e.faulted, w)
  | 0x0C1 | 0x0C2 => let x := fld (prm e.ps 1) 0 12; (none, anchorAt 2 x (planMade (0x1000 + x) w))
  | 0x180 => (none, fxParam e w)
  | 0x1C0 => (none, fxArm (prm e.ps 1).toNat (prm e.ps 2) (e.ps.drop 2) w)
  | 0x1C1 => (none, fxDisarm (prm e.ps 1).toNat w)
  | 0x280 => (none, fxEgvMode (bit (prm e.ps 1) 0) w)
  | _ => (none, w)

/-- Complete a command at sync point c. -/
def complete (cmd : CmdRef) (f : Option Nat) (c : Word) (w : Work) : Work :=
  let w := forgetEarly cmd.id w
  match f with
  | some k => report cmd { status := stAxisFault, detail := k } w
  | none => report cmd { status := stOK, eff := some c } w

/-- A member of a committing bundle; one whose axis faulted since the decision has no effect (R125). -/
def commitMember (e : Effect) (w : Work) : Work :=
  if w.d.cmd.xfers.any (fun x => x.cmd.id == e.cmd.id) then w
  else if e.faulted.isSome && e.op != 0x0C0 then complete e.cmd e.faulted w.d.phase.ncc w
  else
    let (f, w) := effectAt e w
    complete e.cmd f w.d.phase.ncc w

/-- A bundle commits at the present sync point (R122 to R131, spec/15 R498). -/
def commitBundle (b : Bundle) (w : Work) : Work :=
  let c := w.d.phase.ncc
  let away := b.members.any (fun e => placedAway e w)
  let w := removeBundle b.id w
  let w := each b.members dropCurve w
  let w := each b.members commitMember w
  let w := complete b.commit none c w
  let k : Committed := {
    c := c, seq := hSeq b.commit.hdr, q := b.q, axes := b.members.flatMap (fun e => opServos e.op e.ps w)
    steppers := b.members.flatMap (fun e => opSteppers e.op e.ps w)
    points := b.members.flatMap (fun e => opPoints e.op e.ps) }
  let w := anchorAt 3 b.q { w with d.cmd.commits := w.d.cmd.commits ++ [k] }
  if away then egvChanged false w else w

/-- The effects of single commands at the present sync point, in the order of admission (R649). An IO_WRITE whose nodes
start later completes then (spec/01 R23). -/
def commitSingle (e : Effect) (w : Work) : Work :=
  let c := w.d.phase.ncc
  let t := effNcc e c w
  if t != c then { w with d.cmd.effects := w.d.cmd.effects ++ [{ e with time := .at t, early := true }] }
  else
    let (f, w) := effectAt e w
    let w := when_ (e.op == 0x081) (fun w => { w with
      d.cmd.effects := w.d.cmd.effects.filter (fun x => !(x.op == 0x081 && x.cmd.id == e.cmd.id)) }) w
    complete e.cmd f c w

/-- Everything that takes effect at the present sync point: bundles, then single commands (R127). -/
def effectsNow (slowNow : Bool) (w : Work) : Work :=
  let c := w.d.phase.ncc
  let w := each (w.d.cmd.bundles.filter (fun b => b.state == .armed && b.c == c)) (fun b w =>
    let (l, w) := earlyList (fun _ => some b.c) slowNow b.members w
    commitBundle { b with members := l } w) w
  let now := w.d.cmd.effects.filter (fun e => e.time == .at c)
  let w := { w with d.cmd.effects := w.d.cmd.effects.filter (fun e => e.time != .at c) }
  each now (fun e w =>
    let (e, w) := earlyPart c (slowNow || e.slow) e w
    commitSingle e w) w

/-! Gearing ratio changes (spec/05 R172, R173). -/

/-- Gearing of the slave of an object word, where it is in force. -/
def slaveGear (o : Word) (w : Work) : Option Gear :=
  if objKind o == 1 then (getPln (objIndex o) w).gear else (getStp (objIndex o) w).gear

/-- A GEAR_ENGAGE of the slave is admitted and still to take effect. -/
def engaging (o : Word) (w : Work) : Bool := (allEffects w).any (fun e => e.op == 0x080 && prm e.ps 1 == o)

/-- The ratio changes that wait for their master: put in place when the slave is geared, over when its gearing has ended
(log 87). -/
def ratioChanges (w : Work) : Work :=
  let l := w.d.cmd.effects.filter (fun e => match e.time with | .master _ => true | _ => false)
  each l (fun e w =>
    let o := prm e.ps 1
    match slaveGear o w with
    | some g => if g.pend.isNone && !(w.d.cmd.effects.any (fun x => x.op == 0x081 && x.ps.isEmpty && x.cmd.id == e.cmd.id))
        then fxRatio e.cmd e.ps w else w
    | none =>
      if engaging o w then w
      else report e.cmd { status := stOK, eff := some w.d.phase.ncc } { w with
        d.cmd.effects := w.d.cmd.effects.filter (fun x => !(x.op == 0x081 && x.cmd.id == e.cmd.id)) }) w

/-! The governor at a sync point. -/

/-- Curves of axes that no longer move as planned end, and GEAR_W follows gearing and soft start (spec/12 R388, R392). -/
def egvReconcile (w : Work) : Work :=
  let stale := (plnKnown w).filter (fun a => !carriesCurve a w && curveInForce a w)
  let w := each stale egvCut w
  let has := fun (a : Nat) (soft : Bool) => w.d.egv.gears.any (fun g => g.axis == a && g.soft == soft && g.fin.isNone)
  let want := fun (a : Nat) (soft : Bool) =>
    let x := getPln a w
    if soft then x.ssActive else x.gear.isSome
  let moves := (plnKnown w).flatMap (fun a => [false, true].filterMap (fun soft =>
    if plnParam (getPln a w) 0x117 != 0 && want a soft != has a soft then some (a, soft, want a soft) else none))
  let w := each (moves.filter (fun m => !m.2.2)) (fun m => egvGear m.1 false m.2.1) w
  let w := each (moves.filter (fun m => m.2.2)) (fun m => egvGear m.1 true m.2.1) w
  if stale.isEmpty && moves.isEmpty then w else egvChanged false w

/-! The cycle that ends. -/

/-- Node isolations whose effect is two sync points away are decided in the cycle that ends (spec/11 R376). -/
def isolateDue (w : Work) : Work :=
  let due := w.d.cmd.effects.filter (fun e => e.time == .at (nccPlus 2 w))
    ++ (w.d.cmd.bundles.filter (fun b => b.state == .armed && b.c == nccPlus 2 w)).flatMap (fun b => b.members)
  each (due.filter (fun e => e.op == 0x180 && objKind (prm e.ps 1) == 4 && prm e.ps 2 == 1)) (fun e w =>
    isolate (objNode (prm e.ps 1)).1 (objNode (prm e.ps 1)).2 w) w

/-- The Hedge lock is a decision of the cycle in which the window first shows it (spec/01 R31, spec/14 R473), from BOOT on
(spec/01 Table 1.8). -/
def lockDecided (w : Work) : Bool :=
  hasHedge w.variant && (fromConfig w.d.sys.st || w.d.sys.st == .boot) && w.d.sys.st != .safeLock && windowLocked w

/-- The decisions of the cycle that ends; a Hedge lock decided in it displaces a mode switch decided in it (spec/01 R31). -/
def cycleEnd (w : Work) : Work :=
  let w := phaseCycleEnd w
  let w := decideBundles (proposalDecide (when_ (lockDecided w) displaceSwitch w))
  runDelayed (isolateDue (when_ (lockDecided w) abortArmed w))

/-! The counters. -/

/-- The planner's use of the cycle that ends, and the shares of the new one (spec/05 Table 5.6, spec/04 R104). -/
def shareSync (w : Work) : Work :=
  let p := w.d.pln
  let ph := w.d.cmd.phNow
  let g := w.d.cmd.genNow
  { w with
    d.pln := { p with
      phUsed := ph, genUsed := g, phPeak := max p.phPeak ph, genPeak := max p.genPeak g }
    d.cmd.phNow := 0, d.cmd.decided := false }

/-- The new cycle's counters; u is the length of the old one. -/
def advance (u : Nat) (w : Work) : Work :=
  { w with
    d.pln.tick := w.d.pln.tick + u, d.phase.ncc := w.d.phase.ncc + 1, d.phase.lastUnits := u
    d.phase.frcSync := w.d.ptm.frc }

/-- Axes that faulted in the cycle that ends leave the planner here, and the engines begin a new cycle (spec/06 R215,
spec/05 R163). An axis that was not computed in the ended cycle has no position of the previous cycle (spec/06 R186); a
standby keeps the grafted one. -/
def axesSync (w : Work) : Work :=
  let l := w.d.ce.axes.map (fun kv => kv.1)
  let w := each l lateLogged w
  let w := each l (fun a w => if (getCe a w).newFault then
    let w := match w.d.hdg.btCmd with | some (_, b) => if a == b then btAbort w else w | none => w
    plnDisable a w else w) w
  let keep := w.d.sys.role == .standby
  let w := each l (fun a w => modCe a (fun x => ceFresh (if keep then x.posUsed else x.posUsed.filter (fun _ => x.started))
    { x with enableCycle := false, newFault := false }) w) w
  let w := each (w.d.ce.engines.map (fun kv => kv.1)) (fun n w => modEng n (fun g => { g with
    endPrev := g.endNow, endNow := 0 }) w) w
  each (w.d.fd.map (fun kv => kv.1)) (fun n w =>
    let u := getFd n w
    setFd n { u with busyPrev := u.busyNow, busyNow := 0 } w) w

/-! The cycle that begins. -/

/-- Members to be staged again take what is left of the share, the oldest change first; with it, what remains of both. -/
def takeRedo : Nat → List (Word × Nat) → Nat × List (Word × Nat)
  | u, [] => (u, [])
  | u, (t, n) :: r => if n ≤ u then takeRedo (u - n) r else (0, (t, n - u) :: r)

/-- One bundle takes its part of a cycle's general shares, units of the planner and plans of the step generators; the flags
it had up to here are those of this sync point (R120, R122, spec/08 R270). -/
def stageOne (units plans : Nat) (b : Bundle) : Nat × Nat × Bundle :=
  let k := min units b.unitsLeft
  let (left, redo) := takeRedo (units - k) b.redo
  let m := min plans b.plansLeft
  (left, plans - m, { b with
    flagsAtSync := b.flags, redoAtSync := b.redo.map (fun x => x.1), unitsLeft := b.unitsLeft - k, redo := redo
    plansLeft := b.plansLeft - m, flags := stageFlags (b.unitsLeft - k) (b.plansLeft - m) })

/-- Staging of the general shares, bundles in the order of their decision cycles, in what the class-B writes admitted in the
cycle before have left of the planner's (spec/04 R104, R105, R120, R122, spec/05 R154; log 136). -/
def stageBundles (w : Work) : Work :=
  let l := (w.d.cmd.bundles.filter (fun b => b.state == .staging)).mergeSort (fun x y =>
    match decisionAt x x.phase w, decisionAt y y.phase w with
    | some a, some b => decide (a ≤ b)
    | none, some _ => false
    | _, _ => true)
  let u := 8 - w.d.cmd.genNext
  let p := 32 - w.d.stp.genNow
  let (left, rest, w) := l.foldl (fun (acc : Nat × Nat × Work) (b : Bundle) =>
    let (left, rest, b) := stageOne acc.1 acc.2.1 b
    (left, rest, putBundle b acc.2.2)) (u, p, w)
  { w with
    d.cmd.genNow := 8 - left, d.cmd.genNext := 0, d.stp.genNow := w.d.stp.genNow + (p - rest) }

/-- What is kept of past cycles is let go (spec/04 R109, R130, spec/11 R358). -/
def pruneCycle (w : Work) : Work :=
  let n := w.d.phase.ncc
  let w := { w with
    d.cmd.commits := w.d.cmd.commits.filter (fun c => decide (modDiff n c.c ≤ (slowS w : Int) + 1))
    d.cmd.acyc := w.d.cmd.acyc.filter (fun x => decide (n.toNat ≤ x.2.1)) }
  each [false, true] (fun b w => modR b (fun r => { r with
    nodes := r.nodes.map (fun kv => (kv.1, { kv.2 with
      mlowRun := if kv.2.seenNow then kv.2.mlowNow else kv.2.mlowRun, mlowNow := false, seenNow := false }))
    gatherBack := false, goodNow := false, sent := r.sent.filter (fun s => decide (modDiff n s.ncc ≤ 1)) }) w) w

/-- The stamp of the sync point, the sync tick, and DCLK of the domain master (spec/20 R597, R610, spec/18 R554). -/
def stampSync (w : Work) : Work :=
  let (t, w) := ptStamp w
  let w := { w with d.ptm.sncc := w.d.phase.ncc, d.ptm.spt := t }
  let w := if nccN w % 2 ^ w.d.hif.tick == 0 then irq 9 w else w
  if w.d.boot.domEn && w.d.hvs.didx == 0 && w.d.pln.tick % 8 == 0 then
    send .dclk { w with d.boot.dclkAt := some w.d.ptm.frc }
  else w

/-- A STATE_REQUEST(RUN) that waits for the slot entries ends without its effect (log 90). -/
def dropRun (w : Work) : Work :=
  match w.d.trl.runWait with
  | some c => report c { status := stLate, detail := 0x05 } { w with d.trl.runWait := none }
  | none => w

/-- SAFE_LOCK is entered: all axes disabled; the cyclic exchange goes on, and a change of state on its way ends
(spec/01 Table 1.8, log 94). -/
def enterSafeLock (w : Work) : Work :=
  let w := disableAll (abortArmed w)
  let w := match w.d.trl.prop with
    | some p =>
      if p.target.isNone then w
      else if p.agreed then { w with d.trl.prop := some { p with target := none } } else dropProposal 0 false w
    | none => w
  setState .safeLock { dropRun w with d.sys.trans := false }

/-- The state a switch at this sync point led to (spec/12 R395, spec/15 Table 15.3, spec/11 R362). -/
def stateEntered (was : DevState) (w : Work) : Work :=
  if w.d.sys.st == was then w
  else match w.d.sys.st with
    | .run => hvsRun (egvRunEntry w)
    | .commission => if was == .plan then queueSlots [0] w else w
    | _ => w


/-! SYNC_POINT. -/

/-- The start of the next network cycle. -/
def syncPoint (w : Work) : Work :=
  if !w.d.sys.cycOn then w
  else
    let w := cycleEnd w
    let o := w
    let u := unitsOf w.d.sys.rate
    let was := w.d.sys.st
    let w := shareSync (hvsSample o (advance u w))
    let w := timesHeld w
    let w := nodesMode (isolPorts (healSwitch (switchMode (contendStop w))))
    let w := stateEntered was w
    let lock := lockDecided w
    let w := phaseDirect (phaseSync u (fpSync (axesSync w)))
    let slowNow := nccN w % slowS w == 0
    let w := when_ slowNow stpSyncFaults w
    let w := ratioChanges (effectsNow slowNow w)
    let w := earlyParts slowNow (ceShow w)
    let w := when_ lock enterSafeLock w
    let w := when_ w.d.phase.sampled phaseEval w
    let w := when_ slowNow stpSyncRefs w
    let w := phaseShow (egvSync (egvReconcile (plnSync w)))
    let w := graftSync (healMark w)
    let w := pruneCycle (stageBundles w)
    let w := hvsSnap (hvsAnchors (syncFrames w))
    let w := graftBuild (stampSync (nodesInit w))
    bpRefresh (graftShow (hvsShow (ringShow w)))

/-- SYNC_POINT (spec/01 R14). -/
def execSyncPoint (s : State) : Host.Outcome State Fault Refusal := run syncPoint s

/-- STATUS_WINDOW_REFRESH: where no sync point comes, SC0 enters SAFE_LOCK at once (spec/14 R450, R473, log 94). -/
def statusRefresh (w : Work) : Work :=
  let w := windowRefresh w
  if w.d.boot.start == .done && !w.d.boot.dead && !w.d.sys.cycOn && lockDecided w then enterSafeLock w else w

/-- STATUS_WINDOW_REFRESH. -/
def execStatusWindowRefresh (s : State) : Host.Outcome State Fault Refusal := runAny statusRefresh s

end Sys2Proof.Machine
end

