-- ==== Sys2Proof/Machine/RegRead.lean ====
section
/-! DEFINITION. Reads of registers: the word each register reads as, and what a read changes (spec/21 R612 to R614, R620,
R622, Tables 21.1 to 21.7 and 21.10). -/

namespace Sys2Proof.Machine

/-- The place of an address in an array of n instances of a stride: instance and offset. -/
def regAt (base stride n a : Nat) : Option (Nat × Nat) :=
  if base ≤ a && a < base + stride * n then some ((a - base) / stride, (a - base) % stride) else none

/-- High word of a 64-bit value (spec/20 Tables 20.10 to 20.13). -/
def hi28 (v : BitVec 64) : Word := wd (v.toNat / 2 ^ 36)

/-- A register of a unit the variant lacks (spec/00 R5, Table 21.11). -/
def regAbsent (a : Nat) (w : Work) : Bool :=
  (!isBig w.variant &&
    ((0x40180 ≤ a && a < 0x40200) || (0x41200 ≤ a && a < 0x41400) || (0x80000 ≤ a && a < 0xA0000)
      || (0xA0180 ≤ a && a < 0xA0200) || (0xB1400 ≤ a && a < 0xB1800) || (0xD8000 ≤ a && a < 0xE0000)
      || (0xE8000 ≤ a && a < 0xF0000)))
    || (!hasHedge w.variant && 0x28180 ≤ a && a < 0x28200)

/-! SYS, CLK, PWR, EGV (Table 21.2). -/

/-- SYS_STATE (spec/01 Table 1.10). -/
def sysStateWord (w : Work) : Word :=
  let s := w.d.sys
  wd (put 16 3 s.rstCause + put 8 4 (stCode s.prev) + putB 7 s.trans + putB 6 s.stale + put 4 2 (roleCode s.role)
    + put 0 4 (stCode s.st))

/-- SYS_CYC (spec/01 Table 1.11). -/
def sysCycWord (w : Work) : Word :=
  let s := w.d.sys
  wd (putB 12 s.cycOn + put 8 4 s.slowDiv + put 4 3 s.mode + putB 3 s.domain + put 0 3 s.rate)

/-- Registers of SYS. SYS_PHSRC and SYS_PHCPM read the value last written, also before it is in force at E (spec/02 R46,
log 131). -/
def sysReg (a : Nat) (w : Work) : Word :=
  match a with
  | 0x00 => if isBig w.variant then 0x128400000 else 0x126400000
  | 0x02 => sysCap0 w.variant
  | 0x03 => sysCap1 w.variant
  | 0x10 => sysStateWord w
  | 0x11 => sysCycWord w
  | 0x20 => phSrcWord (w.d.phase.srcNext.getD w.d.phase.src)
  | 0x21 => wd (put 0 24 (w.d.phase.cpmNext.getD w.d.phase.cpm))
  | 0x22 => w.d.phase.vmRate
  | 0x23 => w.d.phase.mph
  | 0x24 => w.d.phase.mphmShown
  | 0x25 => w.d.phase.ncc
  | 0x30 => sysBootWord w
  | 0x31 => sysCfgWord w
  | 0x32 => w.d.boot.cfgId
  | 0x34 => wd (putB 0 w.d.boot.perstWhole)
  | 0x40 => flCmdWord w
  | 0x41 => wd w.d.flash.addr
  | _ => if 0x80 ≤ a && a < 0xC0 then wd (put 0 32 (tabGet 0 w.d.flash.buf (a - 0x80))) else 0

def clkReg (a : Nat) (w : Work) : Word :=
  let b := w.d.boot
  match a with
  | 0x10000 => wd (putB 0 b.refsrc)
  | 0x10001 => wd (put 24 7 b.agePpm + put 20 4 b.fails + put 16 4 b.passes + put 0 12 b.lastC)
  | 0x10002 => mselWord w
  | 0x10003 => wd (put 0 32 b.mcnt)
  | 0x10004 => wd (gateNow w)
  | 0x10005 => wd (putB 3 b.prune + putB 2 b.refLock + putB 1 true)
  | 0x10006 => wd (putB 2 b.domLate + putB 1 b.domLoss + putB 0 b.domEn)
  | 0x10007 => wd (gateCeNow w)
  | _ => 0

def pwrReg (a : Nat) (w : Work) : Word :=
  let t := w.d.therm
  match a with
  | 0x18000 => wd (put 0 8 w.d.boot.bgrp.toNat)
  | 0x18200 => wd (put 4 9 t.tmax.toNat + put 2 2 (thermCode t.prev) + put 0 2 (thermCode t.state))
  | 0x18201 => wd (((List.range 4).map (fun k => put (9 * k) 9 (nth 0 t.sens k).toNat)).sum)
  | _ => 0

def egvReg (a : Nat) (w : Work) : Word :=
  match a with
  | 0x1C000 => wd w.d.egv.tlBase
  | 0x1C001 => egvStatWord w
  | 0x1C002 => wd w.d.egv.bin
  | 0x1C003 => fToWord w.d.egv.pnow
  | 0x1C004 => w.d.egv.xbin
  | _ => 0

/-! CMD, MBX, SEM, TDU (Tables 21.2, 21.4). -/

/-- A register of queue q at an offset (spec/03 Tables 3.11 to 3.19). -/
def queueReg (q off : Nat) (w : Work) : Word :=
  let x := getQ q w
  match off with
  | 0 => wd (putB 2 x.rmir + putB 1 x.loc + putB 0 x.en)
  | 1 => wd x.baseL
  | 2 => wd x.baseH
  | 3 => wd x.rslt
  | 4 => wd (put 0 9 x.head)
  | 5 => wd (put 0 9 x.tail)
  | 7 => wd (putB 3 x.dmaErr + putB 2 x.slotWait + putB 1 x.bp + putB 0 (queueFill x == 256))
  | 8 => wd x.mirL
  | 9 => wd x.mirH
  | _ => 0

/-- Committed bundles of a queue, the oldest first. -/
def committedOf (q : Nat) (w : Work) : List Bundle :=
  w.d.cmd.bundles.filter (fun b => b.q == q && (b.state == .staging || b.state == .armed))

/-- CMD_BNDq_STAT (spec/04 Table 4.11). -/
def bndStatWord (q : Nat) (w : Work) : Word :=
  let o := w.d.cmd.bundles.find? (fun b => b.q == q && (b.state == .open_ || b.state == .doomed))
  let st := match o with | some b => if b.state == .open_ then 1 else 2 | none => 0
  let m := match o with | some b => b.members.length | none => 0
  let c := committedOf q w
  let (s, f) := match c with | b :: _ => (hSeq b.commit.hdr, if b.redo.isEmpty then b.flags else b.flags % 16) | [] => (0, 0)
  wd (put 20 12 s + put 18 2 c.length + put 13 5 f + put 4 9 m + put 0 3 st)

/-- CMD_BNDq_CNCC (spec/04 Table 4.12). -/
def bndNccWord (q : Nat) (w : Work) : Word :=
  match (committedOf q w).find? (fun b => b.state == .armed) with | some b => b.c | none => 0

def cmdReg (a : Nat) (w : Work) : Word :=
  let c := w.d.cmd
  match regAt 0x20000 0x20 5 a, regAt 0x20190 4 5 a with
  | some (q, off), _ => queueReg q off w
  | none, some (q, off) => if off == 0 then bndStatWord q w else if off == 1 then bndNccWord q w else 0
  | none, none =>
    match a with
    | 0x20100 => wd c.evBase
    | 0x20101 => wd c.evLen
    | 0x20102 => wd c.evWr
    | 0x20103 => wd c.evRd
    | 0x20104 => wd (putB 0 c.evOvr)
    | 0x20180 => wd c.phMax
    | 0x20181 => wd (putB 0 c.ovspd)
    | 0x20182 => wd c.jBase
    | 0x20183 => wd (putB 16 c.tkoRdy + putB 15 c.jWait + put 0 15 c.tkoCnt)
    | _ => 0

def mbxReg (mid a : Nat) (w : Work) : Word :=
  match regAt 0x28000 0x20 16 a with
  | some (c, off) => if off == 0 then mbxBindWord c w else mbxRead mid c off w
  | none => if a == 0x28200 then wd (putB 0 w.d.mbx.lock) else if a == 0x28201 then mbxPend mid w else 0

/-- The semaphore block but for SEMn, whose read is a command of its own. -/
def semReg (a : Nat) (w : Work) : Word :=
  if a == 0x2C040 then semHeld 0 w else if a == 0x2C041 then semHeld 32 w
  else if 0x2C080 ≤ a && a < 0x2C0C0 then semPeek (a - 0x2C080) w else 0

def tduReg (a : Nat) (w : Work) : Word :=
  let t := w.d.tdu
  if a == 0x30000 then wd (putB 6 t.sat + putB 5 (byAffinity w.d.therm.state) + put 0 4 t.awake.toNat)
  else if 0x30010 ≤ a && a < 0x30018 then
    let n := a - 0x30010
    wd (put 7 7 (nth 0 t.peaks n) + put 0 7 (tduLevel n w).length)
  else if a == 0x30020 then wd t.refuse else 0

/-! CE, FD, PLN, STP, FP (Table 21.5). -/

/-- CEn_STAT (spec/06 Table 6.10). -/
def ceStatOf (n : Nat) (w : Work) : Word :=
  let k := cnt (fun p => p.2 % numCE w.variant == n) w.d.ce.order.zipIdx
  wd (put 7 2 (n % numFD w.variant) + put 2 5 k + putB 1 (getEng n w).late
    + putB 0 (k != 0 && w.d.sys.cycOn && ceClk n w))

def ceReg (a : Nat) (w : Work) : Word :=
  match regAt 0x40100 0x10 16 a, regAt 0x41000 4 256 a with
  | some (n, off), _ =>
    let e := getEng n w
    if off == 0 then ceStatOf n w else if off == 1 then wd (put 17 10 e.peak + put 0 17 e.endPrev) else 0
  | none, some (x, off) =>
    let c := getCe x w
    match off with
    | 0 => c.statShown
    | 1 => c.faultShown
    | 2 => c.dlShown
    | _ => 0
  | none, none => if a == 0x40000 then wd w.d.ce.imgBase else if a == 0x40001 then wd w.d.ce.stBase else 0

/-- FDn_STAT (spec/07 Table 7.20). -/
def fdStatWord (u : FdUnit) : Word :=
  let slot := match u.job with | some j => j.slot | none => if u.lastSlot < 4 then u.lastSlot else 0
  wd (putB 8 u.stop + putB 7 u.ecc2 + putB 6 u.ecc1 + putB 5 u.aov + putB 4 u.sat + put 2 2 slot + putB 1 u.job.isSome
    + putB 0 u.loaded)

def fdReg (a : Nat) (w : Work) : Word :=
  match regAt 0x60000 0x10000 4 a with
  | none => 0
  | some (n, off) =>
    let u := getFd n w
    match off with
    | 0 => wd u.pimg
    | 1 => wd u.yimg
    | 2 => fdStatWord u
    | 3 => wd (put 28 8 u.lAxis + put 26 2 u.lTap + put 23 3 u.lCause + put 0 13 u.lPc)
    | 4 => wd (put 28 8 u.pAxis + put 26 2 u.pTap + put 0 10 u.pTj)
    | 5 => wd (put 0 17 u.busyPrev)
    | 6 => wd (put 0 12 u.waitMax)
    | _ => if 0x2000 ≤ off then fdWinRead n off w else 0

def plnReg (a : Nat) (w : Work) : Word :=
  let p := w.d.pln
  if a == 0xA0000 then wd (put 12 4 p.phUsed + put 8 4 p.genUsed + put 4 4 p.phPeak + put 0 4 p.genPeak)
  else if 0xA0100 ≤ a && a < 0xA0200 then plnStateWord (a - 0xA0100) w else 0

def stpReg (a : Nat) (w : Work) : Word :=
  let p := w.d.stp
  match regAt 0xB1000 2 1032 a with
  | some (x, off) => if off == 0 then (getStp x w).statShown else (getStp x w).devShown
  | none =>
    match a with
    | 0xB0000 => wd p.stBase
    | 0xB0001 => wd p.tblBase
    | 0xB0002 => wd (put 18 6 p.phUsed + put 12 6 p.genUsed + put 6 6 p.phPeak + put 0 6 p.genPeak)
    | 0xB0003 => wd (put 8 8 p.linkErr.toNat + put 0 8 p.drvFlt.toNat)
    | _ => 0

/-- FPn_CFG (spec/09 Table 9.3). -/
def fpCfgWord (x : FpPort) : Word :=
  wd (put 18 10 x.spw + put 10 8 x.hfilt + put 6 4 x.filt + putB 5 x.fstop + putB 4 x.zgate + putB 3 x.zpol
    + putB 2 x.dir + put 0 2 x.mode)

def fpReg (a : Nat) (w : Work) : Word :=
  match regAt 0xC0000 0x10 8 a with
  | none => 0
  | some (n, off) =>
    let x := getFp n w
    match off with
    | 0x0 => fpCfgWord x
    | 0x1 => wd (put 24 12 x.idxWin + put 0 24 x.cpr)
    | 0x2 => wd (put 0 24 x.hcps)
    | 0x3 => x.cnt
    | 0x4 => x.scnt
    | 0x5 => x.idxl
    | 0x6 => x.idxf
    | 0x7 => wd x.idxd.toNat
    | 0x8 => fToWord x.spd
    | 0x9 => wd x.spde.toNat
    | 0xA => fpStatWord x
    | 0xB => wd (put 0 16 x.qill)
    | _ => 0

/-! DQA, DQB, TRL, GRF (Table 21.6). -/

/-- DQx_RSTAT (spec/11 Table 11.19). -/
def rstatWord (r : RingSt) : Word :=
  wd (put 29 7 r.loopE + put 22 7 r.loopW + put 15 7 r.found + put 8 7 r.isolPos + putB 7 r.line + putB 6 r.openSeen)

/-- DQx_Pp_STAT (spec/10 Table 10.14); a port transmits while the frames of its path leave by it (log 102). -/
def portStatWord (p : RPort) (tx : Bool) : Word :=
  wd (putB 6 p.rcrcSat + putB 5 p.downSeen + put 3 2 (if p.up then 2 else if p.cgs then 1 else 0) + putB 2 tx
    + putB 1 p.sig + putB 0 p.cgs)

/-- DQx_NODEn_STAT and DQx_NODEn_MARG (spec/11 Tables 11.21, 11.22). -/
def nodeStatWord (n : RNode) : Word :=
  wd (put 29 7 n.pos + putB 28 n.present + putB 27 n.passed + putB 26 n.isolated + putB 25 n.mlowSat
    + putB 24 n.babbleSat + putB 23 n.skewSat + putB 22 n.late + putB 21 n.slow + putB 20 n.hpAck + putB 19 n.ack)
def nodeMargWord (n : RNode) : Word :=
  wd (put 34 2 n.babble + put 18 16 n.mlow + put 0 16 (BitVec.ofInt 16 (n.minMarg.getD 0)).toNat)

/-- A register of a ring controller by its offset (R383: RSTAT and the node registers as at the last sync point). -/
def dqReg (b : Bool) (off : Nat) (w : Work) : Word :=
  let r := getR b w
  let s : RingSt := tabGet {} w.d.dqShown (ringKey b)
  match regAt 0x1004 4 126 off with
  | some (k, j) =>
    let n : RNode := tabGet {} s.nodes (k + 1)
    match j with
    | 0 => nodeStatWord n
    | 1 => nodeMargWord n
    | 2 => wd (put 12 12 n.fwdPlan + put 0 12 n.fwdLast)
    | _ => wd (put 0 16 n.skew)
  | none =>
    match off with
    | 0x0 => rstatWord s
    | 0x1 => wd (put 16 16 r.lamE + put 0 16 r.lamW)
    | 0x100 => portStatWord r.p0 (pathOpen b false w)
    | 0x101 => wd (put 0 32 r.p0.rcrc)
    | 0x110 => portStatWord r.p1 (pathOpen b true w)
    | 0x111 => wd (put 0 32 r.p1.rcrc)
    | _ => 0

/-- TRL_HPLAN (spec/11 Table 11.17). -/
def hplanWord (w : Work) : Word :=
  wd (putB 4 w.d.trl.offered + putB 3 (allAck w) + ((List.range 3).map (fun k => putB k (modeRec (k + 1) w).valid)).sum)

def trlReg (a : Nat) (w : Work) : Word :=
  match a with
  | 0xE0000 => wd w.d.trl.base
  | 0xE0001 => wd w.d.trl.smap
  | 0xE0002 => w.d.trl.shownStat
  | 0xE0003 => w.d.trl.propN
  | 0xE0004 => wd (put 0 16 w.d.trl.epoch)
  | 0xE0005 => hplanWord w
  | _ => if 0xE0010 ≤ a && a < 0xE0018 then nth 0 w.d.trl.shownModes (a - 0xE0010) else 0

def grfReg (a : Nat) (w : Work) : Word :=
  let g := w.d.grf
  match a with
  | 0xE8000 => wd (putB 0 g.en)
  | 0xE8001 => g.shownStat
  | 0xE8002 => g.shownLast
  | 0xE8003 => g.tkoL
  | 0xE8004 => wd (put 0 32 g.miss)
  | 0xE8005 => wd (put 16 16 g.sizePeak + put 0 16 g.sizeLast)
  | 0xE8006 => wd (put 16 16 g.cap + put 0 16 g.allow)
  | 0xE8007 => g.shownPstat
  | _ => 0

/-! HDG, HVS, MEM, AGE, PTM, HIF (Table 21.7). -/

def hvsReg (a : Nat) (w : Work) : Word :=
  let h := w.d.hvs
  match a with
  | 0xF4000 => wd h.dbase
  | 0xF4001 => wd h.bbase
  | 0xF4002 => wd h.blen
  | 0xF4003 => wd h.mbase
  | 0xF4004 => h.shownStat
  | 0xF4006 => wd (put 4 4 h.xfilt + put 0 4 h.xlevel.toNat)
  | 0xF4020 => wd (putB 2 h.calOk + put 0 2 h.didx)
  | 0xF4021 => wd (put 0 16 (BitVec.ofInt 16 h.dcomp).toNat)
  | 0xF4022 => wd (put 0 16 h.tcomp)
  | _ => if 0xF4010 ≤ a && a < 0xF4018 then nth 0 h.shownSets (a - 0xF4010) else 0

def memReg (a : Nat) (w : Work) : Word :=
  let m := w.d.mem
  match a with
  | 0xF8000 => wd (putB 0 m.arb)
  | 0xF8001 => memClrWord w
  | 0xF8002 => memSpareWord w
  | 0xF8003 => wd m.retmark.toNat
  | 0xF8004 => wd (putB 16 m.pcrcSat + put 0 16 m.pcrc)
  | 0xF8005 => memSweepWord w
  | 0xF8006 => memUeWord w
  | 0xF8007 => wd m.confSat.toNat
  | 0xF8008 => wd m.cerrSat.toNat
  | _ =>
    if 0xF8100 ≤ a && a < 0xF8120 then wd (put 0 24 (tabGet 0 m.cerr (a - 0xF8100)))
    else if 0xF8200 ≤ a && a < 0xF8220 then wd (put 0 32 (tabGet 0 m.conf (a - 0xF8200))) else 0

def ageReg (a : Nat) (w : Work) : Word :=
  match a with
  | 0xFA000 => wd w.d.age.base
  | 0xFA001 => wd (put 0 16 w.d.age.cerrLim)
  | 0xFA002 => ageStatWord w
  | 0xFA003 => ageGuardWord w
  | _ => 0

/-- The words a MID has latched (spec/20 R611). -/
def latchOf (mid : Nat) (w : Work) : PtmLatch := tabGet {} w.d.ptm.latch mid

def ptmReg (mid a : Nat) (w : Work) : Word :=
  let p := w.d.ptm
  match a with
  | 0xFC000 => wd p.frc.toNat
  | 0xFC001 => (latchOf mid w).frch
  | 0xFC002 => wd (ptNow w).toNat
  | 0xFC003 => (latchOf mid w).nowh
  | 0xFC004 => p.rate
  | 0xFC005 => wd p.ofs.toNat
  | 0xFC006 => hi28 p.ofs
  | 0xFC007 => wd p.frcB.toNat
  | 0xFC008 => hi28 p.frcB
  | 0xFC009 => p.jmax
  | 0xFC00A => wd (putB 1 p.jumpRefused + putB 0 p.set)
  | 0xFC010 => p.sncc
  | 0xFC011 => (latchOf mid w).sptl
  | 0xFC012 => (latchOf mid w).spth
  | _ => 0

def hifReg (a : Nat) (w : Work) : Word :=
  let h := w.d.hif
  match a with
  | 0xFE000 => wd h.istat.toNat
  | 0xFE001 => wd h.ienp.toNat
  | 0xFE002 => wd h.iens.toNat
  | 0xFE003 => wd (put 0 4 h.tick)
  | 0xFE004 => wd (putB 9 h.cto + putB 8 h.msixEn + putB 7 h.linkUp + put 4 3 h.speed + put 0 4 h.width)
  | 0xFE005 => wd (putB 2 h.badCmd + putB 1 h.partialWr + putB 0 h.under)
  | _ => if 0xFE010 ≤ a && a < 0xFE024 then wd (put 0 5 (nth 0 h.ivec (a - 0xFE010))) else 0

/-- What a register reads as for a MID; a reserved address and a register of an absent unit read zero (R5, R613, R622). -/
def regWord (mid a : Nat) (w : Work) : Word :=
  if regAbsent a w then 0
  else if a < 0x10000 then sysReg a w
  else if a < 0x18000 then clkReg a w
  else if a < 0x1C000 then pwrReg a w
  else if a < 0x20000 then egvReg a w
  else if a < 0x28000 then cmdReg a w
  else if a < 0x2C000 then mbxReg mid a w
  else if a < 0x30000 then semReg a w
  else if a < 0x40000 then tduReg a w
  else if a < 0x60000 then ceReg a w
  else if a < 0xA0000 then fdReg a w
  else if a < 0xB0000 then plnReg a w
  else if a < 0xC0000 then stpReg a w
  else if a < 0xD0000 then fpReg a w
  else if a < 0xD8000 then dqReg false (a - 0xD0000) w
  else if a < 0xE0000 then dqReg true (a - 0xD8000) w
  else if a < 0xE8000 then trlReg a w
  else if a < 0xF0000 then grfReg a w
  else if a < 0xF4000 then (if a < 0xF0008 then hdgRead (a - 0xF0000) w else 0)
  else if a < 0xF8000 then hvsReg a w
  else if a < 0xFA000 then memReg a w
  else if a < 0xFC000 then ageReg a w
  else if a < 0xFE000 then ptmReg mid a w
  else if a < 0x100000 then hifReg a w
  else 0

/-! What a read changes (Table 21.10). -/

/-- A counter that software has read at the value of the last sync point loses that value; what came since is kept
(R13, R383, log 95). -/
def readCount (live shown : Nat) : Nat := live - shown

/-- A read of a node register: SKEW, or the fields of MARG (Tables 11.22, 11.24). -/
def nodeReadEffect (b skew : Bool) (id : Nat) (w : Work) : Work :=
  let s : RingSt := tabGet {} w.d.dqShown (ringKey b)
  let x : RNode := tabGet {} s.nodes id
  let n := getNode b id w
  let show_ := fun (y : RNode) (w : Work) =>
    { w with d.dqShown := tabSet {} w.d.dqShown (ringKey b) { s with nodes := tabSet {} s.nodes id y } }
  if skew then show_ { x with skew := 0 } (setNode b id { n with skew := readCount n.skew x.skew } w)
  else show_ { x with mlow := 0, babble := 0, minMarg := none } (setNode b id { n with
    mlow := readCount n.mlow x.mlow, babble := readCount n.babble x.babble
    minMarg := if n.minMarg == x.minMarg then none else n.minMarg } w)

/-- A read of a ring controller's register. -/
def dqReadEffect (b : Bool) (off : Nat) (w : Work) : Work :=
  match regAt 0x1004 4 126 off with
  | some (k, j) => if j == 1 then nodeReadEffect b false (k + 1) w else if j == 3 then nodeReadEffect b true (k + 1) w else w
  | none =>
    if off == 0x101 then modR b (fun r => { r with p0 := { r.p0 with rcrc := 0 } }) w
    else if off == 0x111 then modR b (fun r => { r with p1 := { r.p1 with rcrc := 0 } }) w else w

/-- LATCHING_READ's part: the related words of the same instant are kept for the MID (spec/20 R611): 0 PTM_FRCL,
1 PTM_NOWL, 2 PTM_SNCC. -/
def ptmLatch (mid k : Nat) (w : Work) : Work :=
  let l := latchOf mid w
  let p := w.d.ptm
  let l := match k with
    | 0 => { l with frch := hi28 p.frc }
    | 1 => { l with nowh := hi28 (ptNow w) }
    | _ => { l with sptl := wd p.spt.toNat, spth := hi28 p.spt }
  { w with d.ptm.latch := tabSet {} p.latch mid l }

/-- The effect of a register read by a MID (Table 21.10), but for SEMn. -/
def readEffect (mid a : Nat) (w : Work) : Work :=
  if regAbsent a w then w
  else if 0x28000 ≤ a && a < 0x28200 then
    let c := (a - 0x28000) / 32
    let off := (a - 0x28000) % 32
    if off == 0 || (4 < off && off < 8) || 24 ≤ off then w
    else
      let w := (mbxAccess mid c w).2
      if off == 4 then mbxModSide mid c (fun y => { y with slost := 0 }) w else w
  else if 0x30010 ≤ a && a < 0x30018 then { w with d.tdu.peaks := w.d.tdu.peaks.set (a - 0x30010) 0 }
  else if a == 0x30020 then { w with d.tdu.refuse := 0 }
  else if 0x40100 ≤ a && a < 0x40200 then
    if a % 16 == 1 then modEng ((a - 0x40100) / 16) (fun e => { e with peak := 0 }) w else w
  else if 0x60000 ≤ a && a < 0xA0000 then
    let n := (a - 0x60000) / 0x10000
    let u := getFd n w
    if a % 0x10000 == 4 then setFd n { u with pAxis := 0, pTap := 0, pTj := 0 } w
    else if a % 0x10000 == 6 then setFd n { u with waitMax := 0 } w else fdWinFound n (a % 0x10000) w
  else if a == 0xA0000 then { w with d.pln.phPeak := 0, d.pln.genPeak := 0 }
  else if a == 0xB0002 then { w with d.stp.phPeak := 0, d.stp.genPeak := 0 }
  else if 0xB1000 ≤ a && a < 0xB1000 + 2 * 1032 then
    if a % 2 == 1 then modStp ((a - 0xB1000) / 2) (fun x => { x with
      devPeak := if x.devPeak == fld x.devShown 16 16 then 0 else x.devPeak
      devShown := wd (fld x.devShown 0 16) }) w else w
  else if 0xC0000 ≤ a && a < 0xC0080 then
    let n := (a - 0xC0000) / 16
    if a % 16 == 0xA then modFp n (fun x => { x with idxNew := false }) w
    else if a % 16 == 0xB then modFp n (fun x => { x with qill := 0 }) w else w
  else if 0xD0000 ≤ a && a < 0xD8000 then dqReadEffect false (a - 0xD0000) w
  else if 0xD8000 ≤ a && a < 0xE0000 then dqReadEffect true (a - 0xD8000) w
  else if a == 0xE8004 then { w with d.grf.miss := 0 }
  else if a == 0xE8005 then { w with d.grf.sizePeak := 0 }
  else if a == 0xF8004 then { w with d.mem.pcrc := 0 }
  else if 0xF8100 ≤ a && a < 0xF8120 then { w with
    d.mem.cerr := tabSet 0 w.d.mem.cerr (a - 0xF8100) 0
    d.mem.cerrLogged := bvPut (a - 0xF8100) false w.d.mem.cerrLogged }
  else if 0xF8200 ≤ a && a < 0xF8220 then { w with d.mem.conf := tabSet 0 w.d.mem.conf (a - 0xF8200) 0 }
  else if a == 0xFC000 then ptmLatch mid 0 w
  else if a == 0xFC002 then ptmLatch mid 1 w
  else if a == 0xFC010 then ptmLatch mid 2 w
  else w

/-- Masters that never issue an access on the VX1264 (R622). -/
def confSilent (m : Nat) (w : Work) : Bool :=
  !isBig w.variant && ((14 ≤ m && m ≤ 21) || m == 24 || m == 25 || m == 28)

/-- Conflicts that arbitration brought since the last read: their count is not the model's to know (log 51); at its maximum
the counter stops, with its flag and its event (R52, R54). -/
def confArrive (a : Nat) (w : Work) : Work :=
  if 0xF8200 ≤ a && a < 0xF8220 && !confSilent (a - 0xF8200) w then
    let (k, w) := freeN (2 ^ 32) w
    let m := a - 0xF8200
    let old := tabGet 0 w.d.mem.conf m
    let n := min 0xFFFFFFFF (old + k)
    let hit := decide (old < n) && n == 0xFFFFFFFF
    when_ hit (logCntSat .mem 0 a 0) { w with
      d.mem.conf := tabSet 0 w.d.mem.conf m n
      d.mem.confSat := if hit then bvPut m true w.d.mem.confSat else w.d.mem.confSat }
  else w

/-- One read of a register by a MID: the word, and what the read changes (R620). -/
def regRead (mid a : Nat) (w : Work) : Word × Work :=
  if 0x2C000 ≤ a && a < 0x2C040 then semRead mid (a - 0x2C000) w
  else
    let w := confArrive a w
    (regWord mid a w, readEffect mid a w)

/-- The registers whose read clears a counter, a peak or a flag (Table 21.10). -/
def rcReg (a : Nat) : Bool :=
  (0x28000 ≤ a && a < 0x28200 && a % 32 == 4) || (0x30010 ≤ a && a < 0x30018) || a == 0x30020
    || (0x40100 ≤ a && a < 0x40200 && a % 16 == 1)
    || (0x60000 ≤ a && a < 0xA0000 && (a % 0x10000 == 4 || a % 0x10000 == 6)) || a == 0xA0000 || a == 0xB0002
    || (0xB1000 ≤ a && a < 0xB1000 + 2 * 1032 && a % 2 == 1)
    || (0xC0000 ≤ a && a < 0xC0080 && (a % 16 == 0xA || a % 16 == 0xB))
    || (0xD0000 ≤ a && a < 0xE0000 &&
      (a % 0x8000 == 0x101 || a % 0x8000 == 0x111
        || (0x1004 ≤ a % 0x8000 && a % 0x8000 < 0x11FC && (a % 4 == 1 || a % 4 == 3))))
    || a == 0xE8004 || a == 0xE8005 || a == 0xF8004 || (0xF8100 ≤ a && a < 0xF8120) || (0xF8200 ≤ a && a < 0xF8220)

/-- RC_READ: a register with an RC field is read; its word goes to the reader (R620). -/
def execRcRead (mid : Fin 32) (a : Nat) (s : State) : Host.Outcome State Fault Refusal :=
  run (fun w => if rcReg a then let (v, w) := regRead mid.val a w; send (.readData [v]) w else w) s

/-- LATCHING_READ: PTM_FRCL, PTM_NOWL or PTM_SNCC is read (spec/20 R611). -/
def execLatchingRead (mid : Fin 32) (k : Fin 3) (s : State) : Host.Outcome State Fault Refusal :=
  run (fun w =>
    let a := match k.val with | 0 => 0xFC000 | 1 => 0xFC002 | _ => 0xFC010
    let (v, w) := regRead mid.val a w
    send (.readData [v]) w) s

end Sys2Proof.Machine
end

