-- ==== Sys2Proof/Machine/RegWrite.lean ====
section
/-! DEFINITION. Writes of registers under their access types, gates and alignments (spec/21 R615, R617 to R619, R621, Tables
21.8 and 21.9; spec/00 Table 0.6). -/

namespace Sys2Proof.Machine

/-- The gate CONFIG of Table 21.9. -/
def inConfig (w : Work) : Bool := w.d.sys.st == .config

/-- A base register's value: 23 bits aligned down (R615). -/
def baseOf (n : Nat) (v : Word) : Nat := fld v 0 23 / n * n

/-- A flag after a W1C write of bit k. -/
def w1c (f : Bool) (v : Word) (k : Nat) : Bool := f && !bit v k

/-- A flag that reads as at the last sync point after a W1C write: what came since is kept (R12, R383, log 95). -/
def w1cLive (live shown : Bool) (v : Word) (k : Nat) : Bool := live && !(shown && bit v k)

/-- A register word as at the last sync point with the bits of a W1C write cleared. -/
def w1cWord (x v : Word) (mask : Word) : Word := x &&& ~~~(v &&& mask)

/-! SYS, CLK, EGV, TDU. -/

/-- SYS_FLCMD: ERR is W1C; outside CONFIG a write sets ERR; OP 0 does nothing (spec/18 R577, Table 18.14). -/
def flCmdWrite (v : Word) (w : Work) : Work :=
  let op := fld v 34 2
  if !inConfig w then { w with d.flash.err := true }
  else if op == 0 then { w with d.flash.err := w1c w.d.flash.err v 32 }
  else flashStart op (if op == 3 then 0 else fld v 17 8 + 1) (bit v 32) w

/-- SYS_RST: the whole device, or the units it names (spec/18 R567). -/
def sysRstWrite (v : Word) (w : Work) : Work := if rstKey v && bit v 0 then rstWhole v w else rstUnit v w

def sysWrite (a : Nat) (v : Word) (w : Work) : Work :=
  match a with
  | 0x20 => phsrcWrite v w
  | 0x21 => phcpmWrite v w
  | 0x22 => vmrateWrite v w
  | 0x30 => if bit v 8 then bootGo w else w
  | 0x31 => cfgReload v w
  | 0x33 => sysRstWrite v w
  | 0x34 => if inConfig w then { w with d.boot.perstWhole := bit v 0 } else w
  | 0x40 => flCmdWrite v w
  | 0x41 => { w with d.flash.addr := fld v 0 25 }
  | _ => if 0x80 ≤ a && a < 0xC0 then { w with d.flash.buf := tabSet 0 w.d.flash.buf (a - 0x80) (fld v 0 32) } else w

def clkWrite (a : Nat) (v : Word) (w : Work) : Work :=
  match a with
  | 0x10000 => if inConfig w then { w with d.boot.refsrc := bit v 0 } else w
  | 0x10001 => if w.d.sys.st == .plan then { w with d.boot.agePpm := fld v 24 7 } else w
  | 0x10002 => mselWrite v w
  | 0x10004 => gateWrite false v w
  | 0x10005 => { w with d.boot.prune := w1c w.d.boot.prune v 3 }
  | 0x10006 => { w with
      d.boot.domEn := if inConfig w then bit v 0 else w.d.boot.domEn
      d.boot.domLoss := w1c w.d.boot.domLoss v 1, d.boot.domLate := w1c w.d.boot.domLate v 2 }
  | 0x10007 => gateWrite true v w
  | _ => w

def egvRegWrite (a : Nat) (v : Word) (w : Work) : Work :=
  match a with
  | 0x1C000 => if inConfig w then { w with d.egv.tlBase := baseOf 2048 v } else w
  | 0x1C001 => { w with d.egv.excess := w1c w.d.egv.excess v 1, d.egv.runOff := w1c w.d.egv.runOff v 2 }
  | _ => w

/-! CMD, MBX, SEM. -/

def queueWrite (mid q off : Nat) (v : Word) (w : Work) : Work :=
  match off with
  | 0 => ctlWrite q v w
  | 5 => tailWrite mid q v w
  | 6 => relWrite mid q v w
  | 7 => if bit v 3 then dmaErrClear q w else w
  | _ => queueAddrWrite q off v w

def cmdWrite (mid a : Nat) (v : Word) (w : Work) : Work :=
  match regAt 0x20000 0x20 5 a with
  | some (q, off) => queueWrite mid q off v w
  | none =>
    match a with
    | 0x20100 => evConfigWrite false v w
    | 0x20101 => evConfigWrite true v w
    | 0x20103 => evrdWrite v w
    | 0x20104 => { w with d.cmd.evOvr := w1c w.d.cmd.evOvr v 0 }
    | 0x20180 => if inConfig w then { w with d.cmd.phMax := fld v 0 35 } else w
    | 0x20181 => { w with d.cmd.ovspd := w1c w.d.cmd.ovspd v 0 }
    | 0x20182 => if inConfig w then { w with d.cmd.jBase := baseOf 32768 v } else w
    | 0x20183 => { w with d.cmd.tkoRdy := w1c w.d.cmd.tkoRdy v 16 }
    | _ => w

def mbxRegWrite (mid a : Nat) (v : Word) (w : Work) : Work :=
  match regAt 0x28000 0x20 16 a with
  | none => if a == 0x28200 then mbxLock v w else w
  | some (c, off) =>
    if off == 0 then mbxBind c v w
    else if off == 2 then mbxSend mid c (fld v 0 4) w
    else if off == 3 then mbxPop mid c w
    else if off == 1 || off == 4 || (8 ≤ off && off < 24) then mbxWrite mid c off v (mbxAccess mid c w).2
    else w

def semRegWrite (mid a : Nat) (v : Word) (w : Work) : Work :=
  if a < 0x2C040 then semWrite mid (a - 0x2C000) w
  else if a == 0x2C0C0 then semForce mid (fld v 0 6) w else w

/-! CE, FD, STP, FP. -/

def ceWrite (a : Nat) (v : Word) (w : Work) : Work :=
  match regAt 0x40100 0x10 16 a, regAt 0x41000 4 256 a with
  | some (n, off), _ => if off == 0 && bit v 1 then modEng n (fun e => { e with late := false }) w else w
  | none, some (x, off) =>
    if off == 0 then modCe x (fun c => { c with
      regBump := w1cLive c.regBump (bit c.statShown 4) v 4, dspInit := w1cLive c.dspInit (bit c.statShown 3) v 3
      statShown := w1cWord c.statShown v 0x18 }) w
    else w
  | none, none =>
    if !inConfig w then w
    else if a == 0x40000 then { w with d.ce.imgBase := baseOf 131072 v }
    else if a == 0x40001 then { w with d.ce.stBase := baseOf 16384 v } else w

def fdRegWrite (a : Nat) (v : Word) (w : Work) : Work :=
  match regAt 0x60000 0x10000 4 a with
  | none => w
  | some (n, off) =>
    let u := getFd n w
    match off with
    | 0 => if inConfig w then setFd n { u with pimg := baseOf 16384 v } w else w
    | 1 => if inConfig w then setFd n { u with yimg := baseOf 8192 v } w else w
    | 2 => setFd n { u with
        stop := w1c u.stop v 8, ecc2 := w1c u.ecc2 v 7, ecc1 := w1c u.ecc1 v 6, aov := w1c u.aov v 5, sat := w1c u.sat v 4 } w
    | _ => if 0x2000 ≤ off then fdWindowWrite n off v w else w

def stpWrite (a : Nat) (v : Word) (w : Work) : Work :=
  match a with
  | 0xB0000 => if inConfig w then { w with d.stp.stBase := baseOf 8192 v } else w
  | 0xB0001 => if inConfig w then { w with d.stp.tblBase := baseOf 1024 v } else w
  | 0xB0003 => { w with d.stp.linkErr := w.d.stp.linkErr &&& ~~~(BitVec.ofNat 8 (fld v 8 8)) }
  | _ => w

/-- FPn_STAT: W1C flags, and IDX_REARM (spec/09 Table 9.12). -/
def fpStatWrite (n : Nat) (v : Word) (w : Work) : Work :=
  let w := modFp n (fun x => { x with
    qillSat := w1c x.qillSat v 10, pflt := w1c x.pflt v 9, drift := w1c x.drift v 8, herr := w1c x.herr v 7
    qerr := w1c x.qerr v 6 }) w
  if bit v 11 then fpRearm n w else w

def fpWrite (a : Nat) (v : Word) (w : Work) : Work :=
  match regAt 0xC0000 0x10 8 a with
  | none => w
  | some (n, off) =>
    match off with
    | 0x0 => fpCfgWrite n v w
    | 0x1 => modFp n (fun x => { x with idxWin := fld v 24 12, cpr := fld v 0 24 }) w
    | 0x2 => modFp n (fun x => { x with hcps := fld v 0 24 }) w
    | 0x3 => fpCntWrite n v w
    | 0xA => fpStatWrite n v w
    | _ => w

/-! DQA, DQB, TRL, GRF. -/

/-- The W1C flags of a node (spec/11 Table 11.21). -/
def nodeStatWrite (b : Bool) (id : Nat) (v : Word) (w : Work) : Work :=
  let s : RingSt := tabGet {} w.d.dqShown (ringKey b)
  let x : RNode := tabGet {} s.nodes id
  let w := modNode b id (fun n => { n with
    mlowSat := w1cLive n.mlowSat x.mlowSat v 25, babbleSat := w1cLive n.babbleSat x.babbleSat v 24
    skewSat := w1cLive n.skewSat x.skewSat v 23, late := w1cLive n.late x.late v 22
    slow := w1cLive n.slow x.slow v 21 }) w
  let y := { x with
    mlowSat := w1c x.mlowSat v 25, babbleSat := w1c x.babbleSat v 24, skewSat := w1c x.skewSat v 23
    late := w1c x.late v 22, slow := w1c x.slow v 21 }
  { w with d.dqShown := tabSet {} w.d.dqShown (ringKey b) { s with nodes := tabSet {} s.nodes id y } }

/-- The W1C flags of a ring port (spec/10 Table 10.14). -/
def portStatWrite (v : Word) (p : RPort) : RPort :=
  { p with rcrcSat := w1c p.rcrcSat v 6, downSeen := w1c p.downSeen v 5 }

def dqWrite (b : Bool) (off : Nat) (v : Word) (w : Work) : Work :=
  match regAt 0x1004 4 126 off with
  | some (k, j) => if j == 0 then nodeStatWrite b (k + 1) v w else w
  | none =>
    match off with
    | 0x0 =>
      let s : RingSt := tabGet {} w.d.dqShown (ringKey b)
      let w := modR b (fun r => { r with openSeen := w1cLive r.openSeen s.openSeen v 6 }) w
      { w with d.dqShown := tabSet {} w.d.dqShown (ringKey b) { s with openSeen := w1c s.openSeen v 6 } }
    | 0x100 => modR b (fun r => { r with p0 := portStatWrite v r.p0 }) w
    | 0x110 => modR b (fun r => { r with p1 := portStatWrite v r.p1 }) w
    | _ => w

def trlWrite (a : Nat) (v : Word) (w : Work) : Work :=
  let t := w.d.trl
  match a with
  | 0xE0000 => if inConfig w then { w with d.trl.base := baseOf 32768 v } else w
  | 0xE0001 => if inConfig w then { w with d.trl.smap := baseOf 65536 v } else w
  | 0xE0002 => { w with
      d.trl.aborted := w1cLive t.aborted (bit t.shownStat 12) v 12
      d.trl.invalid := w1cLive t.invalid (bit t.shownStat 9) v 9
      d.trl.shownStat := w1cWord t.shownStat v 0x1200 }
  | _ => w

def grfWrite (a : Nat) (v : Word) (w : Work) : Work :=
  let g := w.d.grf
  match a with
  | 0xE8000 => if inConfig w then { w with d.grf.en := bit v 0 } else w
  | 0xE8001 => { w with
      d.grf.missSat := w1cLive g.missSat (bit g.shownStat 15) v 15
      d.grf.capacity := w1cLive g.capacity (bit g.shownStat 14) v 14
      d.grf.yielded := w1cLive g.yielded (bit g.shownStat 13) v 13
      d.grf.tko := w1cLive g.tko (bit g.shownStat 12) v 12
      d.grf.shownStat := w1cWord g.shownStat v 0xF000 }
  | _ => w

/-! HVS, MEM, AGE, PTM, HIF. -/

def hvsWrite (a : Nat) (v : Word) (w : Work) : Work :=
  match a with
  | 0xF4000 => if inConfig w then { w with d.hvs.dbase := baseOf 4096 v } else w
  | 0xF4001 => if inConfig w then { w with d.hvs.bbase := baseOf 1024 v } else w
  | 0xF4002 => if inConfig w then { w with d.hvs.blen := fld v 0 22 } else w
  | 0xF4003 => if inConfig w then { w with d.hvs.mbase := baseOf 131072 v } else w
  | 0xF4005 => hvsForce v w
  | 0xF4006 => { w with d.hvs.xfilt := fld v 4 4 }
  | 0xF4020 => if inConfig w then { w with d.hvs.didx := fld v 0 2 } else w
  | _ =>
    if 0xF4010 ≤ a && a < 0xF4018 then
      let s := a - 0xF4010
      let shown := nth 0 w.d.hvs.shownSets s
      let w := modSet s (fun x => { x with mfail := w1cLive x.mfail (bit shown 29) v 29 }) w
      { w with d.hvs.shownSets := w.d.hvs.shownSets.set s (w1cWord shown v 0x20000000) }
    else w

def memRegWrite (a : Nat) (v : Word) (w : Work) : Work :=
  let m := w.d.mem
  match a with
  | 0xF8000 => if inConfig w then { w with d.mem.arb := bit v 0 } else w
  | 0xF8004 => { w with d.mem.pcrcSat := w1c m.pcrcSat v 16 }
  | 0xF8006 => { w with d.mem.ueValid := w1c m.ueValid v 35 }
  | 0xF8007 => { w with d.mem.confSat := m.confSat &&& ~~~(BitVec.ofNat 32 (fld v 0 32)) }
  | 0xF8008 => { w with d.mem.cerrSat := m.cerrSat &&& ~~~(BitVec.ofNat 32 (fld v 0 32)) }
  | _ => w

def ageWrite (a : Nat) (v : Word) (w : Work) : Work :=
  match a with
  | 0xFA000 => ageBaseWrite v w
  | 0xFA001 => if inConfig w then { w with d.age.cerrLim := fld v 0 16 } else w
  | 0xFA002 => { w with d.age.exhA := w1c w.d.age.exhA v 5, d.age.exhB := w1c w.d.age.exhB v 6 }
  | _ => w

def ptmWrite (a : Nat) (v : Word) (w : Work) : Work :=
  match a with
  | 0xFC009 => if inConfig w then { w with d.ptm.jmax := v } else w
  | 0xFC00A => { w with d.ptm.jumpRefused := w1c w.d.ptm.jumpRefused v 1 }
  | _ => w

/-- HIF_IENP: an enable bit that becomes 1 while its source bit is 1 asserts (spec/20 R598). -/
def ienpWrite (v : Word) (w : Work) : Work :=
  let old := w.d.hif.ienp
  let w := { w with d.hif.ienp := BitVec.ofNat 20 (fld v 0 20) }
  each ((List.range 20).filter (fun k => bit v k && !old.getLsbD k && w.d.hif.istat.getLsbD k)) irqAssert w

def hifWrite (a : Nat) (v : Word) (w : Work) : Work :=
  let h := w.d.hif
  match a with
  | 0xFE000 => { w with d.hif.istat := h.istat &&& ~~~(BitVec.ofNat 20 (fld v 0 20)) }
  | 0xFE001 => ienpWrite v w
  | 0xFE002 => { w with d.hif.iens := BitVec.ofNat 20 (fld v 0 20) }
  | 0xFE003 => { w with d.hif.tick := fld v 0 4 }
  | 0xFE004 => { w with d.hif.cto := w1c h.cto v 9 }
  | 0xFE005 => { w with
      d.hif.badCmd := w1c h.badCmd v 2, d.hif.partialWr := w1c h.partialWr v 1, d.hif.under := w1c h.under v 0 }
  | _ => if 0xFE010 ≤ a && a < 0xFE024 then { w with d.hif.ivec := h.ivec.set (a - 0xFE010) (fld v 0 5) } else w

/-- A write of a register by a MID. A reserved address and a register of an absent unit ignore it (R5, R613, R622). -/
def regWrite (mid a : Nat) (v : Word) (w : Work) : Work :=
  if regAbsent a w then w
  else if a < 0x10000 then sysWrite a v w
  else if a < 0x18000 then clkWrite a v w
  else if a < 0x1C000 then (if a == 0x18000 then bgrpWrite v w else w)
  else if a < 0x20000 then egvRegWrite a v w
  else if a < 0x28000 then cmdWrite mid a v w
  else if a < 0x2C000 then mbxRegWrite mid a v w
  else if a < 0x30000 then semRegWrite mid a v w
  else if a < 0x40000 then (if a == 0x30000 then { w with d.tdu.sat := w1c w.d.tdu.sat v 6 } else w)
  else if a < 0x60000 then ceWrite a v w
  else if a < 0xA0000 then fdRegWrite a v w
  else if a < 0xB0000 then w
  else if a < 0xC0000 then stpWrite a v w
  else if a < 0xD0000 then fpWrite a v w
  else if a < 0xD8000 then dqWrite false (a - 0xD0000) v w
  else if a < 0xE0000 then dqWrite true (a - 0xD8000) v w
  else if a < 0xE8000 then trlWrite a v w
  else if a < 0xF0000 then grfWrite a v w
  else if a < 0xF4000 then w
  else if a < 0xF8000 then hvsWrite a v w
  else if a < 0xFA000 then memRegWrite a v w
  else if a < 0xFC000 then ageWrite a v w
  else if a < 0xFE000 then ptmWrite a v w
  else if a < 0x100000 then hifWrite a v w
  else w

/-- Registers whose words the static transfer of the graft carries when they are written in CONFIG: those that hold what is
written and belong to nothing spec/13 R422 leaves out (R431, log 96). -/
def regCarried (a : Nat) : Bool :=
  [0x20, 0x21, 0x22, 0x34, 0x10000, 0x10004, 0x10006, 0x10007, 0x1C000, 0x20100, 0x20101, 0x20180, 0x20182, 0x40000,
    0x40001, 0xB0000, 0xB0001, 0xE0000, 0xE0001, 0xE8000, 0xF4000, 0xF4001, 0xF4002, 0xF4003, 0xF4006, 0xF4020, 0xF8000,
    0xFC009, 0xFE001, 0xFE002, 0xFE003].contains a
  || (0x60000 ≤ a && a < 0xA0000 && a % 0x10000 ≤ 1) || (0xC0000 ≤ a && a < 0xC0080 && a % 16 ≤ 3)
  || (0xFE010 ≤ a && a < 0xFE024)

/-- Keep the last word written to a register, in the order the registers were first written. -/
def regNote (a : Nat) (v : Word) (l : Tab Word) : Tab Word :=
  if l.any (fun kv => kv.1 == a) then l.map (fun kv => if kv.1 == a then (a, v) else kv) else l ++ [(a, v)]

/-- A register write of a host or another master, with the note of it for the graft. -/
def masterWrite (mid a : Nat) (v : Word) (w : Work) : Work :=
  let note := inConfig w && hasGraft w.variant && regCarried a
  let w := regWrite mid a v w
  when_ note (fun w => { w with d.grf.regs := regNote a v w.d.grf.regs }) w

/-- REGISTER_WRITE (R617, R618). -/
def execRegisterWrite (mid : Fin 32) (a : Nat) (v : Word) (s : State) : Host.Outcome State Fault Refusal :=
  run (masterWrite mid.val a v) s

end Sys2Proof.Machine
end

