-- ==== Sys2Proof/Machine/Graft.lean ====
section
/-! DEFINITION. Graft redundancy, the link: frames sent and received, missing frames, the standby's application of a set, and
the takeover (spec/13 R416 to R419, R426 to R443, spec/04 R136, R137, Tables 4.6, 13.2 to 13.4). -/

namespace Sys2Proof.Machine

/-! Sending (R416, R417, R419, R431). -/

/-- A frame leaves: header and body as Table 13.2 has them, the body padded to word pairs, packed and checked as ring frames
are (R417, spec/10 R315, R316). -/
def graftSend (kind k : Nat) (lane : Bool) (ncc : Word) (body : List Word) (w : Work) : Work :=
  let n := (body.length + 1) / 2
  let h0 := wd (put 32 4 kind + put 29 3 (2 * k + lane.toNat) + putB 28 lane + putB 27 (kind == 1 && w.d.grf.incomplete)
    + put 16 10 n + put 0 16 w.d.trl.epoch)
  let ws := [h0, ncc] ++ body ++ List.replicate (2 * n - body.length) 0
  send (.graft kind (frameBytes ws)) w

/-- The STATUS body (R418). -/
def statusBody (w : Work) : List Word :=
  let g := w.d.grf
  let wait := graftReady w && !g.suspect && !g.syncOk
  [wd (put 32 4 w.d.boot.unitId + put 30 2 (roleCode w.d.sys.role) + putB 29 w.d.sys.stale + putB 28 g.suspect
    + putB 27 wait + put 0 16 w.d.trl.epoch), 0]

/-- GRAFT_SLOT: a lane's slot k starts; a unit that is not the standby sends the next part of the set and of the background
stream, the standby its status. -/
def graftSlot (k : Nat) (lane : Bool) (w : Work) : Work :=
  if !graftRuns w || !laneUp lane w then w
  else if w.d.sys.role == .standby then graftSend 2 k lane w.d.grf.last (statusBody w) w
  else
    let room := 2 * pairsMax w.d.sys.rate
    let (ws, rest) := takeRecords room w.d.grf.out
    let w := { w with d.grf.out := rest }
    let (ws, w) := streamTake (room + 1) room ws w
    graftSend 1 k lane w.d.grf.outNcc ws w

/-! Records received (R421). -/

/-- One record: type, index, words. -/
structure GrfRecord where
  type : Nat := 0
  index : Nat := 0
  words : List Word := []
deriving DecidableEq, Repr

/-- The records of a frame body; the pad word has type 0. -/
def grfRecords : Nat → List Word → List GrfRecord
  | 0, _ => []
  | _, [] => []
  | f + 1, h :: r =>
    let n := fld h 20 12
    if fld h 32 4 == 0 then [] else ⟨fld h 32 4, fld h 0 20, r.take n⟩ :: grfRecords f (r.drop n)

/-- The device state of a SYS record in a frame body. -/
def sysStateIn (body : List Word) : Option Nat :=
  ((grfRecords body.length body).find? (fun r => r.type == 1)).map (fun r => (nth 0 r.words 9).toNat)

/-! Frames received (R418, R429, R439, R442, R443). -/

/-- A good SET frame at a standby. -/
def setFrame (seqi : Nat) (inc : Bool) (epoch : Nat) (ncc : Word) (body : List Word) (w : Work) : Work :=
  let g := w.d.grf
  let new := g.rxNcc != ncc
  let w := { w with
    d.trl.epoch := epoch
    d.grf.rx := tabIns (if new then [] else g.rx) seqi body
    d.grf.rxNcc := ncc, d.grf.rxBad := (!new && g.rxBad) || inc, d.grf.got := g.got ||| (1 <<< seqi), d.grf.missRun := 0
    d.grf.gotStatus := true }
  if g.suspect then setStale true { w with d.grf.suspect := false } else w

/-- The standby waits for the rings alone: the looping neighbours of its position unloop for the second sync point after, from
which on the rings folded there are whole (R443). -/
def ringWaitStart (w : Work) : Work :=
  let n := nccPlus 2 w
  each (ringsUsed w) (fun b w =>
    if (getR b w).line && foldedAtPartner b w then
      unloopSends b (n - 1) { w with d.grf.ringAt := w.d.grf.ringAt ++ [(b, n)] }
    else w) w

/-- A good STATUS frame at the unit in charge. -/
def statusFrame (v : Word) (w : Work) : Work :=
  let g := w.d.grf
  let role := fld v 30 2
  let fresh := role == 2 && g.pRole != 2
  let waitNow := bit v 27 && !g.pRingWait
  let w := { w with
    d.grf.gotStatus := true, d.grf.pUnit := fld v 32 4, d.grf.pRole := role, d.grf.pStale := bit v 29
    d.grf.pSuspect := bit v 28, d.grf.pRingWait := bit v 27, d.grf.pEpoch := fld v 0 16
    d.grf.statPos := if fresh then 0 else g.statPos, d.grf.rotPos := if fresh then 0 else g.rotPos }
  let w := when_ (waitNow && role == 2) ringWaitStart w
  if role == 2 && !bit v 29 && w.d.sys.role == .solo && (w.d.sys.st == .run || w.d.sys.st == .commission) then
    setRole .active w
  else w

/-- A frame whole on a lane, as its words; none where a code group of it or its check sequence is bad. -/
def graftWords (lane ok : Bool) (ws : List Word) (w : Work) : Work :=
  let h := nth 0 ws 0
  let body := ws.drop 2
  let kind := fld h 32 4
  let seqi := fld h 29 3
  let epoch := fld h 0 16
  let whole := ok && bit h 28 == lane && decide (seqi % 2 = lane.toNat) && ws.length == 2 + 2 * fld h 16 10
  let ahead := modDiffN 16 epoch w.d.trl.epoch
  let known := match w.d.sys.role, kind with
    | .standby, 1 => true
    | .solo, 2 | .active, 2 => true
    | _, _ => false
  if !graftUsed w || !whole then w
  else if w.d.sys.st == .discover && w.d.trl.listening && w.d.sys.role != .standby && kind == 1 then
    match sysStateIn body with
    | some t =>
      if t ≤ 4 then w
      else becomeStandby { w with
        d.trl.epoch := epoch, d.trl.listening := false, d.trl.builtIn := false, d.trl.step := none }
    | none => w
  else if w.d.sys.role != .standby && decide (0 < ahead) then { w with d.trl.yieldNext := true }
  else if !known then w
  else if w.d.sys.role == .standby then
    if ahead < 0 then w else setFrame seqi (bit h 27) epoch (nth 0 ws 1) body w
  else statusFrame (nth 0 body 0) { w with d.grf.got := w.d.grf.got ||| (1 <<< seqi) }

/-- GRAFT_FRAME_RECEIVED: the bytes of a frame, and whether every code group of it was good (R417, spec/10 R314 to R316). -/
def graftFrame (lane ok : Bool) (bytes : List Nat) (w : Work) : Work :=
  match (if ok then frameWords bytes else none) with
  | some ws => graftWords lane ok ws w
  | none => w

/-! Missing frames (R418, R429, R432). -/

/-- A standby's run of missing SET frames grows by one. -/
def setMissing (w : Work) : Work :=
  let g := w.d.grf
  let n := g.missRun + 1
  let w := if n == 1 then { w with
      d.grf.eligible := !w.d.sys.stale && !g.suspect, d.grf.suspect := true, d.grf.rotOk := false, d.grf.goodSets := 0 }
    else w
  let w := { w with d.grf.missRun := n, d.grf.rxBad := true }
  if n == 3 && g.decided.isNone then
    if w.d.grf.eligible then { w with d.grf.decided := some w.d.ptm.frc } else logEvent .grf 0 2 0 w
  else w

/-- One missing frame. -/
def frameMissing (w : Work) : Work :=
  let (n, sat) := satInc 0xFFFFFFFF w.d.grf.miss
  let w := { w with d.grf.miss := n, d.grf.missSat := w.d.grf.missSat || sat }
  let w := when_ sat (logCntSat .grf 0 0xE8004 0) w
  if w.d.sys.role == .standby then setMissing w else w

/-- GRAFT_SLOT_END: what has not come in slot k by its end is missing, in SEQI order over the lanes that count. -/
def graftSlotEnd (k : Nat) (w : Work) : Work :=
  if !graftRuns w then w
  else
    let due := [false, true].filter (fun b =>
      (if w.d.sys.role == .standby then laneCounts b w else laneUp b w) && !w.d.grf.got.testBit (2 * k + b.toNat))
    each due (fun _ w => frameMissing w) w

/-! The set applied (R426, R427). -/

/-- SYS: the phase state; mode and state come with the active's SYNC frames too (spec/01 R28). -/
def takeSys (l : List Word) (w : Work) : Work :=
  let f := w.d.phase
  let src := phSrcOf (nth 0 l 6)
  let head := if src.kind == 0 then nth 0 l 1 else nth f.mph f.hist 0
  let w := { w with
    d.phase.vm := nth 0 l 1, d.phase.rem := (nth 0 l 2).toNat, d.phase.hist := head :: [nth 0 l 3, nth 0 l 4, nth 0 l 5]
    d.phase.src := src, d.phase.cpm := (nth 0 l 7).toNat, d.phase.vmRate := nth 0 l 8
    d.grf.tkMode := fld (nth 0 l 11) 0 3, d.grf.cover := fld (nth 0 l 11) 0 3 != 0 }
  let m := fld (nth 0 l 10) 0 3
  if w.d.ce.order == tabGet [] w.d.ce.orders m then w else applyMode m w

/-- SERVO: an engine's part (spec/06 Table 6.7) and the planner's. -/
def takeServo (a : Nat) (l : List Word) (w : Work) : Work :=
  let s := nth 0 l 5
  let f := nth 0 l 7
  let w := modCe a (fun x => { x with
    ip := fOfWord (nth 0 l 0), iv := fOfWord (nth 0 l 1), posUsed := some (nth 0 l 2, fld (nth 0 l 3) 0 16)
    vhat := fOfWord (nth 0 l 4), region := some (fld s 0 3), page := fld s 3 1, missRun := fld s 4 2, enabled := bit s 6
    tsat := bit s 8, satt := fOfWord (nth 0 l 6), fmask := fld f 12 8, fcode := fld f 0 8 }) (wrs (stateAddr a w) (l.take 8) w)
  let p := nth 0 l 8
  let sp : SetPoint := { pos := nth 0 l 9, frac := fld (nth 0 l 10) 0 16, vel := fOfWord (nth 0 l 11),
                         acc := fOfWord (nth 0 l 12) }
  let kind := match fld p 0 4 with
    | 0 => MKind.hold | 1 => .posMove | 2 => .velMove | 3 => .stop | 4 => .quickStop | 5 => .geared | _ => .disabled
  let moves := kind == .posMove || kind == .velMove || kind == .stop || kind == .quickStop
  modPln a (fun x => { x with
    kind := kind, hold := (sp.pos.toInt : ℚ) + (sp.frac : ℚ) / 65536, prof := if moves then x.prof else none
    commanded := if kind == .disabled then x.commanded else some sp.pos, ssActive := bit p 12
    coord := if bit p 15 then some (fld p 16 8) else none
    gear := if kind == .geared then x.gear.map (fun g => { g with
      pos := ((nth 0 l 13).toInt : ℚ) + ((nth 0 l 14).toNat : ℚ) / (max 1 g.d : Nat), m := nth 0 l 15 }) else none })
    (setSp a sp w)

/-- STEP (spec/08 R290). -/
def takeStep (a : Nat) (l : List Word) (w : Work) : Work :=
  let f := nth 0 l 1
  modStp a (fun x => { x with
    p := nth 0 l 0, encOff := nth 0 l 2, fcode := fld f 13 8, unref := bit f 11, holdOn := bit f 10, release := bit f 9
    moving := bit f 7, table := fld f 5 2, missRun := fld f 3 2, encEn := bit f 2, pwr := bit f 0
    everEnabled := x.everEnabled || bit f 0
    hold := if x.prof.isSome then x.hold else ((nth 0 l 0).toInt : ℚ)
    gear := if bit f 8 then x.gear else none }) w

/-- OUT: words of the output image from an index on. -/
def takeOut (k : Nat) (l : List Word) (w : Work) : Work :=
  let keys := outKeys w
  each l.zipIdx (fun p w =>
    match keys[k + p.2]? with
    | some key => { w with d.trl.outImg := tabSet 0 w.d.trl.outImg key p.1 }
    | none => w) w

/-- JRN: the entry at the place its index gives, new or again (log 93). -/
def takeJrn (k : Nat) (l : List Word) (w : Work) : Work :=
  let x : JInherit := { words := l.take 4 ++ [wd k], params := l.drop 4 }
  let same := fun (y : JInherit) => fld (nth 0 y.words 4) 0 15 == k % 2 ^ 15
  let old := w.d.grf.jrn.filter (fun y => !same y)
  { w with d.grf.jrn := old ++ [x] }

/-- FURROW: words of a unit's X memory. -/
def takeFurrow (k : Nat) (l : List Word) (w : Work) : Work :=
  let n := k / 16384
  each l.zipIdx (fun p w => setFd n (fdWrite 0 (k % 16384 + p.2) p.1 (getFd n w)) w) w

/-- REG: the register takes the word as in CONFIG. -/
def takeReg (a : Nat) (v : Word) (w : Work) : Work :=
  let st := w.d.sys.st
  let w := regWrite 0 a v { w with d.sys.st := .config }
  { w with d.sys.st := st }

/-- One record of an applied set. -/
def takeRecord (r : GrfRecord) (w : Work) : Work :=
  match r.type with
  | 0x1 => takeSys r.words w
  | 0x2 => takeServo r.index r.words w
  | 0x3 => takeStep r.index r.words w
  | 0x4 => takeOut r.index r.words w
  | 0x5 => takeJrn r.index r.words w
  | 0x6 => { w with d.grf.plans := tabSet [] w.d.grf.plans r.index r.words }
  | 0x7 => { w with d.grf.stage := tabSet [] w.d.grf.stage r.index r.words }
  | 0x8 => { w with d.grf.hedge := r.words }
  | 0x9 => takeFurrow r.index r.words w
  | 0xA => wrs (bankLo + 4 * r.index) r.words w
  | 0xB => takeReg r.index (nth 0 r.words 0) w
  | _ => w

/-- Segments of a plan's numbers, three each. -/
def planSegs : Nat → List ℚ → List Seg
  | 0, _ => []
  | f + 1, j :: d :: t :: r => { jerk := j, dur := d, tag := t.floor.toNat } :: planSegs f r
  | _, _ => []

/-- A plan's motion from its numbers: kind, instant, and the gearing or the profile (log 47). -/
def planMotion (q : List ℚ) : MKind × Option Gear × Option Prof :=
  let n := fun k => q.getD k 0
  let kind := match (n 0).floor.toNat with
    | 1 => MKind.posMove | 2 => .velMove | 3 => .stop | 4 => .quickStop | 5 => .geared | _ => .hold
  if kind == .geared then
    (kind, some {
      master := { kind := (n 2).floor.toNat, index := (n 3).floor.toNat, feedback := n 4 != 0 }
      n := (n 5).floor, d := max 1 (n 6).floor.toNat }, none)
  else
    (kind, none, some {
      t0 := n 1, start := { p := n 2, v := n 3, a := n 4 }, segs := planSegs q.length (q.drop 7)
      target := if n 5 == 0 then none else some (n 6) })

/-- A plan of an axis, or of a stepper from 0x1000 on, comes into force. -/
def installPlan (x : Nat) (q : List ℚ) (w : Work) : Work :=
  let (k, g, f) := planMotion q
  if x < 0x1000 then modPln x (fun y => { y with kind := k, gear := g, prof := f }) w
  else modStp (x - 0x1000) (fun y => { y with kind := k, gear := g, prof := f }) w

/-- The plans that are in force at an instant are installed; the others stay. -/
def plansUpTo (t : ℚ) (w : Work) : Work :=
  let due := w.d.grf.plans.filter (fun kv => decide ((Config.graftPlan kv.2).getD 1 0 ≤ t))
  let w := { w with d.grf.plans := w.d.grf.plans.filter (fun kv => !decide ((Config.graftPlan kv.2).getD 1 0 ≤ t)) }
  each due (fun kv w => installPlan kv.1 (Config.graftPlan kv.2) w) w

/-- Every mode the base configuration gives, with its place in the trellis, engine order and deadlines, as the standby
works them out of what the static transfer brought (log 99). -/
def standbyModes (w : Work) : Work :=
  let cs := (List.range 8).filterMap (fun m => (schedOf m (planGuard w) (imageOf w)).filter (fun c =>
    decide (c.rate ≤ rateCeil w)))
  let w := { w with d.trl.modes := [], d.ce.orders := [], d.ce.deadlines := [] }
  (cs.foldl (fun (acc : Nat × Work) c =>
    let (at_, w) := acc
    let order := axisOrder c w
    let r : ModeRec := { valid := true, hsrc := planHsrc c w, rate := c.rate, slowl := Nat.log2 (slowOf c.rate),
                         count := c.entries.length, first := at_ }
    let w := { w with
      d.trl.modes := tabSet {} w.d.trl.modes c.mode r, d.ce.orders := tabSet [] w.d.ce.orders c.mode order }
    let w := each (List.range (numCE w.variant)) (fun e w =>
      let mine := (order.filter (fun a => order.idxOf a % numCE w.variant == e)).reverse
      each (startDls order c w mine none) (fun y w => { w with
        d.ce.deadlines := tabSet (0, 0) w.d.ce.deadlines (256 * c.mode + y.1) (y.2.1 / 10, y.2.2 / 10) }) w) w
    (at_ + c.entries.length, w)) (0, w)).2

/-- Every frame of the set that is under way has come (R426). -/
def setWhole (w : Work) : Bool :=
  let g := w.d.grf
  !g.rxBad && !g.rx.isEmpty &&
    (List.range 8).all (fun s => !laneCounts (s % 2 == 1) w || g.rx.any (fun kv => kv.1 == s))

/-- GRAFT_SET_APPLY: a set that is whole is applied record by record; another is discarded whole (R426, R428). -/
def setApply (stat rot : Bool) (w : Work) : Work :=
  if w.d.sys.role != .standby then w
  else if !setWhole w then { w with d.grf.rx := [], d.grf.rxBad := true, d.grf.rotOk := false, d.grf.goodSets := 0 }
  else
    let recs := (List.range 8).flatMap (fun s => let b := tabGet [] w.d.grf.rx s; grfRecords b.length b)
    let w := each recs takeRecord w
    let w := when_ (stat && !w.d.grf.staticOk) standbyModes w
    let w := plansUpTo (syncTime w) w
    let g := w.d.grf
    let s := g.staticOk || stat
    { w with
      d.grf.staticOk := s, d.grf.rotOk := g.rotOk || (s && rot), d.grf.goodSets := g.goodSets + 1
      d.grf.last := g.rxNcc, d.grf.rx := [], d.grf.rxBad := true }

/-! The inherited journal (spec/04 R136, Table 4.6). -/

/-- An inherited command: its journal entry, parameters, and whether it is phased. -/
structure Inherited where
  e : JEntry := {}
  ps : List Word := []
  phased : Bool := false
deriving DecidableEq, Repr

/-- The entry a JRN record describes, under an identity of this unit. -/
def inheritOf (id : Nat) (x : JInherit) : Inherited :=
  let a := nth 0 x.words 0
  let b := nth 0 x.words 1
  let k := nth 0 x.words 4
  let st := fld a 0 8
  { e := {
      id := id, pos := fld k 0 12, opcode := fld a 26 10, q := fld a 23 3, member := bit a 22, seq := fld a 8 12
      status := st, effKnown := bit b 31, tko := bit b 30, detail := fld b 16 8, delay := fld b 0 16
      acc := nth 0 x.words 2, eff := nth 0 x.words 3 }
    ps := x.params, phased := bit k 19 }

/-- The command behind it. -/
def inhCmd (x : Inherited) : CmdRef :=
  { id := x.e.id, q := x.e.q, entry := 0
    hdr := wd (put 26 10 x.e.opcode + put 20 6 x.ps.length + put 8 12 x.e.seq + putB 1 x.e.member + putB 0 x.phased) }

/-- Its parameters without the phase word, and the target phase. -/
def inhPs (x : Inherited) : List Word := if x.phased then x.ps.drop 1 else x.ps
def inhTarget (x : Inherited) : Word := if x.phased then nth 0 x.ps 0 else 0

/-- Phase at a sync point, past or to come. -/
def phaseOf (j : Word) (w : Work) : Word :=
  let d := modDiff w.d.phase.ncc j
  if d < 0 then mphAhead (-d).toNat w else nth w.d.phase.mph w.d.phase.hist d.toNat

/-- A phase is at or past at some sync point of a run of sync points of its class. -/
def phaseIn (slow : Bool) (p from_ : Word) (n : Nat) (w : Work) : Bool :=
  (List.range n).any (fun k =>
    let j := from_ + wd k
    (!slow || j.toNat % slowS w == 0) && atOrPast (phaseOf j w) p)

/-- When an effect falls as seen from cycle L: 0 up to L + 1, 1 from L + 2 to L + 6, 2 later or not yet. -/
def fallsAt (l : Word) (slow : Bool) (known : Option Word) (phase : Option Word) (w : Work) : Nat :=
  match known, phase with
  | some c, _ => if atOrPast (l + 1) c then 0 else if atOrPast (l + 6) c then 1 else 2
  | none, some p => if phaseIn slow p (l - 1) 3 w then 0 else if phaseIn slow p (l + 2) 5 w then 1 else 2
  | none, none => 2

/-- The effect was at sync point L or before, so that the command was final at the end of L (log 141). -/
def finalBy (l : Word) (slow : Bool) (known : Option Word) (phase : Option Word) (w : Work) : Bool :=
  match known, phase with
  | some c, _ => atOrPast l c
  | none, some p => phaseIn slow p (l - 1) 2 w
  | none, none => false

/-- The sync point at which a phased effect fell, up to L + 1, where the history of the phase reaches back to it (R98). -/
def fellAt (l : Word) (slow : Bool) (known : Option Word) (phase : Option Word) (w : Work) : Option Word :=
  match known, phase with
  | some c, _ => some c
  | none, some p => ((List.range 64).map (fun k => l + 1 - wd (63 - k))).find? (fun j =>
      (!slow || j.toNat % slowS w == 0) && decide (modDiff w.d.phase.ncc j < w.d.phase.hist.length) && atOrPast (phaseOf j w) p)
  | none, none => none

/-- The fault code of a faulted axis a command names. -/
def inhFault (x : Inherited) (w : Work) : Option Nat :=
  let s := (opServos x.e.opcode (inhPs x) w).filter (fun a => (getCe a w).fcode != 0 && !faultExempt 1 x.e.opcode)
  let t := (opSteppers x.e.opcode (inhPs x) w).filter (fun a => (getStp a w).fcode != 0 && !faultExempt 2 x.e.opcode)
  match s, t with
  | a :: _, _ => some (getCe a w).fcode
  | [], a :: _ => some (getStp a w).fcode
  | [], [] => none

/-- Commands whose course hangs on an agreement, a node or the Hedge island of the old active (log 100). -/
def inhLost (x : Inherited) : Bool :=
  [0x001, 0x002, 0x200].contains x.e.opcode || (!x.e.effKnown && !x.phased && x.e.opcode != 0x081)

/-- When an inherited GEAR_RATIO_AT falls, as fallsAt says it: it has acted where the slave follows its ratio; else its master
reaches the position by L + 6, or does not (spec/05 R172, log 141). -/
def ratioFalls (l : Word) (x : Inherited) (w : Work) : Nat :=
  let o := prm x.ps 1
  match gearOf o w with
  | none => 2
  | some g =>
    if g.n == gearN (prm x.ps 3) && g.d == gearD (prm x.ps 4) then 0
    else
      let now := modDiff (prm x.ps 2) (masterAt g.master 0 w)
      let then_ := modDiff (prm x.ps 2) (masterAt g.master (modDiff (l + 6) w.d.phase.ncc).toNat w)
      if now.sign * then_ ≤ 0 then 1 else 2

/-- An inherited effect of the new active's own. -/
def inhEffect (x : Inherited) (w : Work) : Effect :=
  let op := x.e.opcode
  let ps := inhPs x
  { cmd := inhCmd x, op := op, ps := if op == 0x081 then ps ++ [wdI (ratioSigma ps w)] else ps, slow := slowOp op ps
    target := inhTarget x, phased := x.phased, delay := x.e.delay, carried := carriedOf op ps w, adm := freshAdm w
    units := if slowOp op ps then stepperPlans op ps else plannerUnits op ps + replanUnits op ps w
    time := if x.e.effKnown then .at x.e.eff else if op == 0x081 then .master (prm ps 2) else .phase (inhTarget x) }

/-- What becomes of an inherited command that its grafted entry shows ACCEPTED: final already at the end of L, as the standby
derives it (R135); settled by the takeover (Table 4.6); or still to take effect. -/
inductive Settled where
  | was (st det : Nat) (eff : Option Word)
  | now (st det : Nat) (eff : Option Word)
  | live
deriving DecidableEq, Repr

/-- A command that is not of a bundle. -/
def settleOne (l : Word) (x : Inherited) (w : Work) : Settled :=
  let known := if x.e.effKnown then some x.e.eff else none
  let phase := if x.phased then some (inhTarget x) else none
  let slow := slowOp x.e.opcode (inhPs x)
  let k := if x.e.opcode == 0x081 then ratioFalls l x w else fallsAt l slow known phase w
  let e := fellAt l slow known phase w
  if k == 0 then (if finalBy l slow known phase w then .was stOK 0 e else .now stOK 0 e)
  else match inhFault x w with
    | some f => .now stAxisFault f none
    | none => if k == 1 || inhLost x then .now stTakeover 0 none else .live

/-- The bundles of one queue as its journal tells them in order of admission: the members of the open one, the committed ones,
and the commands whose end is known. -/
structure QSim where
  open_ : Option (List Inherited) := none
  comm : List (Inherited × List Inherited) := []
  ended : List (Inherited × Settled) := []
deriving DecidableEq, Repr

/-- The end of several commands. -/
def QSim.end_ (s : QSim) (xs : List Inherited) (r : Settled) : QSim := { s with ended := s.ended ++ xs.map (fun x => (x, r)) }

/-- The decision of a committed bundle had fallen by a cycle (R128): its effect is known, or its phase was reached. -/
def decidedBy (c : Word) (b : Inherited × List Inherited) (w : Work) : Bool :=
  let ahead := wd (if b.2.any (fun x => slowOp x.e.opcode (inhPs x)) then slowS w + 1 else 2)
  if b.1.e.effKnown then atOrPast (c + ahead) b.1.e.eff else atOrPast (phaseOf (c + ahead) w) (inhTarget b.1)

/-- One journal entry of the queue (R117 to R119, R128). -/
def inhStep (w : Work) (s : QSim) (x : Inherited) : QSim :=
  let st := x.e.status
  if x.e.opcode == 0x140 then (if st == stOK then { s with open_ := some [] } else s)
  else if x.e.opcode == 0x142 then
    match s.open_ with
    | some ms => { s.end_ ms (.was stAborted 0x03 none) with open_ := none }
    | none =>
      let gone := s.comm.filter (fun b => !decidedBy x.e.acc b w)
      { s.end_ (gone.flatMap (fun b => b.1 :: b.2)) (.was stAborted 0x03 none) with comm := s.comm.filter (fun b => decidedBy x.e.acc b w) }
  else if x.e.opcode == 0x141 then
    let ms := s.open_.getD []
    let s := { s with open_ := none }
    if st == stAccepted then { s with comm := s.comm ++ [(x, ms)] }
    else if st == stOK then s.end_ ms (.was stOK 0 (some x.e.eff))
    else s.end_ ms (.was stAborted (if st == stAborted then x.e.detail else 0x01) none)
  else if !x.e.member then s
  else if st == stAccepted then { s with open_ := some (s.open_.getD [] ++ [x]) }
  else if isFinal st && !([stOK, stAborted, stAxisFault, stTakeover].contains st) then
    { s.end_ (s.open_.getD []) (.was stAborted 0x01 none) with open_ := some [] }
  else s

/-- The grafted staging of a bundle: planner units, stepper plans, then the members to be staged again, after the queue and
SEQ of its commit; as the commit was admitted where none has come (log 47). -/
def stageIn (c : Inherited) (u p : Nat) (w : Work) : Nat × Nat × List (Word × Nat) :=
  match (w.d.grf.stage.map (fun kv => Config.graftStage kv.2)).find? (fun q => q.getD 0 0 == c.e.q && q.getD 1 0 == c.e.seq) with
  | some q => (q.getD 2 0, q.getD 3 0, pairs (q.drop 4))
  | none => (u, p, [])
where
  pairs : List Nat → List (Word × Nat)
    | a :: b :: r => (wd a, b) :: pairs r
    | _ => []

/-- A committed bundle that goes on under the new active (R122, Table 4.6). DEDUCED (log 142): one armed for L + 7 or later stays
armed, although R126 aborts an armed bundle at a takeover. -/
def liveBundle (c : Inherited) (ms : List Inherited) (w : Work) : Work :=
  let id := w.d.cmd.nextBundle
  let es := ms.map (fun x => { inhEffect x w with time := .bundle, bundle := some id })
  let (u, p, redo) := stageIn c ((es.map effUnits).sum) ((es.map effPlans).sum) w
  let armed := c.e.effKnown
  let b : Bundle := {
    id := id, q := c.e.q, state := if armed then .armed else .staging, expected := ms.length, members := es
    commit := inhCmd c, phase := inhTarget c, slow := es.any (fun e => e.slow), unitsLeft := u, plansLeft := p, redo := redo
    flags := stageFlags u p, flagsAtSync := stageFlags u p, redoAtSync := redo.map (fun x => x.1)
    c := if armed then c.e.eff else 0 }
  { w with d.cmd.bundles := w.d.cmd.bundles ++ [b], d.cmd.nextBundle := id + 1 }

/-- A committed bundle (R122, R125, Table 4.6): committed by L + 1, aborted for C from L + 2 to L + 6 or for a member's fault
before its decision, else live. -/
def settleBundle (l : Word) (b : Inherited × List Inherited) (w : Work) : List (Inherited × Settled) :=
  let c := b.1
  let slow := b.2.any (fun x => slowOp x.e.opcode (inhPs x))
  let known := if c.e.effKnown then some c.e.eff else none
  let k := fallsAt l slow known (some (inhTarget c)) w
  let all := fun (r : Settled) => (c :: b.2).map (fun x => (x, r))
  let e := fellAt l slow known (some (inhTarget c)) w
  if k == 0 then all (if finalBy l slow known (some (inhTarget c)) w then .was stOK 0 e else .now stOK 0 e)
  else if k == 1 then all (.now stAborted 0x04 none)
  else if !c.e.effKnown && b.2.any (fun x => (inhFault x w).isSome) then all (.was stAborted 0x02 none)
  else (c, .live) :: b.2.map (fun x => (x, match inhFault x w with | some f => .now stAxisFault f none | none => .live))

/-- The end of an inherited command in the journal: none for one that goes on; TKO for what was not final at L (R136). -/
def settleEntry (x : Inherited) (r : Settled) (w : Work) : Work :=
  let heir := fun (w : Work) => { w with d.grf.heirs := w.d.grf.heirs ++ [x.e.id] }
  let put := fun (st det : Nat) (eff : Option Word) (t : Bool) => putJournal (inhCmd x) (fun j => { j with
    status := st, detail := det, eff := eff.getD j.eff, effKnown := j.effKnown || eff.isSome, tko := j.tko || t }) w
  match r with
  | .was st det eff => put st det eff false
  | .now st det eff => heir (put st det eff true)
  | .live => heir (putJournal (inhCmd x) (fun j => { j with tko := true }) w)

/-- Every command of one queue. -/
def settleQueue (l : Word) (xs : List Inherited) (w : Work) : Work :=
  let s := xs.foldl (inhStep w) {}
  let s := s.end_ (s.open_.getD []) (.now stAborted 0x04 none)
  let bundles := s.comm.map (fun b => settleBundle l b w)
  let single := xs.filter (fun x => !isFinal x.e.status && !x.e.member && x.e.opcode != 0x141)
  let ends := single.map (fun x => (x, settleOne l x w)) ++ s.ended ++ bundles.flatten
  let w := each ends (fun p w => settleEntry p.1 p.2 w) w
  let w := each (ends.filter (fun p => p.2 == .live && !p.1.e.member && p.1.e.opcode != 0x141)) (fun p w =>
    addEffect (inhEffect p.1 w) w) w
  each bundles (fun b w =>
    match b with
    | (c, .live) :: ms => liveBundle c ((ms.filter (fun m => m.2 == .live)).map (fun m => m.1)) w
    | _ => w) w

/-- The journal of the old active becomes this unit's, oldest first, without what was admitted after L (R138), and every entry
that was not final is settled. -/
def settleJournal (l : Word) (w : Work) : Work :=
  let now := w.d.phase.ncc
  let mine := w.d.grf.jrn.filter (fun x => decide (modDiff (nth 0 x.words 2) l ≤ 0))
  let old := mine.mergeSort (fun x y => decide (modDiff now (nth 0 y.words 2) ≤ modDiff now (nth 0 x.words 2)))
  let xs := old.zipIdx.map (fun p => inheritOf (freshId w + p.2) p.1)
  let w := { w with
    d.cmd.journal := xs.map (fun x => x.e), d.cmd.effects := [], d.cmd.bundles := [], d.grf.heirs := []
    d.cmd.nextId := freshId w + xs.length }
  let w := each xs (fun x w => wrs (w.d.cmd.jBase + 16384 * x.e.q + 4 * x.e.pos) (jWords x.e) w) w
  each (List.range 5) (fun q w => settleQueue l (xs.filter (fun x => x.e.q == q)) w) w

/-! Takeover (R432 to R437, R137). -/

/-- The decision lies at least 2 microseconds before the present sync point. -/
def takeoverDue (w : Work) : Bool :=
  match w.d.grf.decided with
  | some t => let d := (w.d.phase.frcSync - t).toNat; decide (500 ≤ d) && decide (d < 2 ^ 63)
  | none => false

/-- The rings as the new active first plans for them: folded at the old active's position (R436). -/
def foldRings (w : Work) : Work :=
  each (ringsUsed w) (fun b w => modR b (fun r => { r with
    passive := false, node := {}, line := true, broken := true, p0 := { r.p0 with out := false }, p1 := { r.p1 with out := false } }) w) w

/-- TAKEOVER: at the present sync point the standby takes the rings. -/
def takeover (w : Work) : Work :=
  if w.d.sys.role != .standby || !takeoverDue w then w
  else
    let g := w.d.grf
    let l := g.last
    let past := (modDiff w.d.phase.ncc (l + 1) : ℚ) * cycleTime w.d.sys.rate
    let w := plansUpTo (syncTime w - past) w
    let w := { w with
      d.trl.epoch := (w.d.trl.epoch + 1) % 65536, d.trl.epochKept := true, d.sys.stale := false
      d.grf.tko := true, d.grf.tkoL := l, d.grf.tko3 := g.tkMode == 3, d.grf.home := g.tkMode == 3, d.grf.plans := []
      d.grf.suspect := false, d.grf.missRun := 0, d.grf.decided := none, d.grf.rx := [], d.grf.out := []
      d.grf.reportDue := true, d.egv.rebuild := true, d.egv.curves := [] }
    let w := setRole .active (foldRings (applyMode g.tkMode w))
    let w := each (w.d.ce.axes.map (fun kv => kv.1)) (fun a w =>
      modCe a (fun x => { x with missRun := 0, tkoFirst := true }) w) w
    let w := settleJournal l { w with d.grf.tko3 := g.tkMode == 3 }
    let w := btAbort (hvsDisarmAll w)
    syncFrames (ceShow (logEvent .grf 0 1 l.toNat w))

/-- TAKEOVER_REPORT: the inherited entries that were not final at L (spec/04 R137). -/
def takeoverReport (w : Work) : Work :=
  if !w.d.grf.reportDue then w
  else
    let l := w.d.cmd.journal.filter (fun j => w.d.grf.heirs.contains j.id)
    let w := wrs (w.d.cmd.jBase + 81920) (l.flatMap jWords) w
    let w := { w with d.grf.reportDue := false, d.grf.heirs := [], d.cmd.tkoRdy := true, d.cmd.tkoCnt := l.length }
    logEvent .cmd 0 7 l.length (irq 11 w)

/-! Link events (R419, R441). -/

/-- GRAFT_DOWN: an active without a good STATUS frame in 3 cycles is SOLO. -/
def graftDown (w : Work) : Work :=
  if w.d.sys.role == .active && graftUsed w && decide (3 ≤ w.d.grf.noStatus) then logEvent .grf 0 6 0 (setRole .solo w)
  else w

/-- A lane goes down, or comes up with its idles. -/
def laneDown (lane : Bool) (w : Work) : Work :=
  if !hasGraft w.variant || !laneUp lane w then w
  else logEvent .grf lane.toNat 7 0 (if lane then { w with d.grf.lane1 := false } else { w with d.grf.lane0 := false })
def laneRaise (lane : Bool) (w : Work) : Work :=
  if !hasGraft w.variant then w
  else if lane then { w with d.grf.lane1 := true } else { w with d.grf.lane0 := true }

/-- GRAFT_SLOT k on a lane (R416). -/
def execGraftSlot (k : Fin 4) (lane : Bool) (s : State) : Host.Outcome State Fault Refusal := run (graftSlot k.val lane) s

/-- GRAFT_FRAME_RECEIVED (R418). -/
def execGraftFrameReceived (lane ok : Bool) (bytes : List Nat) (s : State) : Host.Outcome State Fault Refusal :=
  run (graftFrame lane ok bytes) s

/-- GRAFT_SLOT_END (R418). -/
def execGraftSlotEnd (k : Fin 4) (s : State) : Host.Outcome State Fault Refusal := run (graftSlotEnd k.val) s

/-- GRAFT_SET_APPLY (R426). -/
def execGraftSetApply (stat rot : Bool) (s : State) : Host.Outcome State Fault Refusal := run (setApply stat rot) s

/-- TAKEOVER (R433). -/
def execTakeover (s : State) : Host.Outcome State Fault Refusal := run takeover s

/-- TAKEOVER_REPORT (spec/04 R137). -/
def execTakeoverReport (s : State) : Host.Outcome State Fault Refusal := run takeoverReport s

/-- GRAFT_DOWN (R441). -/
def execGraftDown (s : State) : Host.Outcome State Fault Refusal := run graftDown s

/-- GRAFT_LANE_DOWN (R419). -/
def execGraftLaneDown (lane : Bool) (s : State) : Host.Outcome State Fault Refusal := run (laneDown lane) s

/-- GRAFT_LANE_UP (R419). -/
def execGraftLaneUp (lane : Bool) (s : State) : Host.Outcome State Fault Refusal := run (laneRaise lane) s

end Sys2Proof.Machine
end

