-- ==== Sys2Proof/Machine/HostPorts.lean ====
section
/-! DEFINITION. The host's ports: PCI Express and SPI accesses, link training, configuration requests; the configuration load
from flash; the test access port (spec/02 R34 to R36, spec/20 R594 to R602, spec/18 R573 to R575, spec/22 R629). -/

namespace Sys2Proof.Machine

/-- A read of one word by a host's MID: the word, whether it could not be read, and what the read changes. -/
def busRead (mid a : Nat) (w : Work) : Word × Bool × Work :=
  if a < bankLo then let (v, w) := regRead mid a w; (v, false, w)
  else if isBank a then softRead a (groupAccess a w) else (0, false, w)

/-- A write of one word by a host's MID. -/
def busWrite (mid a : Nat) (v : Word) (w : Work) : Work :=
  if a < bankLo then masterWrite mid a v w
  else if isBank a then wr a v (groupAccess a w) else w

/-- Reads of consecutive words: the words, whether any could not be read, and what the reads change. -/
def busReads (mid : Nat) : Nat → Nat → Work → List Word × Bool × Work
  | 0, _, w => ([], false, w)
  | n + 1, a, w =>
    let (v, e, w) := busRead mid a w
    let (l, f, w) := busReads mid n (a + 1) w
    (v :: l, e || f, w)

/-- Writes of consecutive words. -/
def busWrites (mid : Nat) : Nat → List Word → Work → Work
  | _, [], w => w
  | a, v :: r, w => busWrites mid (a + 1) r (busWrite mid a v w)

/-! PCI Express, MID 0. -/

/-- Word address of a BAR's offset; none outside the window (Table 20.1). -/
def barAddr (bar2 : Bool) (off : Nat) : Option Nat :=
  if bar2 then (if off < 0x400000 then some (bankLo + off) else none) else if off < 0x100000 then some off else none

/-- The word of an 8-byte slot, least significant byte first; bits [63:36] are ignored (R34). -/
def slotWord (l : List (BitVec 8)) : Word := wd (ofBytesLE (l.map BitVec.toNat))

/-- The bytes of a word's slot: little-endian, bits [63:36] zero (R34). -/
def slotBytes (v : Word) : List (BitVec 8) := (bytesLE 8 v.toNat).map (BitVec.ofNat 8)

/-- The bytes of a memory write by slots from that of its first byte on; none where the write does not cover a byte. -/
def pcieSlots (off : Nat) (bs : List (Option (BitVec 8))) : List (List (Option (BitVec 8))) :=
  let l := List.replicate (off % 8) none ++ bs
  (List.range (cdiv l.length 8)).map (fun k => (l.drop (8 * k)).take 8)

/-- What a memory write does to the slot at a word offset: one covered whole is written, one covered only in part is
discarded and logged (R35). -/
def pcieSlot (bar2 : Bool) (off : Nat) (l : List (Option (BitVec 8))) (w : Work) : Work :=
  match barAddr bar2 off with
  | none => w
  | some a =>
    if l.all Option.isNone then w
    else if l.length == 8 && l.all Option.isSome then busWrite 0 a (slotWord (l.filterMap id)) w
    else logEvent .hif 0 1 a w

/-- A memory write: its slots in order. -/
def pcieWrites (bar2 : Bool) (off : Nat) (bs : List (Option (BitVec 8))) (w : Work) : Work :=
  each (pcieSlots off bs).zipIdx (fun p => pcieSlot bar2 (off / 8 + p.2) p.1) w

/-- PCIE_MEMORY_WRITE, served from BOOT_OK on (R595). -/
def execPcieMemoryWrite (bar2 : Bool) (off : Nat) (bs : List (Option (BitVec 8))) (s : State) :
    Host.Outcome State Fault Refusal :=
  run (fun w => if w.d.boot.bootOk then pcieWrites bar2 off bs w else w) s

/-- A memory read of n bytes: the completion carries the addressed bytes of the words (R35), poisoned where one could not be
read (spec/16 Table 16.3). -/
def pcieRead (bar2 : Bool) (off n : Nat) (w : Work) : Work :=
  match barAddr bar2 (off / 8) with
  | none => w
  | some a =>
    let (ws, e, w) := busReads 0 (cdiv (off % 8 + n) 8) a w
    let bs := ((ws.flatMap slotBytes).drop (off % 8)).take n
    send (if e then .poisoned bs else .busData bs) w

/-- PCIE_MEMORY_READ, served from BOOT_OK on (R595). -/
def execPcieMemoryRead (bar2 : Bool) (off n : Nat) (s : State) : Host.Outcome State Fault Refusal :=
  run (fun w => if w.d.boot.bootOk then pcieRead bar2 off n w else w) s

/-- Messages of vectors that are pending and no longer masked (PCI Express, R593, R598). -/
def msixRelease (w : Work) : Work :=
  let h := w.d.hif
  if !h.msixEn || h.funcMask then w
  else
    let go := (List.range 32).filter (fun v => h.pba.getLsbD v && !h.vecMask.getLsbD v)
    each go (fun v w => send (.msix v) { w with d.hif.pba := bvPut v false w.d.hif.pba }) w

/-- A configuration request that is served (log 97). -/
def cfgServe (r : CfgReq) (w : Work) : Work :=
  match r with
  | .other => w
  | .msix e m => msixRelease { w with d.hif.msixEn := e, d.hif.funcMask := m }
  | .vector v m => msixRelease { w with d.hif.vecMask := bvPut v.val m w.d.hif.vecMask }

/-- PCIE_CONFIG_REQUEST: answered with retry status until BOOT_OK rises (R595). -/
def execPcieConfigRequest (r : CfgReq) (s : State) : Host.Outcome State Fault Refusal :=
  runAny (fun w => if w.d.boot.dead then w else
    if w.d.boot.bootOk then send (.configRetry false) (cfgServe r w) else send (.configRetry true) w) s

/-- LINK_TRAINED: the link has trained at a speed and a width (R595, Table 20.7). -/
def execLinkTrained (gen : Fin 8) (wid : Fin 32) (s : State) : Host.Outcome State Fault Refusal :=
  runAny (fun w => if w.d.boot.dead then w else
    { w with d.hif.linkUp := true, d.hif.speed := gen.val, d.hif.width := wid.val }) s

/-! SPI, MID 1. -/

/-- The words 5-byte groups spell, most significant byte first; the pad bits are ignored (R36). -/
def spiWords (bs : List (BitVec 8)) : List Word :=
  (List.range (bs.length / 5)).map (fun k => wd (ofBytesBE (((bs.drop (5 * k)).take 5).map BitVec.toNat)))

/-- The bytes of words on the SPI port, the pad bits zero (R36). -/
def spiBytes (ws : List Word) : List (BitVec 8) := (wordBytes5 ws).map (BitVec.ofNat 8)

/-- An SPI write transaction (R601): an unknown command byte makes the port ignore it; a word cut short, by bytes or by bits,
is discarded. -/
def spiWriteRun (bad : Bool) (a : Nat) (bs : List (BitVec 8)) (cut : Bool) (w : Work) : Work :=
  if !w.d.boot.bootOk then w
  else if bad then logEvent .hif 0 3 0 { w with d.hif.badCmd := true }
  else
    let w := busWrites 1 a (spiWords bs) w
    if cut || bs.length % 5 != 0 then logEvent .hif 0 1 (a + bs.length / 5) { w with d.hif.partialWr := true } else w

/-- The words an SPI read sends: one that is not ready at its first bit is zero, with UNDER and its event (R602). -/
def spiUnder (a : Nat) (late : List Nat) (ws : List Word) (w : Work) : List Word × Work :=
  let miss := (List.range ws.length).filter (fun k => late.contains k)
  (ws.zipIdx.map (fun p => if late.contains p.2 then 0 else p.1),
    each miss (fun k w => logEvent .hif 0 4 (a + k) { w with d.hif.under := true }) w)

/-- An SPI read transaction: the token byte, then the words, and those fetched ahead of them, at least 4 (R602, log 88). In
the native arbitration mode no word is late. -/
def spiReadRun (a n ahead : Nat) (late : List Nat) (w : Work) : Work :=
  if !w.d.boot.bootOk then w
  else
    let (ws, _, w) := busReads 1 n a w
    let w := (busReads 1 (max 4 ahead) (a + n) w).2.2
    let (ws, w) := spiUnder a (if w.d.mem.arb then late else []) ws w
    send (.busData (0x5A :: spiBytes ws)) w

/-- WRITE (R601). -/
def execSpiWrite (bad : Bool) (a : Nat) (bs : List (BitVec 8)) (cut : Bool) (s : State) : Host.Outcome State Fault Refusal :=
  run (spiWriteRun bad a bs cut) s

/-- QWRITE (R601). -/
def execSpiQwrite (bad : Bool) (a : Nat) (bs : List (BitVec 8)) (cut : Bool) (s : State) : Host.Outcome State Fault Refusal :=
  run (spiWriteRun bad a bs cut) s

/-- READ (R602). -/
def execSpiRead (a n ahead : Nat) (late : List Nat) (s : State) : Host.Outcome State Fault Refusal :=
  run (spiReadRun a n ahead late) s

/-- QREAD (R602). -/
def execSpiQread (a n ahead : Nat) (late : List Nat) (s : State) : Host.Outcome State Fault Refusal :=
  run (spiReadRun a n ahead late) s

/-! The configuration load (spec/18 R573, R574). -/

/-- Pointer entry k has not been written. -/
def ptrErased (k : Nat) (w : Work) : Bool := (List.range 5).all (fun j => flashByte (0x800000 + 5 * k + j) w == 255)

/-- Entries of the pointer sector before the first erased one. -/
def ptrEntries (w : Work) : Nat := ((List.range 13107).takeWhile (fun k => !ptrErased k w)).length

/-- CFG_LOADED: the load that is in progress completes; img is what the firmware reads from the image (log 40). The one of
BOOT leads to CONFIG, with the bindings locked and the ledger loaded (R574, spec/17 R534, spec/19 R582, spec/01 Table 1.8);
where a Hedge lock has taken the device from BOOT meanwhile, the state stays (log 94). A load shorter than the one before
leaves zeros past its end (Table 18.8). -/
def cfgLoaded (img : Image) (w : Work) : Work :=
  if !w.d.boot.cfgBusy then w
  else
    let n := ptrEntries w
    let slot := if n == 0 then 0 else fld (flashWord (0x800000 + 5 * (n - 1)) w) 0 3
    let at_ := 0x900000 + 0x200000 * slot
    let len := min 409600 (flashWord (at_ + 5) w).toNat
    let ws := (List.range len).map (fun k => flashWord (at_ + 10 + 5 * k) w)
    let id := flashWord at_ w
    let w := wrs 0x780000 (ws ++ List.replicate (w.d.boot.cfgLen - len) 0) w
    let w := { w with
      d.boot.cfgBusy := false, d.boot.cfgId := id, d.boot.cfgLen := len, d.boot.slot := slot, d.boot.ptrEmpty := n == 0
      d.trl.img := some img }
    let w := when_ (n == 0) (logEvent .sys 0 4 0) w
    let w := logEvent .sys 0 3 slot w
    if w.d.sys.st == .boot && w.d.boot.verified then
      enterConfig (setRole .solo (ageLoad w))
    else if w.d.sys.st == .safeLock && w.d.sys.prev == .boot then ageLoad w
    else w

/-- CFG_LOADED. -/
def execCfgLoaded (img : Image) (s : State) : Host.Outcome State Fault Refusal := run (cfgLoaded img) s

/-! The test access port (spec/22 R629). -/

/-- Instructions that take control of pins. -/
def tapPins : TapIr → Bool
  | .extest | .extestPulse | .clamp | .highz => true
  | .bypass | .idcode | .sample => false

/-- The instruction the port executes: outside BOOT_HOLD those that would take pins are BYPASS. -/
def tapNow (w : Work) : TapIr := if tapPins w.d.boot.tapIr && w.d.sys.st != .bootHold then .bypass else w.d.boot.tapIr

/-- IDCODE. -/
def tapIdcode (v : Variant) : Nat := (if isBig v then 0x1284 else 0x1264) * 4096 + 0x51D * 2 + 1

/-- TAP_INSTRUCTION. -/
def execTapInstruction (ir : TapIr) (s : State) : Host.Outcome State Fault Refusal :=
  runAny (fun w =>
    let w := { w with d.boot.tapIr := ir }
    if ir == .idcode then send (.readData [wd (tapIdcode w.variant)]) w else w) s

end Sys2Proof.Machine
end

