-- ==== Sys2Proof/Machine/Dispatch.lean ====
section
/-! DEFINITION. One arm per command: its meaning. -/

namespace Sys2Proof.Machine

/-- The effect of a command on everything but the queue of waiting commands. -/
def exec (i : Instr) (s : State) : Host.Outcome State Fault Refusal :=
  match i with
  | .nop h => Sys2Proof.Machine.execNop h s
  | .stateRequest h t => Sys2Proof.Machine.execStateRequest h t s
  | .modeSwitch h m l => Sys2Proof.Machine.execModeSwitch h m l s
  | .ptAdjust h hi lo r => Sys2Proof.Machine.execPtAdjust h hi lo r s
  | .axisEnable h a => Sys2Proof.Machine.execAxisEnable h a s
  | .axisDisable h a => Sys2Proof.Machine.execAxisDisable h a s
  | .moveAbs h a p k => Sys2Proof.Machine.execMoveAbs h a p k s
  | .moveRel h a p k => Sys2Proof.Machine.execMoveRel h a p k s
  | .moveVel h a v k => Sys2Proof.Machine.execMoveVel h a v k s
  | .moveCoord h a ts k => Sys2Proof.Machine.execMoveCoord h a ts k s
  | .stop h a => Sys2Proof.Machine.execStop h a s
  | .quickStop h a => Sys2Proof.Machine.execQuickStop h a s
  | .faultClear h a => Sys2Proof.Machine.execFaultClear h a s
  | .loadClass h a c => Sys2Proof.Machine.execLoadClass h a c s
  | .gearEngage h o m n d r => Sys2Proof.Machine.execGearEngage h o m n d r s
  | .gearRatioAt h o p n d r => Sys2Proof.Machine.execGearRatioAt h o p n d r s
  | .gearDisengage h o => Sys2Proof.Machine.execGearDisengage h o s
  | .stepEnable h a on rel => Sys2Proof.Machine.execStepEnable h a on rel s
  | .stepMove h a p k => Sys2Proof.Machine.execStepMove h a p k s
  | .stepVel h a v k => Sys2Proof.Machine.execStepVel h a v k s
  | .stepStop h a => Sys2Proof.Machine.execStepStop h a s
  | .ioWrite h ps => Sys2Proof.Machine.execIoWrite h ps s
  | .ioRead h ps => Sys2Proof.Machine.execIoRead h ps s
  | .bundleOpen h n => Sys2Proof.Machine.execBundleOpen h n s
  | .bundleCommit h => Sys2Proof.Machine.execBundleCommit h s
  | .bundleAbort h => Sys2Proof.Machine.execBundleAbort h s
  | .paramWrite h o n vs => Sys2Proof.Machine.execParamWrite h o n vs s
  | .paramRead h o n c => Sys2Proof.Machine.execParamRead h o n c s
  | .harvestArm h k o => Sys2Proof.Machine.execHarvestArm h k o s
  | .harvestDisarm h k => Sys2Proof.Machine.execHarvestDisarm h k s
  | .maskLoad h k g a n => Sys2Proof.Machine.execMaskLoad h k g a n s
  | .brakeTestReq h b => Sys2Proof.Machine.execBrakeTestReq h b s
  | .safeStatusRead h => Sys2Proof.Machine.execSafeStatusRead h s
  | .ledgerRead h a n => Sys2Proof.Machine.execLedgerRead h a n s
  | .journalRead h q n => Sys2Proof.Machine.execJournalRead h q n s
  | .egvMode h on => Sys2Proof.Machine.execEgvMode h on s
  | .cmdqTailWrite mid q v => Sys2Proof.Machine.execCmdqTailWrite mid q v s
  | .cmdqRelWrite mid q v => Sys2Proof.Machine.execCmdqRelWrite mid q v s
  | .cmdqCtlWrite q v => Sys2Proof.Machine.execCmdqCtlWrite q v s
  | .dmaErrClear q => Sys2Proof.Machine.execDmaErrClear q s
  | .dequeue => Sys2Proof.Machine.execDequeue s
  | .entryFetch q ok ws => Sys2Proof.Machine.execEntryFetch q ok ws s
  | .admission k => Sys2Proof.Machine.execAdmission k s
  | .cmdEvrdWrite v => Sys2Proof.Machine.execCmdEvrdWrite v s
  | .eventLogConfigWrite len v => Sys2Proof.Machine.execEventLogConfigWrite len v s
  | .sysPhsrcWrite v => Sys2Proof.Machine.execSysPhsrcWrite v s
  | .sysPhcpmWrite v => Sys2Proof.Machine.execSysPhcpmWrite v s
  | .sysVmrateWrite v => Sys2Proof.Machine.execSysVmrateWrite v s
  | .sysRstWhole v => Sys2Proof.Machine.execSysRstWhole v s
  | .sysRstUnit v => Sys2Proof.Machine.execSysRstUnit v s
  | .reload v => Sys2Proof.Machine.execReload v s
  | .cfgLoaded img => Sys2Proof.Machine.execCfgLoaded img s
  | .go => Sys2Proof.Machine.execGo s
  | .goTimeout => Sys2Proof.Machine.execGoTimeout s
  | .flashRead len clr => Sys2Proof.Machine.execFlashRead len clr s
  | .flashProgram len clr => Sys2Proof.Machine.execFlashProgram len clr s
  | .sectorErase clr => Sys2Proof.Machine.execSectorErase clr s
  | .flashOperationDone err => Sys2Proof.Machine.execFlashOperationDone err s
  | .measurementStart v => Sys2Proof.Machine.execMeasurementStart v s
  | .measurementDone k => Sys2Proof.Machine.execMeasurementDone k s
  | .clkGateWrite ce v => Sys2Proof.Machine.execClkGateWrite ce v s
  | .pwrBgrpWrite v => Sys2Proof.Machine.execPwrBgrpWrite v s
  | .hvsForceWrite v => Sys2Proof.Machine.execHvsForceWrite v s
  | .idxRearm n => Sys2Proof.Machine.execIdxRearm n s
  | .fpnCntWrite n v => Sys2Proof.Machine.execFpnCntWrite n v s
  | .fpnCfgWrite n v => Sys2Proof.Machine.execFpnCfgWrite n v s
  | .ageBaseWrite v => Sys2Proof.Machine.execAgeBaseWrite v s
  | .fdWindowWrite n off v => Sys2Proof.Machine.execFdWindowWrite n off v s
  | .latchingRead mid k => Sys2Proof.Machine.execLatchingRead mid k s
  | .rcRead mid a => Sys2Proof.Machine.execRcRead mid a s
  | .semRead mid n => Sys2Proof.Machine.execSemRead mid n s
  | .semWrite mid n => Sys2Proof.Machine.execSemWrite mid n s
  | .semForceWrite mid v => Sys2Proof.Machine.execSemForceWrite mid v s
  | .mbxSend mid c v => Sys2Proof.Machine.execMbxSend mid c v s
  | .mbxPop mid c => Sys2Proof.Machine.execMbxPop mid c s
  | .mbxLock v => Sys2Proof.Machine.execMbxLock v s
  | .registerWrite mid a v => Sys2Proof.Machine.execRegisterWrite mid a v s
  | .pcieMemoryWrite bar2 off bs => Sys2Proof.Machine.execPcieMemoryWrite bar2 off bs s
  | .pcieMemoryRead bar2 off n => Sys2Proof.Machine.execPcieMemoryRead bar2 off n s
  | .pcieConfigRequest r => Sys2Proof.Machine.execPcieConfigRequest r s
  | .spiWrite bad a bs cut => Sys2Proof.Machine.execSpiWrite bad a bs cut s
  | .spiRead a n ahead late => Sys2Proof.Machine.execSpiRead a n ahead late s
  | .spiQwrite bad a bs cut => Sys2Proof.Machine.execSpiQwrite bad a bs cut s
  | .spiQread a n ahead late => Sys2Proof.Machine.execSpiQread a n ahead late s
  | .porstNRelease unit mode => Sys2Proof.Machine.execPorstNRelease unit mode s
  | .rcSettleEnd => Sys2Proof.Machine.execRcSettleEnd s
  | .judgeWindow c => Sys2Proof.Machine.execJudgeWindow c s
  | .pllLocked => Sys2Proof.Machine.execPllLocked s
  | .bankClearDone g => Sys2Proof.Machine.execBankClearDone g s
  | .bootImageCheck ok => Sys2Proof.Machine.execBootImageCheck ok s
  | .porstNLow => Sys2Proof.Machine.execPorstNLow s
  | .vddMonitor => Sys2Proof.Machine.execVddMonitor s
  | .perstNLow => Sys2Proof.Machine.execPerstNLow s
  | .pcieSideReset => Sys2Proof.Machine.execPcieSideReset s
  | .thermalTrip => Sys2Proof.Machine.execThermalTrip s
  | .thermalTripEnd => Sys2Proof.Machine.execThermalTripEnd s
  | .xoFailure => Sys2Proof.Machine.execXoFailure s
  | .refclkLoss => Sys2Proof.Machine.execRefclkLoss s
  | .thermalSample s0 s1 s2 s3 => Sys2Proof.Machine.execThermalSample s0 s1 s2 s3 s
  | .tduDispatch c => Sys2Proof.Machine.execTduDispatch c s
  | .syncPoint => Sys2Proof.Machine.execSyncPoint s
  | .captureFreeze k => Sys2Proof.Machine.execCaptureFreeze k s
  | .holdOffEnd k => Sys2Proof.Machine.execHoldOffEnd k s
  | .frameDeparture b pw n => Sys2Proof.Machine.execFrameDeparture b pw n s
  | .ringFrameReceived b p1 t bytes v => Sys2Proof.Machine.execRingFrameReceived b p1 t bytes v s
  | .gatherReturnTimeout b => Sys2Proof.Machine.execGatherReturnTimeout b s
  | .ringPortDown b p1 sig => Sys2Proof.Machine.execRingPortDown b p1 sig s
  | .ringPortUp b p => Sys2Proof.Machine.execRingPortUp b p s
  | .axisCompute a => Sys2Proof.Machine.execAxisCompute a s
  | .startDeadline a => Sys2Proof.Machine.execStartDeadline a s
  | .resultDeadline a => Sys2Proof.Machine.execResultDeadline a s
  | .furrowCallSelect n => Sys2Proof.Machine.execFurrowCallSelect n s
  | .furrowBudgetExpiry n => Sys2Proof.Machine.execFurrowBudgetExpiry n s
  | .parallelInstruction n h => Sys2Proof.Machine.execParallelInstruction n h s
  | .fdMov n h => Sys2Proof.Machine.execFdMov n h s
  | .fdAdd n h => Sys2Proof.Machine.execFdAdd n h s
  | .fdSub n h => Sys2Proof.Machine.execFdSub n h s
  | .fdNeg n h => Sys2Proof.Machine.execFdNeg n h s
  | .fdAbs n h => Sys2Proof.Machine.execFdAbs n h s
  | .fdMin n h => Sys2Proof.Machine.execFdMin n h s
  | .fdMax n h => Sys2Proof.Machine.execFdMax n h s
  | .fdAnd n h => Sys2Proof.Machine.execFdAnd n h s
  | .fdOr n h => Sys2Proof.Machine.execFdOr n h s
  | .fdXor n h => Sys2Proof.Machine.execFdXor n h s
  | .fdAsr n h => Sys2Proof.Machine.execFdAsr n h s
  | .fdLsl n h => Sys2Proof.Machine.execFdLsl n h s
  | .fdMulq n h => Sys2Proof.Machine.execFdMulq n h s
  | .fdKeep n h => Sys2Proof.Machine.execFdKeep n h s
  | .fdExt n h => Sys2Proof.Machine.execFdExt n h s
  | .fdLda n h => Sys2Proof.Machine.execFdLda n h s
  | .fdAdda n h => Sys2Proof.Machine.execFdAdda n h s
  | .fdClra n h => Sys2Proof.Machine.execFdClra n h s
  | .fdSetrb n h => Sys2Proof.Machine.execFdSetrb n h s
  | .fdGetrb n h => Sys2Proof.Machine.execFdGetrb n h s
  | .fdNop n h => Sys2Proof.Machine.execFdNop n h s
  | .fdRet n h => Sys2Proof.Machine.execFdRet n h s
  | .fdBr n h => Sys2Proof.Machine.execFdBr n h s
  | .fdLoop n h => Sys2Proof.Machine.execFdLoop n h s
  | .fdSetm n h => Sys2Proof.Machine.execFdSetm n h s
  | .fdMovp n h => Sys2Proof.Machine.execFdMovp n h s
  | .fdMovd n h => Sys2Proof.Machine.execFdMovd n h s
  | .proposalDecision => Sys2Proof.Machine.execProposalDecision s
  | .bundleDecision => Sys2Proof.Machine.execBundleDecision s
  | .nodeParamTimeout q e => Sys2Proof.Machine.execNodeParamTimeout q e s
  | .timeTransferPeriodic => Sys2Proof.Machine.execTimeTransferPeriodic s
  | .guardCheck => Sys2Proof.Machine.execGuardCheck s
  | .discoverListenEnd u => Sys2Proof.Machine.execDiscoverListenEnd u s
  | .discoverStep r => Sys2Proof.Machine.execDiscoverStep r s
  | .discoverRetry => Sys2Proof.Machine.execDiscoverRetry s
  | .planRepropose => Sys2Proof.Machine.execPlanRepropose s
  | .slotEntriesWritten => Sys2Proof.Machine.execSlotEntriesWritten s
  | .domainStart => Sys2Proof.Machine.execDomainStart s
  | .dclkRisingEdge => Sys2Proof.Machine.execDclkRisingEdge s
  | .dclkLoss => Sys2Proof.Machine.execDclkLoss s
  | .domainCalibration got a r => Sys2Proof.Machine.execDomainCalibration got a r s
  | .xtrigEdge n high frc fine => Sys2Proof.Machine.execXtrigEdge n high frc fine s
  | .tbusEdge n high frc fine => Sys2Proof.Machine.execTbusEdge n high frc fine s
  | .quadEdge n a b => Sys2Proof.Machine.execQuadEdge n a b s
  | .hallChange n h => Sys2Proof.Machine.execHallChange n h s
  | .indexEdge n z => Sys2Proof.Machine.execIndexEdge n z s
  | .speedWindowEnd n => Sys2Proof.Machine.execSpeedWindowEnd n s
  | .phaseLinkFrame n ret => Sys2Proof.Machine.execPhaseLinkFrame n ret s
  | .graftSlot k lane => Sys2Proof.Machine.execGraftSlot k lane s
  | .graftFrameReceived lane ok ws => Sys2Proof.Machine.execGraftFrameReceived lane ok ws s
  | .graftSlotEnd k => Sys2Proof.Machine.execGraftSlotEnd k s
  | .graftSetApply stat rot => Sys2Proof.Machine.execGraftSetApply stat rot s
  | .takeover => Sys2Proof.Machine.execTakeover s
  | .takeoverReport => Sys2Proof.Machine.execTakeoverReport s
  | .timelineRebuild => Sys2Proof.Machine.execTimelineRebuild s
  | .graftDown => Sys2Proof.Machine.execGraftDown s
  | .graftLaneDown lane => Sys2Proof.Machine.execGraftLaneDown lane s
  | .eccWriteBack a => Sys2Proof.Machine.execEccWriteBack a s
  | .scrubSweep finds us => Sys2Proof.Machine.execScrubSweep finds us s
  | .dynamicScrub finds => Sys2Proof.Machine.execDynamicScrub finds s
  | .ledgerHour counts eyes => Sys2Proof.Machine.execLedgerHour counts eyes s
  | .hrstNLow => Sys2Proof.Machine.execHrstNLow s
  | .hrstNRelease p l => Sys2Proof.Machine.execHrstNRelease p l s
  | .hedgeSupplyFault => Sys2Proof.Machine.execHedgeSupplyFault s
  | .selfTestDone okP okL => Sys2Proof.Machine.execSelfTestDone okP okL s
  | .crossLinkWord ok => Sys2Proof.Machine.execCrossLinkWord ok s
  | .crossLinkLoss => Sys2Proof.Machine.execCrossLinkLoss s
  | .hb => Sys2Proof.Machine.execHb s
  | .heartbeatTimeout => Sys2Proof.Machine.execHeartbeatTimeout s
  | .testPulseFrame => Sys2Proof.Machine.execTestPulseFrame s
  | .pulseCheckSample k n b d a => Sys2Proof.Machine.execPulseCheckSample k n b d a s
  | .discrepancyTimeout idx => Sys2Proof.Machine.execDiscrepancyTimeout idx s
  | .hlkiLow => Sys2Proof.Machine.execHlkiLow s
  | .blackChannelSend c => Sys2Proof.Machine.execBlackChannelSend c s
  | .blackChannelFrame c ws => Sys2Proof.Machine.execBlackChannelFrame c ws s
  | .connectionTimeout c => Sys2Proof.Machine.execConnectionTimeout c s
  | .sframe ch toHedge => Sys2Proof.Machine.execSframe ch toHedge s
  | .btest => Sys2Proof.Machine.execBtest s
  | .btStep => Sys2Proof.Machine.execBtStep s
  | .engageTimeEnd => Sys2Proof.Machine.execEngageTimeEnd s
  | .holdWindowEnd => Sys2Proof.Machine.execHoldWindowEnd s
  | .brakeTestEnd => Sys2Proof.Machine.execBrakeTestEnd s
  | .brakeDue remote k => Sys2Proof.Machine.execBrakeDue remote k s
  | .brakeOverdue remote k => Sys2Proof.Machine.execBrakeOverdue remote k s
  | .hedgeLOverdue k => Sys2Proof.Machine.execHedgeLOverdue k s
  | .safeAckNRise p l both => Sys2Proof.Machine.execSafeAckNRise p l both s
  | .hlkiCheck p l => Sys2Proof.Machine.execHlkiCheck p l s
  | .tko m => Sys2Proof.Machine.execTko m s
  | .statusWindowRefresh => Sys2Proof.Machine.execStatusWindowRefresh s
  | .graftLaneUp lane => Sys2Proof.Machine.execGraftLaneUp lane s
  | .hedgeSupplyRestored p l => Sys2Proof.Machine.execHedgeSupplyRestored p l s
  | .linkTrained gen wid => Sys2Proof.Machine.execLinkTrained gen wid s
  | .reviseAgain => Sys2Proof.Machine.execReviseAgain s
  | .holdsBlockedEnd => Sys2Proof.Machine.execHoldsBlockedEnd s
  | .tapInstruction ir => Sys2Proof.Machine.execTapInstruction ir s

end Sys2Proof.Machine
end

