-- ==== Sys2Proof/Safety.lean ====
section
/-! DEFINITION. What counts as a safe run of the block: every step answers a next state, and the bank memory keeps its
canonical form. -/

namespace Sys2Proof.Safety

open Sys2Proof.Machine

/-- A command completes on a state: its meaning answers a next state. -/
def Completes (c : Instr) (s : State) : Prop := ∃ t, exec c s = .next t

/-- The invariant of every state: the bank memory is in its canonical form and lists bank words only (spec/16 R505). -/
def Inv (s : State) : Prop := memWf s.mem = true

end Sys2Proof.Safety
end

