-- ==== Sys2Proof/WellFormed.lean ====
section
/-! DEFINITION. Which commands are well formed: the operands' ranges that their types do not say already. The meanings
are total: an ill-formed command is one that the spec's interface cannot deliver, and it has a meaning all the same. -/

namespace Sys2Proof

/-- A packet without PHASED carries no phase word (spec/03 Table 3.1). -/
def headOk (h : PktHead) : Bool := h.phased || h.phase == 0

/-- Every received code group is a byte (spec/10 R315). -/
def bytesOk (l : List Nat) : Bool := l.all (fun b => decide (b < 256))

/-- Words of a Furrow unit's memories X, Y, C and P (spec/07 Table 7.1). -/
def eccOk : EccHit → Bool
  | .clean => true
  | .single m a | .double m a => decide (a < if m.val < 2 then 16384 else if m.val = 2 then 8192 else 16384)

/-- A finding names a bank word (spec/16 R505). -/
def findOk : MemFind → Bool
  | .single a | .double a | .page a _ => Machine.isBank a

/-- An eye result names a ring position, 0 for the controller, and two 8-bit openings (spec/10 R330, spec/19 R587). -/
def eyeOk (e : Bool × Nat × Bool × Nat × Nat) : Bool :=
  decide (e.2.1 ≤ 126) && decide (e.2.2.2.1 < 256) && decide (e.2.2.2.2 < 256)

/-- An SPI transaction names a word address whose bit 23 is zero and moves data (spec/20 R600). -/
def spiOk (a n : Nat) : Bool := decide (a < 2 ^ 23) && decide (0 < n)

/-- The bytes of a BAR's window (spec/20 Table 20.1). -/
def barBytes (bar2 : Bool) : Nat := 8 * if bar2 then 0x400000 else 0x100000

/-- Ring positions of a DISCOVER result run from 1 to 126 (spec/11 Table 11.10), 0 the controller's for eyes. -/
def stepOk : Machine.StepResult → Bool
  | .enumerate a b => a.all (fun n => decide (n ≤ 126)) && b.all (fun n => decide (n ≤ 126))
  | .identify recs => recs.all (fun r => decide (r.2.length = 8))
  | .time l _ _ => l.all (fun t => decide (1 ≤ t.pos) && decide (t.pos ≤ 126))
  | .configure _ => true
  | .scan l => l.all (fun e => decide (e.2.1 ≤ 126))

/-- Node IDs of an image run from 1 to 126, rates from 0 to 3 and overlays from mode 1 to 7 (spec/10 R310, spec/11 R368). -/
def imageOk (i : Machine.Image) : Bool :=
  decide (i.rate < 4) && i.nodes.all (fun n => decide (1 ≤ n.id) && decide (n.id ≤ 126))
    && i.overlays.all (fun o => decide (1 ≤ o.mode) && decide (o.mode ≤ 7) && decide (o.rate < 4))

/-- The command is well formed. -/
def wellFormed : Instr → Bool
  | .parallelInstruction _ h | .fdMov _ h | .fdAdd _ h | .fdSub _ h | .fdNeg _ h | .fdAbs _ h | .fdMin _ h
  | .fdMax _ h | .fdAnd _ h | .fdOr _ h | .fdXor _ h | .fdAsr _ h | .fdLsl _ h | .fdMulq _ h | .fdKeep _ h
  | .fdExt _ h | .fdLda _ h | .fdAdda _ h | .fdClra _ h | .fdSetrb _ h | .fdGetrb _ h | .fdNop _ h | .fdRet _ h
  | .fdBr _ h | .fdLoop _ h | .fdSetm _ h | .fdMovp _ h | .fdMovd _ h => eccOk h
  | .nop h | .bundleCommit h | .bundleAbort h | .safeStatusRead h => headOk h
  | .stateRequest h _ | .axisEnable h _ | .axisDisable h _ | .stop h _ | .quickStop h _ | .faultClear h _
  | .gearDisengage h _ | .stepStop h _ | .bundleOpen h _ | .harvestDisarm h _ | .brakeTestReq h _ | .egvMode h _ => headOk h
  | .modeSwitch h _ _ | .loadClass h _ _ | .harvestArm h _ _ | .ledgerRead h _ _ | .journalRead h _ _ => headOk h
  | .ptAdjust h _ _ _ | .moveAbs h _ _ _ | .moveRel h _ _ _ | .moveVel h _ _ _ | .stepEnable h _ _ _
  | .stepMove h _ _ _ | .stepVel h _ _ _ | .paramRead h _ _ _ => headOk h
  | .gearEngage h _ _ _ _ _ | .gearRatioAt h _ _ _ _ _ => headOk h
  | .maskLoad h _ _ _ _ => headOk h
  | .ringFrameReceived _ _ _ bytes _ => bytesOk bytes
  | .eccWriteBack a => Machine.isBank a
  | .scrubSweep finds _ => finds.all findOk
  | .dynamicScrub finds => finds.all findOk
  | .ledgerHour _ eyes => eyes.all eyeOk
  | .blackChannelFrame _ ws => decide (2 ≤ ws.length) && decide (ws.length ≤ 257)
  | .moveCoord h _ ts _ => headOk h && decide (2 ≤ ts.length) && decide (ts.length ≤ 4)
  | .ioWrite h ps => headOk h && decide (1 ≤ ps.length) && decide (ps.length ≤ 31)
  | .ioRead h ps => headOk h && decide (1 ≤ ps.length) && decide (ps.length ≤ 12)
  | .paramWrite h _ _ vs => headOk h && decide (1 ≤ vs.length) && decide (vs.length ≤ 60)
  | .entryFetch _ ok ws => !ok || decide (ws.length = 64)
  | .rcRead _ a => Machine.rcReg a
  | .registerWrite _ a _ => decide (a < 0x400000)
  | .pcieMemoryWrite b off bs => decide (off + bs.length ≤ barBytes b) && !bs.isEmpty
  | .pcieMemoryRead b off n => decide (off + n ≤ barBytes b) && decide (0 < n)
  | .spiWrite _ a bs cut => spiOk a (bs.length + cut.toNat)
  | .spiQwrite _ a bs cut => spiOk a (bs.length + cut.toNat)
  | .spiRead a n _ late => spiOk a n && late.all (fun k => decide (k < n))
  | .spiQread a n _ late => spiOk a n && late.all (fun k => decide (k < n))
  | .graftFrameReceived _ _ bytes => bytesOk bytes
  | .discoverStep r => stepOk r
  | .cfgLoaded img => imageOk img
  | .quadEdge .. | .hallChange .. | .indexEdge .. | .speedWindowEnd .. | .fpnCntWrite .. | .fpnCfgWrite ..
  | .idxRearm .. | .axisCompute .. | .startDeadline .. | .resultDeadline .. | .furrowCallSelect ..
  | .furrowBudgetExpiry .. | .fdWindowWrite .. | .bundleDecision | .sysPhsrcWrite .. | .sysPhcpmWrite ..
  | .sysVmrateWrite .. | .phaseLinkFrame .. | .proposalDecision | .frameDeparture .. | .gatherReturnTimeout ..
  | .ringPortDown .. | .ringPortUp .. | .nodeParamTimeout .. | .timeTransferPeriodic | .timelineRebuild
  | .thermalSample .. | .tduDispatch .. | .mbxSend .. | .mbxPop .. | .mbxLock .. | .semRead .. | .semWrite ..
  | .semForceWrite .. | .sysRstWhole .. | .sysRstUnit .. | .porstNLow | .vddMonitor | .perstNLow | .pcieSideReset
  | .thermalTrip | .thermalTripEnd | .xoFailure | .refclkLoss | .pwrBgrpWrite .. | .porstNRelease ..
  | .rcSettleEnd | .judgeWindow .. | .pllLocked | .bankClearDone .. | .bootImageCheck .. | .go | .goTimeout
  | .reload .. | .flashRead .. | .flashProgram .. | .sectorErase .. | .flashOperationDone ..
  | .measurementStart .. | .measurementDone .. | .clkGateWrite .. | .ageBaseWrite .. | .hrstNLow
  | .hrstNRelease .. | .hedgeSupplyFault | .hedgeSupplyRestored .. | .selfTestDone .. | .crossLinkWord ..
  | .crossLinkLoss | .hb | .heartbeatTimeout | .testPulseFrame | .pulseCheckSample .. | .discrepancyTimeout ..
  | .hlkiLow | .blackChannelSend .. | .connectionTimeout .. | .sframe .. | .btest | .btStep | .engageTimeEnd
  | .holdWindowEnd | .brakeTestEnd | .brakeDue .. | .brakeOverdue .. | .hedgeLOverdue .. | .safeAckNRise ..
  | .hlkiCheck .. | .holdsBlockedEnd | .tko .. | .statusWindowRefresh | .hvsForceWrite .. | .captureFreeze ..
  | .holdOffEnd .. | .xtrigEdge .. | .tbusEdge .. | .domainCalibration .. | .cmdqTailWrite .. | .cmdqRelWrite ..
  | .cmdqCtlWrite .. | .dmaErrClear .. | .dequeue | .admission .. | .cmdEvrdWrite .. | .eventLogConfigWrite ..
  | .latchingRead .. | .pcieConfigRequest .. | .syncPoint | .guardCheck | .reviseAgain | .discoverListenEnd ..
  | .discoverRetry | .planRepropose | .slotEntriesWritten | .domainStart | .dclkRisingEdge | .dclkLoss
  | .graftSlot .. | .graftSlotEnd .. | .graftSetApply .. | .takeover | .takeoverReport | .graftDown
  | .graftLaneDown .. | .graftLaneUp .. | .linkTrained .. | .tapInstruction .. => true

end Sys2Proof
end

