-- ==== Sys2Proof/Certificates/Slice0/Obligations.lean ====
section
/-! DEFINITION. The statements for the provers, with the small functions they use: what the rules of spec/ say, written a
second time and apart from the meanings. A statement gives the whole next state where the rules fix it, and otherwise what
the rules say of it and what the command leaves unchanged. -/

namespace Sys2Proof.Claims

open Sys2Proof.Machine

/-- A command answers a next state of which P holds. -/
def Ends (c : Instr) (s : State) (P : State → Prop) : Prop := ∃ t, exec c s = .next t ∧ P t

/-- Every word of bank memory reads as before. -/
def SameMemory (s t : State) : Prop := ∀ a, memRead t.mem a = memRead s.mem a

/-- The state with other units; memory, variant and queue stay. -/
def withDev (s : State) (d : Dev) : State := { s with dev := d }

end Sys2Proof.Claims

open Sys2Proof Sys2Proof.Machine Sys2Proof.Claims

/-! The machine as a whole. -/

namespace Sys2Proof.Claims

/-- The commands that act on the Hedge island, on the resets or on the start-up, whether or not the main device runs. -/
def actsAnyway : Instr → Bool
  | .porstNRelease .. | .rcSettleEnd | .judgeWindow .. | .pllLocked | .bankClearDone .. | .porstNLow | .vddMonitor
  | .thermalTrip | .thermalTripEnd | .hrstNLow | .hrstNRelease .. | .hedgeSupplyFault | .hedgeSupplyRestored ..
  | .selfTestDone .. | .crossLinkWord .. | .crossLinkLoss | .heartbeatTimeout | .testPulseFrame | .pulseCheckSample ..
  | .discrepancyTimeout .. | .hlkiLow | .blackChannelSend .. | .blackChannelFrame .. | .connectionTimeout .. | .sframe ..
  | .btest | .engageTimeEnd | .holdWindowEnd | .brakeTestEnd | .brakeDue .. | .brakeOverdue .. | .hedgeLOverdue ..
  | .safeAckNRise .. | .hlkiCheck .. | .statusWindowRefresh | .holdsBlockedEnd | .tapInstruction ..
  | .pcieConfigRequest .. | .linkTrained .. => true
  | _ => false

end Sys2Proof.Claims

/-- A step takes the command at the front of the queue and answers what exec answers with the queue's rest. -/
def Obligations.StepRunsFrontCommand : Prop :=
  ∀ (c : Instr) (rest : List Instr) (s : State),
    step { s with pending := c :: rest } = exec c { s with pending := rest }

/-- With no command waiting the block idles: one count of the free-running counter while the main device runs, and
nothing else (log 1, the model's choice). -/
def Obligations.EmptyQueueIdles : Prop :=
  ∀ s : State, s.pending = [] →
    step s = .next (if s.dev.boot.start = .done ∧ s.dev.boot.dead = false
      then withDev s { s.dev with ptm := { s.dev.ptm with frc := s.dev.ptm.frc + 1 } } else s)

/-- Every command answers a next state from every state, and leaves the variant and the waiting commands alone. -/
def Obligations.EveryCommandAnswers : Prop :=
  ∀ (c : Instr) (s : State), Ends c s fun t => t.variant = s.variant ∧ t.pending = s.pending

/-- From every state whose bank memory is in canonical form and lists bank words only, a step leads to such a state. -/
def Obligations.MemoryFormKept : Prop := ∀ s t : State, Safety.Inv s → step s = .next t → Safety.Inv t

/-- Reset: memory in canonical form with every word zero, no command waiting, cycle count and phase zero, no queue
enabled, no semaphore held, no port counting, the Hedge island in INIT with safe outputs. -/
def Obligations.ResetState : Prop :=
  Safety.Inv State.reset ∧ (∀ a, memRead State.reset.mem a = 0) ∧ State.reset.pending = []
    ∧ State.reset.dev.phase.ncc = 0 ∧ State.reset.dev.phase.mph = 0 ∧ State.reset.dev.sys.cycOn = false
    ∧ (∀ q, (tabGet {} State.reset.dev.cmd.queues q).en = false)
    ∧ (∀ n, tabGet 0 State.reset.dev.mem.sems n = 0)
    ∧ (∀ n, (tabGet {} State.reset.dev.fp n).cnt = 0)
    ∧ State.reset.dev.hdg.pState = .init ∧ State.reset.dev.hdg.lState = .init
    ∧ State.reset.dev.hdg.brkP = 0 ∧ State.reset.dev.hdg.brkL = 0
    ∧ State.reset.dev.hdg.stoA = false ∧ State.reset.dev.hdg.stoB = false

/-- While the main device does not run (in its start-up, or after a failure of its oscillator), a command that is not of
the Hedge island, the resets or the start-up changes nothing. -/
def Obligations.StoppedDeviceIgnores : Prop :=
  ∀ (c : Instr) (s : State), actsAnyway c = false → (s.dev.boot.start ≠ .done ∨ s.dev.boot.dead = true) →
    exec c s = .next s

/-! The event log (spec/03 R92, R93), semaphores (spec/16 R527 to R530) and mailboxes (spec/17 R533 to R540). -/

namespace Sys2Proof.Claims

/-- The records the event log holds (Table 3.21): 256 × 2^LCODE, an LCODE above 8 used as 8. -/
def logLength (s : State) : Nat := 256 * 2 ^ min s.dev.cmd.evLen 8

/-- Word address of the record that is written next. -/
def nextRecord (s : State) : Nat := s.dev.cmd.evBase + 4 * s.dev.cmd.evWr

/-- The words of the next record lie in bank memory, in groups that are on. -/
def logReady (s : State) : Prop :=
  ∀ k, k < 4 →
    isBank (nextRecord s + k) = true ∧ s.dev.boot.bgrp.getLsbD ((nextRecord s + k) % 32 / 4) = true

/-- One event record has been written: cycle, source, instance and code, and detail at the record, the write index
advanced, the oldest unread record discarded with OVR where the log was full, and no other word of memory changed
(R92, R93). -/
def EventLogged (src inst code detail : Nat) (s t : State) : Prop :=
  let n := (s.dev.cmd.evWr + 1) % logLength s
  t.dev.cmd.evWr = n
    ∧ t.dev.cmd.evRd = (if n = s.dev.cmd.evRd then (s.dev.cmd.evRd + 1) % logLength s else s.dev.cmd.evRd)
    ∧ t.dev.cmd.evOvr = (s.dev.cmd.evOvr || decide (n = s.dev.cmd.evRd))
    ∧ memRead t.mem (nextRecord s + 1) = s.dev.phase.ncc
    ∧ memRead t.mem (nextRecord s + 2) = BitVec.ofNat 36 (src * 2 ^ 28 + inst * 2 ^ 16 + code)
    ∧ memRead t.mem (nextRecord s + 3) = BitVec.ofNat 36 detail
    ∧ ∀ a, (a < nextRecord s ∨ nextRecord s + 4 ≤ a) → memRead t.mem a = memRead s.mem a

/-- Who holds a semaphore: none, or a MID. -/
def holder (n : Nat) (s : State) : Option Nat :=
  match tabGet 0 s.dev.mem.sems n with | 0 => none | m + 1 => some m

/-- The state with another holder of a semaphore. -/
def withHolder (n : Nat) (h : Option Nat) (s : State) : State :=
  withDev s { s.dev with mem := { s.dev.mem with
    sems := tabSet 0 s.dev.mem.sems n (match h with | none => 0 | some m => m + 1) } }

/-- A word answered to the reader. -/
def answered (v : Word) (s : State) : State := withDev s { s.dev with out := s.dev.out ++ [.readData [v]] }

/-- A channel of the mailboxes. -/
def channel (c : Nat) (s : State) : MbxChan := tabGet {} s.dev.mbx.chans c

/-- The side of a bound channel that a MID is: A (false) or B (true). -/
def SideIs (mid c : Nat) (b : Bool) (s : State) : Prop :=
  (channel c s).valid = true ∧ (channel c s).midA ≠ (channel c s).midB
    ∧ mid = (if b then (channel c s).midB else (channel c s).midA)

/-- The record of a side. -/
def sideRec (b : Bool) (x : MbxChan) : MbxSide := if b then x.b else x.a

/-- Nothing but the mailboxes, the interrupt registers and the messages sent out has changed. -/
def OnlyMailboxes (s t : State) : Prop :=
  t = withDev s { s.dev with mbx := t.dev.mbx, hif := t.dev.hif, out := t.dev.out }

/-- The channel but for the two queues and the count of lost sends is as before, and so is every other channel. -/
def ChannelsKept (c : Nat) (s t : State) : Prop :=
  (channel c t).valid = (channel c s).valid ∧ (channel c t).midA = (channel c s).midA
    ∧ (channel c t).midB = (channel c s).midB ∧ (channel c t).a.sd = (channel c s).a.sd
    ∧ (channel c t).b.sd = (channel c s).b.sd ∧ ∀ k, k ≠ c → channel k t = channel k s

end Sys2Proof.Claims

/-- A read of a semaphore is a test-and-set: a free one is acquired for the reading MID and ACQ = 1 is answered; a held one
stays, and ACQ = 0 is answered with the holder's MID in bits [12:8] (Table 16.16). Nothing else changes. -/
def Obligations.SemaphoreReadIsTestAndSet : Prop :=
  ∀ (mid : Fin 32) (n : Fin 64) (s : State), live s = true →
    exec (.semRead mid n) s = .next (match holder n s with
      | none => answered 1 (withHolder n (some mid) s)
      | some m => answered (BitVec.ofNat 36 (m % 32 * 256)) s)

/-- A write of a semaphore by its holder releases it and changes nothing else; a write by any other MID leaves every
semaphore alone and logs SEM_NOT_OWNER with the writer's MID. A forced release by MID 0 or 1 releases it whoever holds it
and logs SEM_FORCED with the former holder's MID; by any other MID it changes nothing. -/
def Obligations.SemaphoreRelease : Prop :=
  (∀ (mid : Fin 32) (n : Fin 64) (s : State), live s = true →
    (holder n s = some mid.val → exec (.semWrite mid n) s = .next (withHolder n none s))
    ∧ (holder n s ≠ some mid.val → logReady s →
        Ends (.semWrite mid n) s fun t => t.dev.mem.sems = s.dev.mem.sems ∧ EventLogged 6 n 1 mid s t))
  ∧ (∀ (mid : Fin 32) (v : Word) (s : State), live s = true →
    (1 < mid.val → exec (.semForceWrite mid v) s = .next s)
    ∧ (∀ m, mid.val ≤ 1 → holder (v.toNat % 64) s = some m → logReady s →
        Ends (.semForceWrite mid v) s fun t =>
          t.dev.mem.sems = tabSet 0 s.dev.mem.sems (v.toNat % 64) 0 ∧ EventLogged 6 (v.toNat % 64) 2 m s t))

/-- A send by one side of a bound channel: with LEN 1 to 8 and room for the words, the first LEN staging words join the queue
as one message; without room the queue stays and the sender's count of lost sends goes up to 65,535 at most; with LEN 0 or
above 8 both stay. The staging words, the other direction and every other channel stay. A write to MBXc_POP by one side of a
bound channel removes the head message of the queue toward it, and one to an empty queue leaves it; the other direction and
every other channel stay. A write of 1 to MBX_CTL sets LOCK, and none clears it. -/
def Obligations.MailboxCommands : Prop :=
  (∀ (mid : Fin 32) (c : Fin 16) (v : Word) (b : Bool) (s : State), live s = true → SideIs mid c b s →
     let len := v.toNat % 16
     let me := sideRec b (channel c s)
     let used := (me.queue.map List.length).sum
     Ends (.mbxSend mid c v) s fun t =>
       let me' := sideRec b (channel c t)
       ChannelsKept c s t ∧ sideRec (!b) (channel c t) = sideRec (!b) (channel c s)
         ∧ (1 ≤ len ∧ len ≤ 8 ∧ used + len ≤ 8 →
             me'.queue = me.queue ++ [me.sd.take len] ∧ me'.slost = me.slost ∧ OnlyMailboxes s t)
         ∧ (1 ≤ len ∧ len ≤ 8 ∧ 8 < used + len →
             me'.queue = me.queue ∧ me'.slost = (if me.slost < 65535 then me.slost + 1 else me.slost))
         ∧ (len = 0 ∨ 8 < len → me' = me ∧ OnlyMailboxes s t))
  ∧ ((∀ (mid : Fin 32) (c : Fin 16) (b : Bool) (s : State), live s = true → SideIs mid c b s →
       Ends (.mbxPop mid c) s fun t =>
         (sideRec (!b) (channel c t)).queue = (sideRec (!b) (channel c s)).queue.drop 1
           ∧ sideRec b (channel c t) = sideRec b (channel c s) ∧ ChannelsKept c s t ∧ OnlyMailboxes s t)
     ∧ (∀ (v : Word) (s : State), live s = true →
         exec (.mbxLock v) s = .next (withDev s { s.dev with mbx := { s.dev.mbx with
           lock := decide (s.dev.mbx.lock = true ∨ v.toNat % 2 = 1) } })))


/-! The feedback ports (spec/09 R295 to R306). -/

namespace Sys2Proof.Claims

/-- A feedback port. -/
def port (n : Nat) (s : State) : FpPort := tabGet {} s.dev.fp n

/-- The state with another record of a port. -/
def withPort (n : Nat) (x : FpPort) (s : State) : State := withDev s { s.dev with fp := tabSet {} s.dev.fp n x }

/-- The level a line is taken to have: a new one once it has been read in FILT + 1 consecutive samples; a shorter excursion
is discarded (R293). -/
def taken (filt r : Nat) (was now : Bool) : Bool := if filt + 1 ≤ r then now else was

/-- The levels the Hall lines are taken to have, each on its own, H1 in bit 0 (R293). -/
def takenHall (filt r1 r2 r3 was now : Nat) : Nat :=
  (taken filt r1 (was.testBit 0) (now.testBit 0)).toNat + 2 * (taken filt r2 (was.testBit 1) (now.testBit 1)).toNat
    + 4 * (taken filt r3 (was.testBit 2) (now.testBit 2)).toNat

/-- What an accepted change of A or of B adds to the count with DIR = 0: a change of A that leaves A ≠ B and a change of B
that leaves A = B add 1, the opposite cases subtract 1 (R295). -/
def quadCount (la lb a b : Bool) : Int :=
  if la ≠ a ∧ lb = b then (if a ≠ b then 1 else -1)
  else if la = a ∧ lb ≠ b then (if a = b then 1 else -1)
  else 0

/-- The sector of the lines H3 H2 H1 (Table 9.2); none for 000 and 111. -/
def sectorOf (h : Nat) : Option Nat := [none, some 0, some 2, some 1, some 4, some 5, some 3, none].getD h none

/-- The port after the Hall lines take levels h in HALL mode (R298); HERR where the change is not to the next or the
previous sector, or the levels are invalid. -/
def afterHall (x : FpPort) (h : Nat) : FpPort :=
  let sign : Int := if x.dir then -1 else 1
  match sectorOf h with
  | none => { x with hall := h, hallBad := true, herr := true }
  | some k =>
    let x' := { x with hall := h, hallBad := false, sector := k }
    if k = x.sector then x'
    else if k = (x.sector + 1) % 6 then { x' with cnt := x.cnt + BitVec.ofInt 36 sign }
    else if x.sector = (k + 1) % 6 then { x' with cnt := x.cnt - BitVec.ofInt 36 sign }
    else { x' with herr := true }

end Sys2Proof.Claims

/-- A change of A or of B is accepted once the line has read its new level in FILT + 1 samples, and a shorter one is discarded.
In QUAD and COMBINED modes an accepted change of A or of B alone moves the count by one as R295 says, with every sign
inverted by DIR = 1; no change leaves it. The levels are kept, and nothing else changes. When A and B both change in one
sample the count is unchanged, QILL counts up to 65,535, and QERR is set; FP_QERR is logged when QERR goes from 0 to 1. With
no earlier illegal transition within reach no port fault is raised. Every other port stays. -/
def Obligations.QuadratureEdge : Prop :=
  (∀ (n : Fin 8) (a b : Bool) (ra rb : Nat) (s : State), live s = true →
     let x := port n s
     let a' := taken x.filt ra x.la a
     let b' := taken x.filt rb x.lb b
     (x.mode = 2 ∨ x.mode = 3) → ¬ (x.la ≠ a' ∧ x.lb ≠ b') →
       exec (.quadEdge n ⟨a, ra⟩ ⟨b, rb⟩) s = .next (withPort n { x with
         la := a', lb := b'
         cnt := x.cnt + BitVec.ofInt 36 ((if x.dir then -1 else 1) * quadCount x.la x.lb a' b') } s))
  ∧ (∀ (n : Fin 8) (a b : Bool) (ra rb : Nat) (s : State), live s = true →
       let x := port n s
       (x.mode = 2 ∨ x.mode = 3) → x.la ≠ taken x.filt ra x.la a → x.lb ≠ taken x.filt rb x.lb b →
       x.ill2 = none → x.qill + 1 < 65535 →
         Ends (.quadEdge n ⟨a, ra⟩ ⟨b, rb⟩) s fun t =>
           (port n t).cnt = x.cnt ∧ (port n t).qill = x.qill + 1 ∧ (port n t).qerr = true
             ∧ (port n t).pflt = x.pflt ∧ (∀ k, k ≠ n.val → port k t = port k s)
             ∧ (x.qerr = true → SameMemory s t)
             ∧ (x.qerr = false → logReady s → EventLogged 12 n 1 0 s t))

/-- A change of a Hall line is accepted once it has read its new level in HFILT + 1 samples, and a shorter one is discarded. In
HALL mode a change to the next sector adds 1 to the count and a change to the previous one subtracts 1, with DIR
inverting both; a change to any other valid sector sets HERR, leaves the count and becomes the present one; an invalid
state sets HERR and holds the present sector. FP_HALL is logged when HERR goes from 0 to 1, and otherwise nothing but the
port changes. -/
def Obligations.HallCount : Prop :=
  ∀ (n : Fin 8) (h : Fin 8) (r1 r2 r3 : Nat) (s : State), live s = true →
    let x := port n s
    let h' := takenHall x.hfilt r1 r2 r3 x.hall h
    let y := afterHall x h'
    (h' = x.hall → exec (.hallChange n ⟨h, r1, r2, r3⟩) s = .next s)
    ∧ (h' ≠ x.hall → x.mode = 1 → x.sector < 6 →
      (y.herr = x.herr → exec (.hallChange n ⟨h, r1, r2, r3⟩) s = .next (withPort n y s))
      ∧ (y.herr ≠ x.herr → logReady s → Ends (.hallChange n ⟨h, r1, r2, r3⟩) s fun t =>
          port n t = y ∧ (∀ k, k ≠ n.val → port k t = port k s) ∧ EventLogged 12 n 4 0 s t))

/-- An edge of Z at the polarity of ZPOL that FILT accepts, with A and B high where ZGATE asks for it, latches the count and
sets IDX_NEW in QUAD and COMBINED modes; a shorter excursion of Z is discarded. The first latch after an arming is IDX_FIRST; a later one with CPR not 0 is stored with
its difference from IDX_FIRST modulo CPR, nearest to zero with ties taken as plus CPR ÷ 2. Within the window nothing but
the port changes; the latch never changes the count. -/
def Obligations.IndexLatch : Prop :=
  ∀ (n : Fin 8) (z : Bool) (r : Nat) (s : State), live s = true →
    let x := port n s
    (r ≤ x.filt → exec (.indexEdge n ⟨z, r⟩) s = .next (withPort n x s))
    ∧ (x.filt < r → (x.mode = 2 ∨ x.mode = 3) → x.lz = x.zpol → z ≠ x.lz →
      (x.zgate = true → x.la = true ∧ x.lb = true) →
      (x.needFirst = true → exec (.indexEdge n ⟨z, r⟩) s = .next (withPort n { x with
        lz := z, idxl := x.cnt, idxNew := true, idxf := x.cnt, firstOk := true, needFirst := false } s))
      ∧ (x.needFirst = false → x.cpr = 0 → exec (.indexEdge n ⟨z, r⟩) s = .next (withPort n { x with
        lz := z, idxl := x.cnt, idxNew := true } s))
      ∧ (∀ d k : Int, x.needFirst = false → (x.cnt - x.idxf).toInt = k * x.cpr + d →
          -(x.cpr : Int) < 2 * d → 2 * d ≤ x.cpr → 0 < x.cpr →
          (|d| ≤ (x.idxWin : Int) → exec (.indexEdge n ⟨z, r⟩) s = .next (withPort n { x with
            lz := z, idxl := x.cnt, idxNew := true, idxd := BitVec.ofInt 25 d } s))
          ∧ ((x.idxWin : Int) < |d| → Ends (.indexEdge n ⟨z, r⟩) s fun t =>
              port n t = { x with lz := z, idxl := x.cnt, idxNew := true, idxd := BitVec.ofInt 25 d, drift := true }
                ∧ (logReady s → EventLogged 12 n 3 (BitVec.ofInt 36 d).toNat s t))))

/-- Out of mode 0 the end of a speed window publishes the signed net count of the window as SPDE, its rate in counts per
second as SPD, and starts the next window; in mode 0 nothing changes. A write of CNT is taken in mode 0 and ignored in any
other. A write of 1 to IDX_REARM makes the next latch the first. A write of FPn_CFG takes its fields: MODE and DIR only while
the port is neither the phase source nor the master of an engaged gear. Entry to COMBINED mode from another sets the count to
sector × HCPS, or to 0 where the Hall lines are invalid; any other change keeps the count. Entry to HALL or COMBINED mode with
invalid Hall lines sets HERR (for HALL mode the model's reading, log 150). Every other port stays.
-/
def Obligations.PortRegisterWrites : Prop :=
  ((∀ (n : Fin 8) (s : State), live s = true →
     let x := port n s
     let net := (x.cnt - x.winBase).toInt
     exec (.speedWindowEnd n) s = .next (if x.mode = 0 then s else withPort n { x with
       spde := BitVec.ofInt 24 net, spd := fRat ((net : ℚ) * 100000 / (min 1000 (max 1 x.spw) : ℕ)), winBase := x.cnt } s))
   ∧ (∀ (n : Fin 8) (v : Word) (s : State), live s = true →
       exec (.fpnCntWrite n v) s = .next (if (port n s).mode = 0 then withPort n { port n s with cnt := v } s else s))
   ∧ (∀ (n : Fin 8) (s : State), live s = true →
       exec (.idxRearm n) s = .next (withPort n { port n s with needFirst := true } s)))
  ∧ (∀ (n : Fin 8) (v : Word) (s : State), live s = true →
       let x := port n s
       let m := v.toNat % 4
       let busy := fpInUse n (begin_ s) && (decide (m ≠ x.mode) || decide (v.getLsbD 2 ≠ x.dir))
       let m' := if busy then x.mode else m
       Ends (.fpnCfgWrite n v) s fun t =>
         let y := port n t
         y.mode = m' ∧ y.dir = (if busy then x.dir else v.getLsbD 2)
           ∧ y.zpol = v.getLsbD 3 ∧ y.zgate = v.getLsbD 4 ∧ y.fstop = v.getLsbD 5
           ∧ y.filt = v.toNat / 64 % 16 ∧ y.hfilt = v.toNat / 1024 % 256 ∧ y.spw = v.toNat / 262144 % 1024
           ∧ y.cnt = (if m' = 3 ∧ x.mode ≠ 3 then
               (match sectorOf x.hall with | some k => BitVec.ofNat 36 (k * x.hcps) | none => 0) else x.cnt)
           ∧ (m' = 1 ∨ m' = 3 → x.mode ≠ m' → sectorOf x.hall = none → y.herr = true)
           ∧ (∀ k, k ≠ n.val → port k t = port k s))


/-! The command queues and the event log's registers (spec/03 R56 to R66, R87 to R96, R645). -/

namespace Sys2Proof.Claims

/-- A command queue, and the result slot of one of its entries. -/
def queue (q : Nat) (s : State) : Queue := tabGet {} s.dev.cmd.queues q
def slot (q e : Nat) (s : State) : Slot := tabGet {} (queue q s).slots e

/-- The port that owns a queue: PCI Express (MID 0) Q0 to Q3, SPI (MID 1) Q4 (R56). -/
def ownerOf (q : Nat) : Nat := if q = 4 then 1 else 0

/-- Every queue reads as f says, back-pressure apart, and no word of memory changes, nor the dispatch list, the journal or
the admitted effects. -/
def QueuesBecome (f : Nat → Queue) (s t : State) : Prop :=
  (∀ k, k < 5 → queue k t = { f k with bp := (queue k t).bp }) ∧ SameMemory s t
    ∧ t.dev.cmd.dispatch = s.dev.cmd.dispatch ∧ t.dev.cmd.journal = s.dev.cmd.journal
    ∧ t.dev.cmd.effects = s.dev.cmd.effects

/-- A queue that alone holds a packet that may be dequeued now: local entries, the slot at HEAD released, room in the
dispatch list, an earlier packet of the queue still in it, the task dispatcher taking the job. -/
def ReadyAlone (q : Nat) (s : State) : Prop :=
  let x := queue q s
  let h := memRead s.mem (x.baseL % 2 ^ 23 + 64 * (x.head % 256))
  fromConfig s.dev.sys.st = true ∧ x.en = true ∧ x.loc = false ∧ x.head ≠ x.tail ∧ x.head < 512 ∧ x.tail < 512
    ∧ x.dmaErr = false ∧ (slot q (x.head % 256) s).released = true
    ∧ (∀ k, k < 5 → k ≠ q → (queue k s).en = false)
    ∧ s.dev.cmd.dispatch.length < 64 ∧ s.dev.cmd.dispatch.any (fun p => p.q == q) = true
    ∧ tduBusy (begin_ s) = false ∧ h.toNat / 2 ^ 26 ≠ 0x140

end Sys2Proof.Claims

/-- A write of CMDq_TAIL by the owner of the queue stores bits [8:0], unless TAIL - HEAD would pass 256 entries; by another
port it is ignored and logged as CMD_PORT_WRONG. A write of CMDq_REL by the owner releases the slot it names when its STATUS
is not PENDING: STATUS becomes PENDING, RLEN 0 and the result words go, while OPCODE, GEN and SEQ stay; every other slot
stays. A slot that is PENDING stays and CMD_REL_PENDING is logged. CMDq_CTL: EN going from 0 to 1 clears HEAD and TAIL, takes
LOC and RMIR (0 for Q4), and leaves every slot of the queue released with GEN 0; EN going to 0 keeps the queue; LOC and RMIR
are ignored while EN stays 1. -/
def Obligations.QueueRegisterWrites : Prop :=
  (∀ (mid : Fin 32) (q : Fin 5) (v : Word) (s : State), live s = true →
     (mid.val = ownerOf q → Ends (.cmdqTailWrite mid q v) s fun t =>
       QueuesBecome (fun k => if k = q.val ∧ (v.toNat % 512 + 512 - (queue q s).head) % 512 ≤ 256
         then { queue k s with tail := v.toNat % 512 } else queue k s) s t)
     ∧ (mid.val ≠ ownerOf q → logReady s → Ends (.cmdqTailWrite mid q v) s fun t =>
         t.dev.cmd.queues = s.dev.cmd.queues ∧ EventLogged 4 q 5 0 s t))
  ∧ (∀ (mid : Fin 32) (q : Fin 5) (v : Word) (s : State), live s = true → mid.val = ownerOf q →
       let e := v.toNat % 256
       ((slot q e s).status ≠ 1 → Ends (.cmdqRelWrite mid q v) s fun t =>
         slot q e t = { slot q e s with status := 1, rlen := 0, res := [], owner := none, released := true }
           ∧ (∀ k j, k ≠ q.val ∨ j ≠ e → slot k j t = slot k j s)
           ∧ (queue q t).head = (queue q s).head ∧ (queue q t).tail = (queue q s).tail)
       ∧ ((slot q e s).status = 1 → logReady s → Ends (.cmdqRelWrite mid q v) s fun t =>
           t.dev.cmd.queues = s.dev.cmd.queues ∧ EventLogged 4 q 3 0 s t))
  ∧ (∀ (q : Fin 5) (v : Word) (s : State), live s = true →
       Ends (.cmdqCtlWrite q v) s fun t =>
         let x := queue q s
         let y := queue q t
         y.en = v.getLsbD 0
           ∧ (x.en = false → y.loc = (v.getLsbD 1 && decide (q.val ≠ 4)) ∧ y.rmir = (v.getLsbD 2 && decide (q.val ≠ 4)))
           ∧ (x.en = true → y.loc = x.loc ∧ y.rmir = x.rmir ∧ y.head = x.head ∧ y.tail = x.tail ∧ y.slots = x.slots)
           ∧ (x.en = false → v.getLsbD 0 = true → y.head = 0 ∧ y.tail = 0
               ∧ ∀ e, e < 256 → (slot q e t).released = true ∧ (slot q e t).gen = 0 ∧ (slot q e t).status = 1)
           ∧ ∀ k, k < 5 → k ≠ q.val → queue k t = { queue k s with bp := (queue k t).bp })

/-- The DMA fetch of the entry at HEAD of a queue of host memory: its words are at hand when it ends well; when it ends with
an error HEAD stays and DMA_ERR is set. Writing 1 to DMA_ERR clears it, so that the fetch is made again. DEQUEUE takes the
packet at the HEAD of a queue that alone may be dequeued: HEAD moves on by one, the slot of the entry takes OPCODE and SEQ of
the header with GEN one up modulo 64 and STATUS PENDING, and the packet joins the end of the dispatch list behind the earlier
packet of its queue. -/
def Obligations.EntryFetchAndDequeue : Prop :=
  ((∀ (q : Fin 5) (ok : Bool) (ws : List Word) (s : State), live s = true →
     let x := queue q s
     x.en = true → x.loc = true → x.head ≠ x.tail → x.head < 512 → x.tail < 512 → x.fetched = none → x.dmaErr = false →
       Ends (.entryFetch q ok ws) s fun t =>
         (ok = true → QueuesBecome (fun k => if k = q.val then { x with fetched := some ws } else queue k s) s t)
           ∧ (ok = false → (queue q t).dmaErr = true ∧ (queue q t).head = x.head ∧ (queue q t).fetched = none
               ∧ ∀ k, k ≠ q.val → queue k t = queue k s))
   ∧ (∀ (q : Fin 5) (s : State), live s = true →
       Ends (.dmaErrClear q) s fun t =>
         QueuesBecome (fun k => if k = q.val then { queue q s with
           dmaErr := false, fetched := if (queue q s).dmaErr then none else (queue q s).fetched } else queue k s) s t))
  ∧ (∀ (q : Fin 5) (s : State), live s = true → ReadyAlone q s →
       let x := queue q s
       let e := x.head % 256
       let a := x.baseL % 2 ^ 23 + 64 * e
       let h := memRead s.mem a
       Ends .dequeue s fun t =>
         (queue q t).head = (x.head + 1) % 512
           ∧ (slot q e t).gen = ((slot q e s).gen + 1) % 64 ∧ (slot q e t).status = 1
           ∧ (slot q e t).opcode = h.toNat / 2 ^ 26 ∧ (slot q e t).seq = h.toNat / 256 % 4096
           ∧ ∃ p : Packet, t.dev.cmd.dispatch = s.dev.cmd.dispatch ++ [p] ∧ p.q = q.val ∧ p.entry = e
               ∧ p.words = (List.range 64).map (fun k => memRead s.mem (a + k)))

/-- A write of CMD_EVRD stores the index modulo the length of the log in every state. In CONFIG a write of CMD_EVBASE or
CMD_EVLEN takes effect, the base aligned to the length, and clears both indices; in any other state it is ignored. -/
def Obligations.EventLogRegisters : Prop :=
  (∀ (v : Word) (s : State), live s = true →
    exec (.cmdEvrdWrite v) s = .next (withDev s { s.dev with cmd := { s.dev.cmd with
      evRd := v.toNat % 65536 % logLength s } }))
  ∧ (∀ (len : Bool) (v : Word) (s : State), live s = true →
      (s.dev.sys.st ≠ .config → exec (.eventLogConfigWrite len v) s = .next s)
      ∧ (s.dev.sys.st = .config → Ends (.eventLogConfigWrite len v) s fun t =>
          let n := if len then v.toNat % 16 else s.dev.cmd.evLen
          let b := if len then s.dev.cmd.evBase else v.toNat % 2 ^ 23
          t = withDev s { s.dev with cmd := { s.dev.cmd with
            evLen := n, evWr := 0, evRd := 0, evBase := b / (1024 * 2 ^ min n 8) * (1024 * 2 ^ min n 8) } }))

/-! The command packets (spec/03 Tables 3.3 and 3.4, R61 to R90; spec/04). A packet's own effect, as it comes in, is its
admission: it completes in its cycle, or it is accepted and its effect is set for the sync point the rules give. -/

namespace Sys2Proof.Claims

/-- The opcode, header and parameter words of a packet's row (Table 3.3). -/
def rowOf : Instr → Option (Nat × PktHead × List Word)
  | .nop h => some (0x000, h, []) | .stateRequest h t => some (0x001, h, [t]) | .modeSwitch h m l => some (0x002, h, [m, l])
  | .ptAdjust h a b r => some (0x003, h, [a, b, r]) | .axisEnable h a => some (0x040, h, [a])
  | .axisDisable h a => some (0x041, h, [a]) | .moveAbs h a p k => some (0x042, h, [a, p, k])
  | .moveRel h a p k => some (0x043, h, [a, p, k]) | .moveVel h a v k => some (0x044, h, [a, v, k])
  | .moveCoord h a ts k => some (0x045, h, [a] ++ ts ++ [k]) | .stop h a => some (0x046, h, [a])
  | .quickStop h a => some (0x047, h, [a]) | .faultClear h a => some (0x048, h, [a])
  | .loadClass h a k => some (0x049, h, [a, k]) | .gearEngage h o m n d r => some (0x080, h, [o, m, n, d, r])
  | .gearRatioAt h o p n d r => some (0x081, h, [o, p, n, d, r]) | .gearDisengage h o => some (0x082, h, [o])
  | .stepEnable h a o r => some (0x0C0, h, [a, o, r]) | .stepMove h a p k => some (0x0C1, h, [a, p, k])
  | .stepVel h a v k => some (0x0C2, h, [a, v, k]) | .stepStop h a => some (0x0C3, h, [a])
  | .ioWrite h ps => some (0x100, h, ps.flatMap (fun p => [p.1, p.2])) | .ioRead h ps => some (0x101, h, ps)
  | .bundleCommit h => some (0x141, h, []) | .bundleAbort h => some (0x142, h, [])
  | .paramWrite h o n vs => some (0x180, h, [o, n] ++ vs) | .paramRead h o n k => some (0x181, h, [o, n, k])
  | .harvestArm h k o => some (0x1C0, h, [k, o]) | .harvestDisarm h k => some (0x1C1, h, [k])
  | .maskLoad h k g a n => some (0x1C2, h, [k, g, a, n]) | .brakeTestReq h b => some (0x200, h, [b])
  | .safeStatusRead h => some (0x201, h, []) | .ledgerRead h a n => some (0x240, h, [a, n])
  | .journalRead h q n => some (0x241, h, [q, n]) | .egvMode h o => some (0x280, h, [o])
  | _ => none

/-- The packet as it is taken, with a fresh identity. -/
def packetOf (op : Nat) (h : PktHead) (ps : List Word) (s : State) : Packet :=
  { id := freshId (begin_ s), q := h.queue, entry := h.entry, words := packetWords op h ps }

/-- The block at the packet's admission: its job enqueued and its slot claimed (R61, R89). -/
def atAdmission (op : Nat) (h : PktHead) (ps : List Word) (s : State) : Work :=
  let hd := headerWord op ps.length h
  let w := freeN 4096 (begin_ s)
  let w := (tduEnqueue (pktLevel hd) { key := w.1, packet := freshId (begin_ s) } w.2).2
  claimSlot h.queue h.entry (freshId (begin_ s)) hd { w with d.cmd.nextId := freshId (begin_ s) + 1 }

/-- The packet is dequeued and comes to its admission at once: the queue is served from CONFIG on, the entry's slot is
released, there is room in the dispatch list and for the job, no earlier packet of the queue waits, the journal has room,
no bundle is decided in this cycle, and the phase source has been sampled where the phase counts (R61 to R66, spec/04 R102,
R103, R110, R133, spec/13 R425). -/
def Served (op : Nat) (h : PktHead) (ps : List Word) (s : State) : Prop :=
  live s = true ∧ fromConfig s.dev.sys.st = true ∧ (queue h.queue s).en = true
    ∧ (slot h.queue h.entry s).released = true
    ∧ s.dev.cmd.dispatch.length < 64 ∧ s.dev.cmd.dispatch.any (fun p => p.q == h.queue.val) = false
    ∧ tduBusy (begin_ s) = false ∧ ps.length ≤ 62
    ∧ (op = 0x140 → commitsFull h.queue (begin_ s) = false)
    ∧ jFull h.queue (atAdmission op h ps s) = false ∧ decisionCycle (atAdmission op h ps s) = false
    ∧ sampleWaits (packetOf op h ps s) (atAdmission op h ps s) = false
    ∧ journalRoom (packetOf op h ps s) (atAdmission op h ps s) = true

/-- Every check passes: those of R7 and R79, the descriptor check of HARVEST_ARM, no faulted axis (spec/06 R216), and the
thermal state HOLD does not refuse it (spec/12 R401). -/
def Passes (op : Nat) (h : PktHead) (ps : List Word) (s : State) : Prop :=
  let p := packetOf op h ps s
  let w := atAdmission op h ps s
  packetFails p w = none ∧ armCheck p w = none ∧ faultBad op ps w = none ∧ holdBad op w = false

/-- The general share has room for the packet, and no packet dequeued before it waits for the same share (spec/04 R104). -/
def Room (op : Nat) (h : PktHead) (ps : List Word) (s : State) : Prop :=
  generalRoom op ps (atAdmission op h ps s) = true ∧ behind (packetOf op h ps s) (atAdmission op h ps s) = false

/-- A packet by itself, not for a bundle. -/
def Alone (h : PktHead) : Prop := h.inBundle = false

/-- The slot of the packet shows a status with the present cycle as ACC_NCC, one generation on, with OPCODE and SEQ of its
header. -/
def SlotShows (op : Nat) (h : PktHead) (status : Nat) (s t : State) : Prop :=
  let x := slot h.queue h.entry t
  x.status = status ∧ x.acc = s.dev.phase.ncc ∧ x.opcode = op ∧ x.seq = h.seq.toNat
    ∧ x.gen = ((slot h.queue h.entry s).gen + 1) % 64

/-- One effect has been admitted, of this opcode and with these parameters first, at this time. -/
def EffectAdded (op : Nat) (ps : List Word) (time : When) (s t : State) : Prop :=
  ∃ e : Effect, t.dev.cmd.effects = s.dev.cmd.effects ++ [e] ∧ e.op = op ∧ ps <+: e.ps ∧ e.time = time
    ∧ e.cmd.id = freshId (begin_ s) ∧ e.bundle = none

/-- The first parameter number and the words of a node's transfer: a write's all, a read's from the first to the last number
of those it covers that are of class N (R651). -/
def nodeSpan (op : Nat) (ps : List Word) : Nat × Nat :=
  if op = 0x181 then
    let l := (coveredNums op ps).filter (fun n => paramCls (objKind (prm ps 1)) (objIndex (prm ps 1)) n == some .n)
    (l.headD 0, l.getLastD 0 + 1 - l.headD 0)
  else ((prm ps 2).toNat, ps.length - 2)

/-- The cycle k cycles after the present one. -/
def cycleIn (k : Nat) (s : State) : Word := s.dev.phase.ncc + BitVec.ofNat 36 k

/-- Network cycles per slow group, 1, 2, 4 or 8, and the first sync point of the slow group after next (R78). -/
def SlowIs (n : Nat) (s : State) : Prop := max 1 s.dev.sys.slowDiv = n ∧ (n = 1 ∨ n = 2 ∨ n = 4 ∨ n = 8)
def slowGroupAfterNext (n : Nat) (s : State) : Word :=
  BitVec.ofNat 36 (s.dev.phase.ncc.toNat / n * n + 2 * n)

end Sys2Proof.Claims

/-- A packet that needs no resource completes in the cycle of its admission: NOP, IO_READ, SAFE_STATUS_READ, LEDGER_READ,
JOURNAL_READ, MASK_LOAD and PT_ADJUST, and PARAM_READ of parameters the device holds itself. The slot shows OK, or with
NO_RESULT is released again, and the dispatch list and the admitted effects stay. NOP brings no result words, SAFE_STATUS_READ the eight window words,
PT_ADJUST the two words of the counter, and PT_ADJUST sets the plant time's rate and moves it by its increment. -/
def Obligations.PacketCompletesAtOnce : Prop :=
  ∀ (c : Instr) (op : Nat) (h : PktHead) (ps : List Word) (s : State), rowOf c = some (op, h, ps) →
    op ∈ [0x000, 0x101, 0x201, 0x240, 0x241, 0x1C2, 0x003, 0x181] → (op = 0x181 → nodeCmd 0x181 ps = false) →
    Served op h ps s → Passes op h ps s → Alone h → h.phased = false →
      Ends c s fun t => (h.noResult = false → SlotShows op h 0x00 s t)
        ∧ (h.noResult = true → (slot h.queue h.entry t).status = 1 ∧ (slot h.queue h.entry t).released = true)
        ∧ t.dev.cmd.dispatch = s.dev.cmd.dispatch ∧ t.dev.cmd.effects = s.dev.cmd.effects
        ∧ (op = 0x000 → (slot h.queue h.entry t).res = [])
        ∧ (op = 0x201 → h.noResult = false → (slot h.queue h.entry t).res = (List.range 8).map (fun k => hdgRead k (begin_ s)))
        ∧ (op = 0x003 →
            (h.noResult = false → (slot h.queue h.entry t).res
              = [BitVec.ofNat 36 (s.dev.ptm.frc.toNat / 2 ^ 36), BitVec.ofNat 36 s.dev.ptm.frc.toNat])
            ∧ t.dev.ptm.rate = ps.getD 2 0 ∧ t.dev.ptm.frcB = s.dev.ptm.frc
            ∧ t.dev.ptm.ofs = plantTime s.dev.ptm s.dev.ptm.frc
                + BitVec.ofInt 64 (BitVec.ofNat 64 ((ps.getD 0 0).toNat % 2 ^ 28 * 2 ^ 36 + (ps.getD 1 0).toNat)).toInt)

/-- An immediate command of the fast class that carries no power curve is ACCEPTED in the cycle n of its admission when the
general share has room, and its effect is set for the sync point n + 2: AXIS_ENABLE, AXIS_DISABLE, FAULT_CLEAR, LOAD_CLASS,
GEAR_ENGAGE and GEAR_DISENGAGE of a servo slave, HARVEST_ARM, HARVEST_DISARM, EGV_MODE, and PARAM_WRITE of class A. STOP and
QUICK_STOP reserve nothing: they are ACCEPTED whatever the shares hold, for the sync point n + 2. An immediate command of slow
class is ACCEPTED, and its effect is set for the first sync point of the slow group after next, while no change of mode is
pending: STEP_ENABLE, STEP_MOVE, STEP_VEL, STEP_STOP, IO_WRITE, and GEAR_ENGAGE and GEAR_DISENGAGE of a stepper slave. -/
def Obligations.ImmediateCommandAccepted : Prop :=
  ((∀ (c : Instr) (op : Nat) (h : PktHead) (ps : List Word) (s : State), rowOf c = some (op, h, ps) →
      op ∈ [0x040, 0x041, 0x048, 0x049, 0x080, 0x082, 0x1C0, 0x1C1, 0x280, 0x180] →
      (op = 0x080 ∨ op = 0x082 → slowOp op ps = false) →
      (op = 0x180 → cmdCls ps = some .a ∧ nodeCmd 0x180 ps = false) →
      Served op h ps s → Passes op h ps s → Alone h → h.phased = false → Room op h ps s →
        Ends c s fun t => SlotShows op h 0x02 s t ∧ (slot h.queue h.entry t).effKnown = true
          ∧ (slot h.queue h.entry t).eff = cycleIn 2 s ∧ EffectAdded op ps (.at (cycleIn 2 s)) s t)
   ∧ (∀ (c : Instr) (op : Nat) (h : PktHead) (ps : List Word) (s : State), rowOf c = some (op, h, ps) →
        op ∈ [0x046, 0x047] → Served op h ps s → Passes op h ps s → Alone h → h.phased = false →
          Ends c s fun t => SlotShows op h 0x02 s t ∧ (slot h.queue h.entry t).eff = cycleIn 2 s
            ∧ EffectAdded op ps (.at (cycleIn 2 s)) s t
            ∧ t.dev.cmd.genNow = s.dev.cmd.genNow ∧ t.dev.cmd.phNow = s.dev.cmd.phNow))
  ∧ (∀ (c : Instr) (op n : Nat) (h : PktHead) (ps : List Word) (s : State), rowOf c = some (op, h, ps) →
       op ∈ [0x0C0, 0x0C1, 0x0C2, 0x0C3, 0x100, 0x080, 0x082] → slowOp op ps = true →
       Served op h ps s → Passes op h ps s → Alone h → h.phased = false → SlowIs n s →
       s.dev.trl.heal = none → s.dev.trl.prop = none →
       (op = 0x0C3 ∨ Room op h ps s) →
         Ends c s fun t => SlotShows op h 0x02 s t ∧ (slot h.queue h.entry t).effKnown = true
           ∧ EffectAdded op ps (.at (slowGroupAfterNext n s)) s t)

/-- A move of servo axes with the governor on is ACCEPTED for the sync point n + 2 delayed by the d cycles the governor
needs to place its power curve within the slack; DELAY shows d, and the general share takes its units. A phased
one is ACCEPTED for its phase where the governor places its curve at the predicted cycle. One that carries no curve, a
MOVE_REL superposed on gearing, is ACCEPTED without a delay. MOVE_ABS, MOVE_REL, MOVE_VEL, MOVE_COORD. -/
def Obligations.MoveAccepted : Prop :=
  ∀ (c : Instr) (op d : Nat) (h : PktHead) (ps : List Word) (s : State), rowOf c = some (op, h, ps) →
    op ∈ [0x042, 0x043, 0x044, 0x045] → Served op h ps s → Passes op h ps s → Alone h →
    s.dev.egv.on = true → s.dev.egv.rebuild = false →
    let w := atAdmission op h ps s
    (h.phased = false → Room op h ps s →
      (curvedMove op ps (.at (cycleIn 2 s)) w = true ∧
          egvPlace (curveAt [(op, ps)] (cycleIn 2 s) w) (cycleIn 2 s) (slackCycles op ps w) w = .inl d
        ∨ curvedMove op ps (.at (cycleIn 2 s)) w = false ∧ d = 0) →
        Ends c s fun t => SlotShows op h 0x02 s t ∧ (slot h.queue h.entry t).delay = d
          ∧ EffectAdded op ps (.at (cycleIn 2 s + BitVec.ofNat 36 d)) s t
          ∧ t.dev.cmd.genNow = s.dev.cmd.genNow + plannerUnits op ps)
    ∧ (∀ c0, h.phased = true → ps.length ≤ 61 → phaseAhead false h.phase w = true →
        clusterRoom (plannerUnits op ps) 0 h.phase w = true →
        (curvedMove op ps (.phase h.phase) w = true ∧ predictAt false h.phase w = some c0
            ∧ egvPlace (curveAt [(op, ps)] c0 w) c0 0 w = .inl d
          ∨ curvedMove op ps (.phase h.phase) w = false) →
          Ends c s fun t => SlotShows op h 0x02 s t ∧ EffectAdded op ps (.phase h.phase) s t)

/-- A phased command that carries no power curve is ACCEPTED while the earliest effect lies ahead of the phase and R106 leaves
room at its phase; its effect is set for its phase, and EFF_KNOWN stays clear until the phase is evaluated. -/
def Obligations.PhasedCommandAccepted : Prop :=
  ∀ (c : Instr) (op : Nat) (h : PktHead) (ps : List Word) (s : State), rowOf c = some (op, h, ps) →
    op ∈ [0x040, 0x041, 0x046, 0x047, 0x049, 0x080, 0x082, 0x0C0, 0x0C1, 0x0C2, 0x0C3, 0x100, 0x180, 0x1C0] →
    (op = 0x180 → nodeCmd 0x180 ps = false ∧ cmdCls ps ≠ some .d) →
    Served op h ps s → Passes op h ps s → Alone h → h.phased = true → ps.length ≤ 61 →
    let w := atAdmission op h ps s
    phaseAhead (slowOp op ps) h.phase w = true →
    (stopClass op = true ∨ clusterRoom (plannerUnits op ps + replanUnits op ps w) (stepperPlans op ps) h.phase w = true) →
      Ends c s fun t => SlotShows op h 0x02 s t ∧ (slot h.queue h.entry t).effKnown = false
        ∧ EffectAdded op ps (.phase h.phase) s t

/-- A packet with IN_BUNDLE that passes its checks and names no axis, stepper or point the open bundle of its queue already
names is ACCEPTED and becomes the bundle's last member; no effect is set by itself. BUNDLE_OPEN in a queue without an open
bundle completes OK and opens one with the count it expects; BUNDLE_ABORT takes the open bundle away; BUNDLE_COMMIT of an open
bundle of fast members without a servo move, with every condition of R118 and R119 met, is ACCEPTED and the bundle is staged
for its phase. -/
def Obligations.BundleCommandsAccepted : Prop :=
  (∀ (c : Instr) (op : Nat) (h : PktHead) (ps : List Word) (b : Bundle) (s : State), rowOf c = some (op, h, ps) →
     bundleOk op = true → op ≠ 0x081 → Served op h ps s → Passes op h ps s → h.inBundle = true →
     h.phased = false → openBundle h.queue (begin_ s) = some b → b.state = .open_ →
     memberClash b op ps (atAdmission op h ps s) = none →
       Ends c s fun t => SlotShows op h 0x02 s t ∧ t.dev.cmd.effects = s.dev.cmd.effects
         ∧ ∃ e : Effect, e.op = op ∧ ps <+: e.ps ∧ e.time = .bundle ∧ e.bundle = some b.id
             ∧ t.dev.cmd.bundles
                 = s.dev.cmd.bundles.map (fun x => if x.id = b.id then { b with members := b.members ++ [e] } else x))
  ∧ ((∀ (h : PktHead) (n : Option Word) (s : State), Served 0x140 h n.toList s → Passes 0x140 h n.toList s → Alone h →
       h.phased = false → h.noResult = false → openBundle h.queue (begin_ s) = none →
       commitsFull h.queue (atAdmission 0x140 h n.toList s) = false →
         Ends (.bundleOpen h n) s fun t => SlotShows 0x140 h 0x00 s t
           ∧ t.dev.cmd.bundles = s.dev.cmd.bundles ++ [{
               id := s.dev.cmd.nextBundle, q := h.queue, expected := (n.getD 0).toNat }])
     ∧ (∀ (h : PktHead) (b : Bundle) (s : State), Served 0x142 h [] s → Passes 0x142 h [] s → Alone h → h.phased = false →
       h.noResult = false →
       openBundle h.queue (begin_ s) = some b → b.state = .open_ →
         Ends (.bundleAbort h) s fun t => SlotShows 0x142 h 0x00 s t
           ∧ t.dev.cmd.bundles = s.dev.cmd.bundles.filter (fun x => x.id != b.id))
     ∧ (∀ (h : PktHead) (b : Bundle) (s : State), Served 0x141 h [] s → Passes 0x141 h [] s → Alone h → h.phased = true →
       let w := atAdmission 0x141 h [] s
       openBundle h.queue (begin_ s) = some b → b.state = .open_ → b.expected = b.members.length →
       (∀ e ∈ b.members, servoMove e.op = false ∧ memberBytes e = none) →
       commitAhead b h.phase w = true →
       clusterRoom ((b.members.map effUnits).sum) ((b.members.map effPlans).sum) h.phase w = true →
       stagingInTime b h.phase ((b.members.map effUnits).sum) w = true →
         Ends (.bundleCommit h) s fun t => SlotShows 0x141 h 0x02 s t
           ∧ ∃ b' ∈ t.dev.cmd.bundles, b'.id = b.id ∧ b'.state = .staging ∧ b'.phase = h.phase ∧ b'.members = b.members))

/-- Commands that another protocol carries on: STATE_REQUEST toward TEST completes OK with the device in TEST; MODE_SWITCH is
ACCEPTED with its proposal offered for n + L; GEAR_RATIO_AT is ACCEPTED and waits for its master position; BRAKE_TEST_REQ is
ACCEPTED and its test is under way at SC0; and a class-N PARAM_WRITE or PARAM_READ with room on its ring is ACCEPTED and kept
until the node answers, a read over the node's own numbers from the first to the last. -/
def Obligations.CarriedCommandsAccepted : Prop :=
  (∀ (h : PktHead) (t0 : Word) (s : State), t0 = 9 → Served 0x001 h [t0] s → Passes 0x001 h [t0] s → Alone h →
    h.phased = false → h.noResult = false → Ends (.stateRequest h t0) s fun t => SlotShows 0x001 h 0x00 s t ∧ t.dev.sys.st = .test)
  ∧ (∀ (h : PktHead) (m l : Word) (s : State), Served 0x002 h [m, l] s → Passes 0x002 h [m, l] s → Alone h →
    h.phased = false → max 1 s.dev.sys.slowDiv ≥ 2 ^ (tabGet {} s.dev.trl.modes m.toNat).slowl →
      Ends (.modeSwitch h m l) s fun t => SlotShows 0x002 h 0x02 s t
        ∧ ∃ p, t.dev.trl.prop = some p ∧ p.mode = m.toNat ∧ p.n = s.dev.phase.ncc + l ∧ p.agreed = false)
  ∧ (∀ (h : PktHead) (o p n d r : Word) (s : State), Served 0x081 h [o, p, n, d, r] s → Passes 0x081 h [o, p, n, d, r] s →
    Alone h → h.phased = false → ratioSigma [o, p, n, d, r] (atAdmission 0x081 h [o, p, n, d, r] s) ≠ 0 →
      Ends (.gearRatioAt h o p n d r) s fun t => SlotShows 0x081 h 0x02 s t
        ∧ EffectAdded 0x081 [o, p, n, d, r] (.master p) s t)
  ∧ (∀ (h : PktHead) (v : Word) (s : State), Served 0x200 h [v] s → Passes 0x200 h [v] s → Alone h → h.phased = false →
      Ends (.brakeTestReq h v) s fun t => SlotShows 0x200 h 0x02 s t
        ∧ ∃ r a, t.dev.hdg.btCmd = some (r, a) ∧ r.id = freshId (begin_ s) ∧ r.q = h.queue.val
            ∧ (v.getLsbD 8 = true → a = v.toNat % 256))
  ∧ (∀ (c : Instr) (op : Nat) (h : PktHead) (ps : List Word) (s : State), rowOf c = some (op, h, ps) →
    op ∈ [0x180, 0x181] → nodeCmd op ps = true → Served op h ps s → Passes op h ps s → Alone h → h.phased = false →
    acycRoom (objNode (prm ps 1)).1 8 (acycBytes (nodeSpan op ps).2) (atAdmission op h ps s) = .fits →
      Ends c s fun t => SlotShows op h 0x02 s t
        ∧ ∃ x, t.dev.cmd.xfers = s.dev.cmd.xfers ++ [x] ∧ x.cmd.id = freshId (begin_ s) ∧ x.addr = (nodeSpan op ps).1
            ∧ x.count = (nodeSpan op ps).2 ∧ x.read = decide (op = 0x181) ∧ x.sent = false)

/-! Resets, start-up, flash and clocks (spec/18 R544 to R577, spec/01 R30). -/

namespace Sys2Proof.Claims

/-- A whole-device reset has taken place (R565, Table 18.5): the device is OFF with its cause and start-up begins at the
given step; bank memory is discarded; command system, motion, rings, modes and mailboxes are as they were made, no semaphore
is held; the channels of the Hedge island and its outputs, and what the flash holds, stay; MEM_UEINFO and AGE_PPM stay where
the cause is not 0. -/
def ResetTo (cause : Nat) (start : Startup) (s t : State) : Prop :=
  t.dev.sys = { st := .off, prev := s.dev.sys.st, rstCause := cause } ∧ t.dev.boot.start = start
    ∧ t.dev.boot.bootOk = false ∧ (∀ a, isBank a = true → memRead t.mem a = 0)
    ∧ t.dev.cmd = {} ∧ t.dev.phase = {} ∧ t.dev.ptm = {} ∧ t.dev.pln = {} ∧ t.dev.ce = {} ∧ t.dev.fd = []
    ∧ t.dev.stp = {} ∧ t.dev.fp = [] ∧ t.dev.dq = [] ∧ t.dev.trl = {} ∧ t.dev.egv = {} ∧ t.dev.grf = {} ∧ t.dev.hvs = {}
    ∧ t.dev.tdu = {} ∧ t.dev.mbx = {} ∧ t.dev.hif = {} ∧ t.dev.mem.sems = []
    ∧ t.dev.hdg.pState = s.dev.hdg.pState ∧ t.dev.hdg.lState = s.dev.hdg.lState ∧ t.dev.hdg.conns = s.dev.hdg.conns
    ∧ t.dev.hdg.brkP = s.dev.hdg.brkP ∧ t.dev.hdg.brkL = s.dev.hdg.brkL
    ∧ t.dev.hdg.stoA = s.dev.hdg.stoA ∧ t.dev.hdg.stoB = s.dev.hdg.stoB
    ∧ t.dev.flash.cells = s.dev.flash.cells
    ∧ (cause = 0 → t.dev.mem.ueValid = false ∧ t.dev.boot.agePpm = 0)
    ∧ (cause ≠ 0 → t.dev.mem.ueValid = s.dev.mem.ueValid ∧ t.dev.mem.ueMid = s.dev.mem.ueMid
        ∧ t.dev.mem.ueKind = s.dev.mem.ueKind ∧ t.dev.mem.ueAddr = s.dev.mem.ueAddr ∧ t.dev.boot.agePpm = s.dev.boot.agePpm)

/-- The state with other clock, reset and boot registers. -/
def withBoot (b : BootSt) (s : State) : State := withDev s { s.dev with boot := b }

/-- The key of SYS_RST. -/
def keyed (v : Word) : Prop := v.toNat / 2 ^ 28 % 256 = 0x5A

/-- A ring controller at its reset values where it is named. -/
def ringCleared (on : Bool) (k : Nat) (t : Tab RingSt) : Tab RingSt := if on then tabSet {} t k {} else t

/-- The limits of the start-up judge as whole numbers: C passes where 2,560 (1 - w) ≤ C ≤ 2,560 (1 + w), w the 3 % band
and AGE_PPM parts in a million (R547); AGE_PPM counts to 100. -/
def windowPasses (age c : Nat) : Prop :=
  c ≠ 0 ∧ 2560 * (1000000 - (30000 + min age 100)) ≤ 1000000 * c ∧ 1000000 * c ≤ 2560 * (1000000 + (30000 + min age 100))

end Sys2Proof.Claims

/-- The sources of a whole-device reset. A write to SYS_RST with the key and WHOLE resets with cause 2, and with another key
nothing happens; PORST_N low holds the device in reset with cause 0, and the supply monitor restarts it with cause 0;
PERST_N low with PERST_WHOLE = 1 resets with cause 1; a thermal trip holds the device in reset with cause 3. -/
def Obligations.WholeDeviceReset : Prop :=
  (∀ (v : Word) (s : State), live s = true →
    (keyed v → v.getLsbD 0 = true → Ends (.sysRstWhole v) s (ResetTo 2 .settle s))
    ∧ (¬ keyed v → exec (.sysRstWhole v) s = .next s))
  ∧ (∀ s : State, Ends .porstNLow s (ResetTo 0 .held s))
  ∧ (∀ s : State, s.dev.boot.start ≠ .held → Ends .vddMonitor s (ResetTo 0 .settle s))
  ∧ (∀ s : State, live s = true → s.dev.boot.perstWhole = true → Ends .perstNLow s (ResetTo 1 .settle s))
  ∧ (∀ s : State, s.dev.boot.start ≠ .held → s.dev.boot.dead = false →
      Ends .thermalTrip s fun t => ResetTo 3 .held s t ∧ t.dev.boot.tripped = true)

/-- A PCI Express side reset (R566) clears EN of Q0 to Q3, keeps Q4, releases the semaphores of MID 0 and no other, and keeps
the device state, the dispatch list and the admitted effects; PERST_N low with PERST_WHOLE = 0 is one. A write to SYS_RST with
the key in CONFIG or TEST resets the units it names: bit 1 the cascade engines, 2 Furrow, 3 and 4 the ring controllers, 5 the
graft, 6 the harvest engine; with another key or in another state it is ignored. The end of a thermal trip starts the device
from reset unless PORST_N is low; a failed oscillator stops every unit; a lost external REFCLK is noted while it is selected. -/
def Obligations.PartialResets : Prop :=
  (∀ (c : Instr) (s : State), live s = true → c = .pcieSideReset ∨ c = .perstNLow ∧ s.dev.boot.perstWhole = false →
     Ends c s fun t =>
       (∀ q, q < 4 → queue q t = { queue q s with en := false }) ∧ queue 4 t = queue 4 s
         ∧ (∀ n, n < 64 → holder n t = (if holder n s = some 0 then none else holder n s))
         ∧ t.dev.sys = s.dev.sys ∧ t.dev.cmd.dispatch = s.dev.cmd.dispatch ∧ t.dev.cmd.effects = s.dev.cmd.effects
         ∧ t.dev.cmd.journal = s.dev.cmd.journal ∧ t.dev.hif.linkUp = false ∧ t.dev.hif.msixEn = false)
  ∧ ((∀ (v : Word) (s : State), live s = true →
       (keyed v ∧ (s.dev.sys.st = .config ∨ s.dev.sys.st = .test) →
         exec (.sysRstUnit v) s = .next (withDev s { s.dev with
           ce := if v.getLsbD 1 then {} else s.dev.ce
           fd := if v.getLsbD 2 then [] else s.dev.fd
           dq := ringCleared (v.getLsbD 4) 1 (ringCleared (v.getLsbD 3) 0 s.dev.dq)
           dqShown := ringCleared (v.getLsbD 4) 1 (ringCleared (v.getLsbD 3) 0 s.dev.dqShown)
           grf := if v.getLsbD 5 then {} else s.dev.grf
           hvs := if v.getLsbD 6 then {} else s.dev.hvs }))
       ∧ (¬ (keyed v ∧ (s.dev.sys.st = .config ∨ s.dev.sys.st = .test)) → exec (.sysRstUnit v) s = .next s))
     ∧ (∀ s : State, exec .thermalTripEnd s = .next (if s.dev.boot.tripped = true
         then withBoot { s.dev.boot with
           tripped := false, tripLow := false, start := if s.dev.boot.tripLow then .held else .settle } s else s))
     ∧ (∀ s : State, live s = true → exec .xoFailure s = .next (withBoot { s.dev.boot with dead := true } s))
     ∧ (∀ s : State, live s = true → exec .refclkLoss s = .next (if s.dev.boot.refsrc = true
         then withBoot { s.dev.boot with refLost := true, refLock := false } s else s)))

/-- The start-up in order (Table 18.3): PORST_N rises and the straps are sampled; a thermal trip holds the device on until its
end, through PORST_N and the supply monitor (R30); the settle count ends; the judge accepts
the oscillator at the eighth consecutive passing window and holds the device with STAT = 3 at the eighth failing one; the
PLLs lock and every group is cleared; with the last group BOOT is entered. -/
def Obligations.StartUp : Prop :=
  (∀ (u : Fin 16) (m : Fin 4) (s : State), s.dev.boot.start = .held → s.dev.boot.tripped = false →
    exec (.porstNRelease u m) s = .next (withBoot { s.dev.boot with
      strapUnit := u, strapMode := m, tripLow := false, start := .settle } s))
  ∧ (∀ (c : Instr) (s : State), s.dev.boot.start = .held → s.dev.boot.tripped = true →
      c = .porstNLow ∨ c = .vddMonitor ∨ (∃ u m, c = .porstNRelease u m) →
      Ends c s fun t => t.dev.boot.start = .held ∧ t.dev.boot.tripped = true)
  ∧ (∀ s : State, s.dev.boot.start = .settle →
      exec .rcSettleEnd s = .next (withBoot { s.dev.boot with start := .judge, passes := 0, fails := 0 } s))
  ∧ (∀ (c : Fin 4096) (s : State), s.dev.boot.start = .judge → s.dev.sys.st ≠ .bootHold →
      let b := s.dev.boot
      (windowPasses b.agePpm c → exec (.judgeWindow c) s = .next (withBoot { b with
        lastC := c, passes := b.passes + 1, start := if b.passes + 1 = 8 then .locking else .judge } s))
      ∧ (¬ windowPasses b.agePpm c → b.fails + 1 ≠ 8 → exec (.judgeWindow c) s = .next (withBoot { b with
        lastC := c, passes := 0, fails := b.fails + 1 } s))
      ∧ (¬ windowPasses b.agePpm c → b.fails + 1 = 8 → Ends (.judgeWindow c) s fun t =>
        t.dev.sys.st = .bootHold ∧ t.dev.boot.holdStat = 3 ∧ SameMemory s t))
  ∧ (∀ s : State, s.dev.boot.start = .locking → Ends .pllLocked s fun t =>
      t.dev.boot.start = .clearing ∧ t.dev.boot.bgrp = 0xFF ∧ t.dev.mem.clrBusy = 0xFF ∧ t.dev.mem.clrDone = 0
        ∧ ∀ a, isBank a = true → memRead t.mem a = 0)
  ∧ (∀ (g : Fin 8) (s : State), s.dev.boot.start = .clearing → s.dev.boot.dead = false → s.dev.mem.clrBusy.getLsbD g = true →
      (∀ k : Fin 8, k ≠ g → s.dev.mem.clrBusy.getLsbD k = false) →
      Ends (.bankClearDone g) s fun t => t.dev.boot.start = .done ∧ t.dev.boot.bootOk = true
        ∧ t.dev.boot.unitId = s.dev.boot.strapUnit ∧ t.dev.boot.bootMode = s.dev.boot.strapMode
        ∧ t.dev.sys.st = (if s.dev.boot.strapMode = 3 then .bootHold else .boot)
        ∧ (s.dev.boot.strapMode = 3 → t.dev.boot.holdStat = 7) ∧ t.dev.mem.clrDone.getLsbD g = true)

/-- The firmware and the configuration (R570, R571, R574): in boot modes 0 and 1 image 1 is tried where image 0 failed, and
the device is held with STAT = 7 where it fails too; in mode 2 the image is checked after GO, and no GO within its time holds
the device. RELOAD starts a load in CONFIG. The load copies LEN words, 409,600 at most, of the slot that the last pointer
entry names to bank memory from 0x78_0000, and the one of BOOT leads to CONFIG. Direct flash access (R577): in CONFIG with no
operation in progress a command starts one over its bytes; otherwise it only sets ERR. At its end a read moves the bytes to
the buffer words, a program the buffer words' bytes to the flash, within one 256-byte page, and an erase sets its 64 KiB
sector to all ones; ERR is set where the flash reported an error, and nothing but the flash, its buffer and free values
changes. -/
def Obligations.FirmwareConfigurationAndFlash : Prop :=
  ((∀ (ok : Bool) (s : State), live s = true → s.dev.sys.st = .boot → s.dev.boot.verified = false →
     Ends (.bootImageCheck ok) s fun t =>
       (s.dev.boot.bootMode < 2 → ok = true →
           t.dev.boot.verified = true ∧ t.dev.boot.cfgBusy = true ∧ t.dev.boot.image = s.dev.boot.img0Bad)
         ∧ (s.dev.boot.bootMode < 2 → ok = false → s.dev.boot.img0Bad = false →
           t = withBoot { s.dev.boot with img0Bad := true } s)
         ∧ (s.dev.boot.bootMode < 2 → ok = false → s.dev.boot.img0Bad = true →
           t.dev.sys.st = .bootHold ∧ t.dev.boot.holdStat = 7)
         ∧ (s.dev.boot.bootMode = 2 → s.dev.boot.go = true → ok = false →
           t.dev.sys.st = .bootHold ∧ t.dev.boot.holdStat = 7)
         ∧ (s.dev.boot.bootMode = 2 → s.dev.boot.go = true → ok = true →
           t.dev.boot.verified = true ∧ t.dev.boot.cfgBusy = true ∧ t.dev.boot.image = s.dev.boot.image)
         ∧ (s.dev.boot.bootMode = 2 → s.dev.boot.go = false → t = s))
   ∧ (∀ s : State, live s = true → s.dev.sys.st = .boot → s.dev.boot.bootMode = 2 → s.dev.boot.verified = false →
       exec .go s = .next (withBoot { s.dev.boot with go := true } s)
       ∧ (s.dev.boot.go = false → Ends .goTimeout s fun t => t.dev.sys.st = .bootHold ∧ t.dev.boot.holdStat = 7))
   ∧ (∀ (v : Word) (s : State), live s = true → s.dev.sys.st = .config →
       exec (.reload v) s = .next (if v.getLsbD 23 = true then withBoot { s.dev.boot with cfgBusy := true } s else s))
   ∧ (∀ (img : Image) (n : Nat) (s : State), live s = true → s.dev.sys.st = .config → s.dev.boot.cfgBusy = true →
       let cell := fun a => tabGet 255 s.dev.flash.cells a
       let b := fun a => cell a % 256
       let word := fun a => BitVec.ofNat 36
         (b a * 2 ^ 32 + b (a + 1) * 2 ^ 24 + b (a + 2) * 2 ^ 16 + b (a + 3) * 2 ^ 8 + b (a + 4))
       let slot := (word (0x800000 + 5 * n)).toNat % 8
       let base := 0x900000 + 0x200000 * slot
       let len := min 409600 (word (base + 5)).toNat
       n + 1 < 13107 → (∀ k, k ≤ n → ∃ j, j < 5 ∧ cell (0x800000 + 5 * k + j) ≠ 255) →
       (∀ j, j < 5 → cell (0x800000 + 5 * (n + 1) + j) = 255) → s.dev.boot.bgrp = 0xFF →
       (∀ k, k < 4 → nextRecord s + k < 0x780000 ∨ 0x780000 + len ≤ nextRecord s + k) →
       Ends (.cfgLoaded img) s fun t =>
         t.dev.boot.cfgBusy = false ∧ t.dev.boot.slot = slot ∧ t.dev.boot.cfgLen = len ∧ t.dev.boot.cfgId = word base
           ∧ t.dev.boot.ptrEmpty = false ∧ t.dev.trl.img = some img ∧ t.dev.sys.st = .config
           ∧ (∀ k, k < len → memRead t.mem (0x780000 + k) = word (base + 10 + 5 * k))
           ∧ ∀ k, len ≤ k → k < s.dev.boot.cfgLen → k < 409600 → (∀ j, j < 4 → nextRecord s + j ≠ 0x780000 + k) →
               memRead t.mem (0x780000 + k) = 0)
   ∧ (∀ (img : Image) (s : State), live s = true → s.dev.sys.st = .boot → s.dev.boot.verified = true →
       s.dev.boot.cfgBusy = true →
       Ends (.cfgLoaded img) s fun t => t.dev.sys.st = .config ∧ t.dev.sys.role = .solo ∧ t.dev.mbx.lock = true
         ∧ t.dev.boot.cfgBusy = false ∧ t.dev.trl.img = some img))
  ∧ ((∀ (k : Nat) (c : Instr) (n : Nat) (len : Fin 256) (clr : Bool) (s : State), live s = true →
       (c, k, n) ∈ [(Instr.flashRead len clr, 1, len.val + 1), (Instr.flashProgram len clr, 2, len.val + 1),
         (Instr.sectorErase clr, 3, 0)] →
         let f := s.dev.flash
         exec c s = .next (withDev s { s.dev with flash :=
           if s.dev.sys.st = .config ∧ f.busy = false
           then { f with err := f.err && !clr, busy := true, op := some (k, f.addr, n) }
           else { f with err := true } }))
     ∧ (∀ (err : Bool) (k a n : Nat) (s : State), live s = true → s.dev.flash.op = some (k, a, n) → n ≤ 256 →
         let byte := fun a => tabGet 255 s.dev.flash.cells a
         let here := fun i => a / 256 * 256 + (a + i) % 256
         Ends (.flashOperationDone err) s fun t =>
           t.dev.flash.busy = false ∧ t.dev.flash.op = none ∧ t.dev.flash.err = (s.dev.flash.err || err)
             ∧ t = withDev s { s.dev with flash := t.dev.flash, freeCtr := t.dev.freeCtr }
             ∧ (k = 1 → t.dev.flash.cells = s.dev.flash.cells
                 ∧ (err = false → (∀ a, byte a < 256) →
                     ∀ i, i < n → tabGet 0 t.dev.flash.buf (i / 4) / 2 ^ (24 - 8 * (i % 4)) % 256 = byte (here i)))
             ∧ (k = 2 → t.dev.flash.buf = s.dev.flash.buf ∧ (err = false → ∀ x,
                 tabGet 255 t.dev.flash.cells x = (match (List.range n).find? (fun i => here i == x) with
                   | some i => tabGet 0 s.dev.flash.buf (i / 4) / 2 ^ (24 - 8 * (i % 4)) % 256
                   | none => byte x)))
             ∧ (k = 3 → err = false → ∀ x,
                 tabGet 255 t.dev.flash.cells x = (if x / 65536 = a / 65536 then 255 else byte x))))

/-- CLKMEAS (R558): a write of CLK_MSEL takes its fields, with START a measurement, and is ignored while BUSY; the count of
two clocks that are multiples m and r of the oscillator is N m / r to within one. A write of CLK_GATE or CLK_GATECE in
CONFIG or TEST that would leave an enabled child under a gated parent changes neither and sets PRUNE_REFUSED; another one
takes the bits of the variant's units. PWR_BGRP acts in TEST only: a group that comes on or goes off is cleared. -/
def Obligations.ClocksAndBankGroups : Prop :=
  (∀ (v : Word) (s : State), live s = true →
    exec (.measurementStart v) s = .next (if s.dev.boot.mBusy = true then s else withBoot { s.dev.boot with
      meas := v.toNat / 2 ^ 28 % 16, mref := v.toNat / 2 ^ 24 % 16, nref := v.toNat % 2 ^ 24, mBusy := v.getLsbD 35 } s))
  ∧ (∀ (k : Nat) (s : State), live s = true → s.dev.boot.mBusy = true → Ends (.measurementDone k) s fun t =>
      let n := max 1 s.dev.boot.nref
      t.dev.boot.mBusy = false
        ∧ (∀ m r, xoMult s.dev.boot.meas = some m → xoMult s.dev.boot.mref = some r → n < 2 ^ 24 →
            t.dev.boot.mcnt ≤ n * m / r + 1 ∧ n * m / r ≤ t.dev.boot.mcnt + 1)
        ∧ (xoMult s.dev.boot.meas = none ∨ xoMult s.dev.boot.mref = none → t.dev.boot.mcnt = k % 2 ^ 32)
        ∧ t = withDev s { s.dev with boot := t.dev.boot, freeCtr := t.dev.freeCtr })
  ∧ (∀ (ce : Bool) (v : Word) (s : State), live s = true →
      let g := if ce then gateNow (begin_ s) else v.toNat &&& gateMask s.variant
      let e := if ce then v.toNat &&& (2 ^ numCE s.variant - 1) else gateCeNow (begin_ s)
      let refused := (∃ k, k < 4 ∧ g.testBit (14 + k) = true) ∧ g.testBit 19 = false
        ∨ e % 65536 ≠ 0 ∧ g.testBit 18 = false
      (s.dev.sys.st ≠ .config → s.dev.sys.st ≠ .test → exec (.clkGateWrite ce v) s = .next s)
      ∧ (s.dev.sys.st = .config ∨ s.dev.sys.st = .test → ¬ refused →
          exec (.clkGateWrite ce v) s = .next (withBoot { s.dev.boot with gate := some g, gateCe := some e } s))
      ∧ (s.dev.sys.st = .config ∨ s.dev.sys.st = .test → refused → logReady s → Ends (.clkGateWrite ce v) s fun t =>
          t.dev.boot = { s.dev.boot with prune := true } ∧ EventLogged 1 0 1 (v.toNat % 2 ^ 23) s t))
  ∧ (∀ (v : Word) (s : State), live s = true →
      (s.dev.sys.st ≠ .test → exec (.pwrBgrpWrite v) s = .next s)
      ∧ (s.dev.sys.st = .test → Ends (.pwrBgrpWrite v) s fun t =>
          (∀ g : Fin 8, t.dev.boot.bgrp.getLsbD g = v.getLsbD g)
            ∧ ∀ a, isBank a = true → memRead t.mem a
              = (if s.dev.boot.bgrp.getLsbD (a % 32 / 4) = v.getLsbD (a % 32 / 4) then memRead s.mem a else 0)))

/-! Admission of a waiting packet, the task dispatcher, thermal states, the phase registers, the care of memory and the ledger
(spec/04 R102, spec/12 R397 to R407, spec/02 R44 and R46, spec/16 R516 to R522, spec/19 R578 to R592). -/

namespace Sys2Proof.Claims

/-- The packet at place k of the dispatch list comes to its admission: it is the first of its queue, its outcome is open, the
journal has room, no bundle is decided in this cycle, and the phase source has been sampled where the phase counts. -/
def ComesUp (k : Nat) (p : Packet) (s : State) : Prop :=
  live s = true ∧ s.dev.cmd.dispatch[k]? = some p ∧ (∀ x ∈ s.dev.cmd.dispatch.take k, x.q ≠ p.q)
    ∧ p.id ≠ 0 ∧ (slot p.q p.entry s).owner = some p.id ∧ (∀ j ∈ s.dev.cmd.journal, j.id ≠ p.id)
    ∧ jFull p.q (begin_ s) = false ∧ decisionCycle (begin_ s) = false ∧ sampleWaits p (begin_ s) = false
    ∧ journalRoom p (begin_ s) = true

/-- The core a job is given to: outside LEAN and HOLD any; in HOLD core 0; in LEAN the core that last ran a job of its key,
or that number modulo 2 where it is parked, or any without a record (R404, R406). -/
def givenTo (c : Nat) (j : Job) (s : State) : Prop :=
  match s.dev.therm.state with
  | .full | .trim => True
  | .hold => c = 0
  | .lean =>
    match tabGet 0 s.dev.tdu.lastCore (j.key % 256) with
    | 0 => True
    | k + 1 => c = (if s.dev.tdu.awake.getLsbD k = true then k else k % 2)

/-- The thermal state by number: 0 FULL, 1 TRIM, 2 LEAN, 3 HOLD; entered at 95, 105 and 112 degrees, left below 90, 100 and
107 (Table 12.4). -/
def entered (t : Int) : Nat := if 112 ≤ t then 3 else if 105 ≤ t then 2 else if 95 ≤ t then 1 else 0
def leftBelow (n : Nat) : Int := [0, 90, 100, 107].getD n 0

/-- A rise goes straight up, a fall one state at a time (R398). -/
def nextThermal (n : Nat) (t : Int) : Nat :=
  if n < entered t then entered t else if 0 < n ∧ t < leftBelow n then n - 1 else n

/-- The hottest of the four sensors (R397). -/
def hottest (a b c d : BitVec 9) : Int := max (max a.toInt b.toInt) (max c.toInt d.toInt)

end Sys2Proof.Claims

/-- ADMISSION of a waiting packet: with an earlier packet of its queue waiting nothing happens. One that fails a check shows the
check's status and detail in its slot and leaves the dispatch list, and so does an immediate command of the fast class that
passes: it is ACCEPTED with its effect set for n + 2. -/
def Obligations.AdmissionOfWaitingPacket : Prop :=
  (∀ (k : Fin 64) (p : Packet) (s : State), s.dev.cmd.dispatch[k.val]? = some p →
    (∃ x ∈ s.dev.cmd.dispatch.take k, x.q = p.q) → exec (.admission k) s = .next s)
  ∧ (∀ (k : Fin 64) (p : Packet) (st det : Nat) (s : State), ComesUp k p s → ofBundle p = false →
      packetFails p (begin_ s) = some (st, det) → st ≠ 0 → st ≠ 1 →
      Ends (.admission k) s fun t => (slot p.q p.entry t).status = st ∧ (slot p.q p.entry t).detail = det
        ∧ (slot p.q p.entry t).res = [] ∧ t.dev.cmd.dispatch = s.dev.cmd.dispatch.filter (fun x => x.id != p.id)
        ∧ t.dev.cmd.effects = s.dev.cmd.effects)
  ∧ (∀ (k : Fin 64) (p : Packet) (s : State), ComesUp k p s → ofBundle p = false → pPhased p = false →
      pOp p ∈ [0x040, 0x041, 0x048, 0x049] → packetFails p (begin_ s) = none →
      faultBad (pOp p) (pPs p) (begin_ s) = none → holdBad (pOp p) (begin_ s) = false →
      generalRoom (pOp p) (pPs p) (begin_ s) = true → behind p (begin_ s) = false →
      Ends (.admission k) s fun t => (slot p.q p.entry t).status = 0x02 ∧ (slot p.q p.entry t).eff = cycleIn 2 s
        ∧ t.dev.cmd.dispatch = s.dev.cmd.dispatch.filter (fun x => x.id != p.id)
        ∧ ∃ e : Effect, t.dev.cmd.effects = s.dev.cmd.effects ++ [e] ∧ e.cmd.id = p.id ∧ e.op = pOp p
            ∧ e.time = .at (cycleIn 2 s))

/-- A core that is awake and idle takes the oldest job of the highest level among the jobs given to it; a parked core and one
with no such job take none. In LEAN and HOLD the core is recorded for the job's key. -/
def Obligations.TaskDispatch : Prop :=
  ∀ (c : Fin 4) (s : State), live s = true →
    let d := s.dev.tdu
    (∀ (n : Nat) (l r : List Job) (j : Job), n < 8 → d.awake.getLsbD c = true → d.levels[n]? = some (l ++ j :: r) →
      givenTo c j s → (∀ x ∈ l, ¬ givenTo c x s) → (∀ m v, n < m → d.levels[m]? = some v → ∀ x ∈ v, ¬ givenTo c x s) →
      exec (.tduDispatch c) s = .next (withDev s { s.dev with tdu := { d with
        levels := d.levels.set n (l ++ r)
        lastCore := if s.dev.therm.state = .lean ∨ s.dev.therm.state = .hold
          then tabSet 0 d.lastCore (j.key % 256) (c + 1) else d.lastCore } }))
    ∧ (d.awake.getLsbD c = false ∨ (∀ v ∈ d.levels, ∀ x ∈ v, ¬ givenTo c x s) → exec (.tduDispatch c) s = .next s)

/-- A thermal sample: the state becomes the highest one entered at the hottest sensor's temperature, or moves down one state
below the threshold of the present one, and else stays. Where it changes the cores of the new state are awake. -/
def Obligations.ThermalStates : Prop :=
  ∀ (a b c d : BitVec 9) (s : State), live s = true → Ends (.thermalSample a b c d) s fun t =>
    thermCode t.dev.therm.state = nextThermal (thermCode s.dev.therm.state) (hottest a b c d)
      ∧ t.dev.therm.sens = [a, b, c, d] ∧ t.dev.therm.tmax.toInt = hottest a b c d
      ∧ (t.dev.therm.state = s.dev.therm.state → SameMemory s t ∧ t.dev.tdu = s.dev.tdu
          ∧ t = withDev s { s.dev with therm := t.dev.therm, age := t.dev.age })
      ∧ (t.dev.therm.state ≠ s.dev.therm.state → t.dev.therm.prev = s.dev.therm.state
          ∧ t.dev.tdu = { s.dev.tdu with awake := match t.dev.therm.state with
              | .full | .trim => 0xF | .lean => 0x3 | .hold => 0x1 }
          ∧ (logReady s → EventLogged 2 0 1 ((BitVec.ofInt 9 (hottest a b c d)).toNat * 256
              + thermCode s.dev.therm.state * 4 + thermCode t.dev.therm.state) s t))

/-- From CONFIG on, a write of SYS_PHSRC with KIND 0, 1 or 2 and a write of SYS_PHCPM wait for the next sync point, and one of
SYS_PHSRC with a reserved KIND is ignored. A write of SYS_VMRATE is held from the next sync point and governs the advances
from the one into the sync point 3 cycles on. Before CONFIG they change nothing. -/
def Obligations.PhaseRegisterWrites : Prop :=
  ∀ (v : Word) (s : State), live s = true →
    (s.dev.sys.st = .boot ∨ s.dev.sys.st = .bootHold ∨ s.dev.sys.st = .off →
      exec (.sysPhsrcWrite v) s = .next s ∧ exec (.sysPhcpmWrite v) s = .next s ∧ exec (.sysVmrateWrite v) s = .next s)
    ∧ (s.dev.sys.st ≠ .boot → s.dev.sys.st ≠ .bootHold → s.dev.sys.st ≠ .off →
      (2 < v.toNat % 8 → exec (.sysPhsrcWrite v) s = .next s)
      ∧ (v.toNat % 8 ≤ 2 → exec (.sysPhsrcWrite v) s = .next (withDev s { s.dev with phase := { s.dev.phase with
          srcNext := some { kind := v.toNat % 8, port := v.toNat / 8 % 8, axis := v.toNat / 64 % 256 } } }))
      ∧ exec (.sysPhcpmWrite v) s = .next (withDev s { s.dev with phase := { s.dev.phase with
          cpmNext := some (v.toNat % 2 ^ 24) } })
      ∧ Ends (.sysVmrateWrite v) s fun t =>
          t = withDev s { s.dev with phase := { s.dev.phase with vmNext := some v, vmDirect := t.dev.phase.vmDirect } }
            ∧ ∀ e, e ∈ t.dev.phase.vmDirect ↔ e = (cycleIn 3 s, v) ∨ e ∈ s.dev.phase.vmDirect)

/-- A corrected word waits for its write-back, which clears its error and changes nothing else; where a write came first it
does nothing. A sweep takes its findings one after the other. The static sweep counts a single-bit error of a static page by
its bank; an uncorrectable word of a static page, or one whose words give another CRC than the store holds for it, counts in
MEM_PCRC and is logged, and in COMMISSION, RUN and RECOVERY it is memory death. The dynamic sweep corrects single-bit errors of the
other words and logs an uncorrectable one. A word known to be uncorrectable stays so whatever is found. -/
def Obligations.MemoryCare : Prop :=
  (∀ (a : Nat) (s : State), live s = true → exec (.eccWriteBack a) s = .next (if a ∈ s.dev.mem.writeBack
    then withDev s { s.dev with mem := { s.dev.mem with
      writeBack := s.dev.mem.writeBack.filter (fun x => x != a)
      ecc := if tabGet 0 s.dev.mem.ecc a = 1 then tabSet 0 s.dev.mem.ecc a 0 else s.dev.mem.ecc } } else s))
  ∧ (∀ (f : MemFind) (r : List MemFind) (us : Nat) (s t : State), live s = true →
      (exec (.scrubSweep [f] us) s = .next t → exec (.scrubSweep (f :: r) us) s = exec (.scrubSweep r us) t)
      ∧ (exec (.dynamicScrub [f]) s = .next t → exec (.dynamicScrub (f :: r)) s = exec (.dynamicScrub r) t))
  ∧ (∀ (us a : Nat) (s : State), live s = true → isBank a = true →
      let static := ∃ r ∈ s.dev.mem.static, r.1 ≤ a / 256 ∧ a / 256 < r.1 + r.2
      let n := tabGet 0 s.dev.mem.cerr (a % 32)
      let dies := s.dev.sys.st = .commission ∨ s.dev.sys.st = .run ∨ s.dev.sys.st = .recovery
      let known := tabGet 0 s.dev.mem.ecc a = 2
      (static → ¬ known → Ends (.scrubSweep [.single a] us) s fun t => t.dev.mem.sweepUs = min us 4095
        ∧ tabGet 0 t.dev.mem.cerr (a % 32) = (if n < 0xFFFFFF then n + 1 else n) ∧ a ∈ t.dev.mem.writeBack)
      ∧ (¬ static → ¬ known → Ends (.dynamicScrub [.single a]) s fun t =>
        tabGet 0 t.dev.mem.cerr (a % 32) = (if n < 0xFFFFFF then n + 1 else n) ∧ a ∈ t.dev.mem.writeBack)
      ∧ (∀ f, ¬ static → f = .double a ∨ known ∧ f = .single a → Ends (.dynamicScrub [f]) s fun t =>
        (a < nextRecord s ∨ nextRecord s + 4 ≤ a → tabGet 0 t.dev.mem.ecc a = 2)
          ∧ (logReady s → EventLogged 19 (a % 32) 1 a s t))
      ∧ (∀ f kind, static → kind = 2 ∧ (f = .double a ∨ known ∧ f = .single a)
            ∨ kind = 1 ∧ (∃ c, f = .page a c ∧ tabGet zeroPageCrc s.dev.mem.pageCrc (a / 256) ≠ c.toNat) →
          (¬ dies → Ends (.scrubSweep [f] us) s fun t =>
            t.dev.mem.pcrc = (if s.dev.mem.pcrc < 65535 then s.dev.mem.pcrc + 1 else s.dev.mem.pcrc)
              ∧ t.dev.sys = s.dev.sys ∧ t.dev.mem.ueValid = s.dev.mem.ueValid)
          ∧ (dies → Ends (.scrubSweep [f] us) s fun t => t.dev.sys.st = .off ∧ t.dev.sys.rstCause = 2
            ∧ t.dev.boot.start = .settle ∧ t.dev.mem.ueValid = true ∧ t.dev.mem.ueKind = kind
            ∧ t.dev.mem.ueAddr = (if kind = 1 then a / 256 * 256 else a)
            ∧ ∀ x, isBank x = true → memRead t.mem x = 0))
      ∧ (∀ c : BitVec 32, ¬ static ∨ tabGet zeroPageCrc s.dev.mem.pageCrc (a / 256) = c.toNat →
          exec (.scrubSweep [.page a c] us) s = .next (withDev s { s.dev with mem := { s.dev.mem with
            sweepUs := min us 4095 } })))

/-- A write of AGE_BASE in CONFIG moves the mirror with its contents and changes no other word; in any other state it is
ignored. An operating hour in thermal state FULL in COMMISSION, RUN or RECOVERY appends a record: SEQ and the operating time
advance, the mirror's first words say so, the hour's values come first and the hour's maxima begin again; otherwise the hour
does nothing. GUARD_CHECK of a unit that sends a mode of the image: with the guard of each ring in use at least 24 + 2 |e| ns,
|e| the largest of the second, the requirements are shown and the second begins again. REVISION_REPROPOSE offers the kept
revision for 8 cycles on where nothing else is pending, and keeps it where something is. -/
def Obligations.LedgerAndGuards : Prop :=
  ((∀ (v : Word) (s : State), live s = true →
     (s.dev.sys.st ≠ .config → exec (.ageBaseWrite v) s = .next s)
     ∧ (s.dev.sys.st = .config → Ends (.ageBaseWrite v) s fun t =>
         let new := v.toNat / 65536 % 128 * 65536
         t.dev.age.base = new
           ∧ (new + 65536 ≤ s.dev.age.base ∨ s.dev.age.base + 65536 ≤ new → s.dev.boot.bgrp = 0xFF → isBank new = true →
             Safety.Inv s →
               (∀ k, k < 65536 → memRead t.mem (new + k) = memRead s.mem (s.dev.age.base + k))
               ∧ ∀ a, (a < new ∨ new + 65536 ≤ a) → memRead t.mem a = memRead s.mem a)))
   ∧ (∀ (cs : List Nat) (s : State), live s = true →
       let st := s.dev.sys.st
       let now := s.dev.therm.state = .full ∧ (st = .commission ∨ st = .run ∨ st = .recovery)
       (¬ now → ∀ eyes, exec (.ledgerHour cs eyes) s = .next s)
       ∧ (now → ∀ eyes, Ends (.ledgerHour cs eyes) s fun t =>
           t.dev.age.seq = s.dev.age.seq + 1 ∧ t.dev.age.secs = s.dev.age.secs + 3600
             ∧ t.dev.age.place = (s.dev.age.place % 1920 + 1) % 1920
             ∧ (t.dev.age.hours.head?.map fun h => (h.rate, h.eA, h.eB))
                 = some (s.dev.ptm.rate, s.dev.age.eHourA, s.dev.age.eHourB)
             ∧ t.dev.age.eHourA = 0 ∧ t.dev.age.eHourB = 0 ∧ t.dev.age.cerrHour = []
             ∧ (0x400000 ≤ s.dev.age.base → s.dev.age.base + 64 ≤ 0x800000 → s.dev.boot.bgrp = 0xFF →
                 memRead t.mem s.dev.age.base = t.dev.age.seq ∧ memRead t.mem (s.dev.age.base + 1) = t.dev.age.secs))))
  ∧ ((∀ s : State, live s = true → modeRuns (begin_ s) = true →
       let a := s.dev.age
       let used := fun b => ringUsed b (begin_ s)
       (used false = true → 24 + 2 * a.eSecA ≤ 4 * a.guardA) → (used true = true → 24 + 2 * a.eSecB ≤ 4 * a.guardB) →
         exec .guardCheck s = .next (withDev s { s.dev with age := { a with
           eSecA := if used false = true then 0 else a.eSecA
           reqA := if used false = true then min 255 ((24 + 2 * a.eSecA + 3) / 4) else a.reqA
           eSecB := if used true = true then 0 else a.eSecB
           reqB := if used true = true then min 255 ((24 + 2 * a.eSecB + 3) / 4) else a.reqB } }))
     ∧ (∀ (g : Nat × Nat) (s : State), live s = true → s.dev.age.retry = some g → modeRuns (begin_ s) = true →
         (s.dev.trl.prop = none → s.dev.trl.heal = none → Ends .reviseAgain s fun t =>
           t.dev.trl.prop = some { mode := s.dev.sys.mode, n := cycleIn 8 s, revision := some g } ∧ t.dev.age.retry = none
             ∧ t.dev.sys = s.dev.sys ∧ SameMemory s t)
         ∧ (s.dev.trl.prop ≠ none ∨ s.dev.trl.heal ≠ none → exec .reviseAgain s = .next s)))


/-! The Furrow units (spec/07 R226 to R260, Tables 7.3 to 7.8). -/

namespace Sys2Proof.Claims

/-- A Furrow unit. -/
def unitOf (n : Nat) (s : State) : FdUnit := tabGet {} s.dev.fd n

/-- A field of an instruction. -/
def part (i : BitVec 72) (lo n : Nat) : Nat := i.toNat / 2 ^ lo % 2 ^ n

/-- A field read as a signed number. -/
def signedPart (n v : Nat) : Int := if v % 2 ^ n < 2 ^ (n - 1) then (v % 2 ^ n : Nat) else (v % 2 ^ n : Nat) - (2 : Int) ^ n

/-- A register by name: D0 to D15, and D(16 + i) the window register (i - RB) modulo 16 (R230). -/
def regGet (u : FdUnit) (r : Nat) : Word := if r < 16 then u.d.getD r 0 else u.win.getD ((r - u.rb) % 16) 0
def regPut (rb r : Nat) (v : Word) (u : FdUnit) : FdUnit :=
  if r < 16 then { u with d := u.d.set r v } else { u with win := u.win.set ((r - rb) % 16) v }

/-- A number clamped to the 36-bit range, SAT set where it lay outside (R229). -/
def clampPut (rb r : Nat) (v : Int) (u : FdUnit) : FdUnit :=
  if 2 ^ 35 ≤ v then { regPut rb r (BitVec.ofInt 36 (2 ^ 35 - 1)) u with sat := true }
  else if v < -2 ^ 35 then { regPut rb r (BitVec.ofInt 36 (-2 ^ 35)) u with sat := true }
  else regPut rb r (BitVec.ofInt 36 v) u

/-- An accumulator, and a sum put into one, AOV set where it lies outside 80 bits (R227). -/
def accOf (u : FdUnit) (k : Nat) : Int := (u.acc.getD k 0).toInt
def accSum (k : Nat) (v : Int) (u : FdUnit) : FdUnit :=
  { u with acc := u.acc.set k (BitVec.ofInt 80 v), aov := u.aov || decide (2 ^ 79 ≤ v ∨ v < -2 ^ 79) }

/-- Extraction: the accumulator divided by 2^(35 + SHR), truncated toward minus infinity (R228). -/
def extracted (u : FdUnit) (k : Nat) (shr : Int) : Int := accOf u k / 2 ^ (35 + shr).toNat

/-- The result of an operation of Table 7.7 with operands a and b on the unit o, before its X move. -/
def aluResult (op dd sa : Nat) (a b : Word) (o : FdUnit) : FdUnit :=
  let x := a.toInt
  let y := b.toInt
  let put := fun v => regPut o.rb dd v o
  let clamped := fun v => clampPut o.rb dd v o
  let n := b.toNat % 64
  if op = 0x00 then put b
  else if op = 0x01 then clamped (x + y)
  else if op = 0x02 then clamped (x - y)
  else if op = 0x03 then clamped (-y)
  else if op = 0x04 then clamped (if y < 0 then -y else y)
  else if op = 0x05 then put (if y < x then b else a)
  else if op = 0x06 then put (if y < x then a else b)
  else if op = 0x07 then put (a &&& b)
  else if op = 0x08 then put (a ||| b)
  else if op = 0x09 then put (a ^^^ b)
  else if op = 0x0A then put (BitVec.ofInt 36 (x / 2 ^ n))
  else if op = 0x0B then clamped (x * 2 ^ n)
  else if op = 0x0C then clamped (x * y / 2 ^ 35)
  else if op = 0x0D then put (if x < 0 then 0 else b)
  else if op = 0x0E then clamped (extracted o sa (signedPart 5 b.toNat))
  else if op = 0x0F then { o with acc := o.acc.set dd (BitVec.ofInt 80 (y * 2 ^ 35)) }
  else if op = 0x10 then accSum dd (accOf o dd + y * 2 ^ 35) o
  else if op = 0x11 then { o with acc := o.acc.set dd 0 }
  else if op = 0x12 then { o with rb := b.toNat % 16 }
  else put (BitVec.ofNat 36 o.rb)

/-- Effective address of a pointer (R233). -/
def accessOf (o : FdUnit) (p : Nat) : Nat := ((o.ptr.getD p {}).base + (o.ptr.getD p {}).idx) % 16384

/-- The low m bits in reverse order. -/
def reversed (m v : Nat) : Nat := ((List.range m).map fun k => v / 2 ^ k % 2 * 2 ^ (m - 1 - k)).sum

/-- The index a post-modify by d leaves (R234). -/
def steppedIdx (p : Ptr) (d : Int) : Nat :=
  if p.mode = 0 then ((p.idx + d) % 16384).toNat
  else if p.mode = 1 then ((p.idx + d) % p.len).toNat
  else reversed (Nat.log2 p.len) ((reversed (Nat.log2 p.len) p.idx + d) % p.len).toNat

/-- A pointer after a post-modify code: 0 none, 1 plus one, 2 minus one, 3 plus the step (Table 7.5). -/
def stepped (p : Ptr) (code : Nat) : Ptr :=
  if code = 0 then p
  else { p with idx := steppedIdx p (if code = 1 then 1 else if code = 2 then -1 else p.step) }

/-- The loop cache holds the instruction at pc: the cache is on for the innermost loop and reaches to it (R247). -/
def inCache (u : FdUnit) (pc : Nat) : Bool :=
  u.cacheOn && decide (u.loops.head?.map Prod.fst = some u.cacheLo) && decide (u.cacheLo ≤ pc)
    && decide (pc < u.cacheLo + u.cache.length)

/-- The instruction at pc, from the loop cache or from P memory. -/
def instrAt (u : FdUnit) (pc : Nat) : BitVec 72 := if inCache u pc then u.cache.getD (pc - u.cacheLo) 0 else tabGet 0 u.pm pc

/-- The unit once instruction i at pc has been fetched: in the first pass of the innermost loop it joins the cache (R247). -/
def fetched (u : FdUnit) (pc : Nat) (i : BitVec 72) : FdUnit :=
  if u.cacheOn = false ∧ u.loops.head?.map Prod.fst = some u.cacheLo ∧ pc = u.cacheLo + u.cache.length ∧ u.cache.length < 64
  then { u with cache := u.cache ++ [i] } else u

/-- The cache holds the loop body from lo to hi, in which no form C but NOP stands (R247). -/
def bodyHeld (u : FdUnit) (lo hi : Nat) : Bool :=
  decide (u.cacheLo = lo) && decide (u.cache.length = hi + 1 - lo)
    && u.cache.all (fun i => decide (part i 70 2 ≠ 2) || decide (part i 64 6 = 0))

/-- No word of the unit's memories has a bit error, and no axis waits for its engine's next turn. -/
def Sound (n : Nat) (s : State) : Prop := (unitOf n s).ecc = [] ∧ ∀ kv ∈ s.dev.ce.axes, kv.2.startDue = false

/-- A move field v of X (false) or Y (true) memory: load, store register or store accumulator, with the values before the
instruction (Table 7.5, R239). -/
def moved (o : FdUnit) (y : Bool) (shr : Int) (v : Nat) (u : FdUnit) : FdUnit :=
  let kind := v / 1024 % 4
  let a := accessOf o (v / 128 % 8)
  let put := fun x (u : FdUnit) =>
    if y then { u with
      ym := tabSet 0 u.ym a x
      yPut := if u.yFree.isSome = true ∧ a < 0x2000 ∧ u.yPut.contains a = false then a :: u.yPut else u.yPut }
    else { u with xm := tabSet 0 u.xm a x }
  let e := extracted o (v % 32) shr
  if kind = 0 then u
  else if kind = 1 then regPut o.rb (v % 32) (if y then fdY o a else tabGet 0 o.xm a) u
  else if kind = 2 then put (regGet o (v % 32)) u
  else if 2 ^ 35 ≤ e then put (BitVec.ofInt 36 (2 ^ 35 - 1)) { u with sat := true }
  else if e < -2 ^ 35 then put (BitVec.ofInt 36 (-2 ^ 35)) { u with sat := true }
  else put (BitVec.ofInt 36 e) u

/-- The post-modify of a move field. -/
def steppedBy (v : Nat) (u : FdUnit) : FdUnit :=
  let p := v / 128 % 8
  if v / 1024 % 4 = 0 then u else { u with ptr := u.ptr.set p (stepped (u.ptr.getD p {}) (v / 32 % 4)) }

/-- A loop-back instruction at pc: RB rotates with RT; the innermost loop starts again, from the cache where it holds the
whole body, or ends with its last iteration (R231, R245, R247). -/
def loopedBack (pc : Nat) (rt : Bool) (u : FdUnit) : Nat × FdUnit :=
  let u := if rt then { u with rb := (u.rb + 1) % 16 } else u
  match u.loops with
  | [] => (pc + 1, u)
  | (first, k) :: r =>
    if k ≤ 1 then (pc + 1, { u with loops := r })
    else (first, { u with loops := (first, k - 1) :: r, cacheOn := u.cacheOn || bodyHeld u first pc })

/-- A multiply-accumulate field: 1 adds the product, 2 subtracts it, 3 loads it (Table 7.4). -/
def multiplied (o : FdUnit) (v : Nat) (u : FdUnit) : FdUnit :=
  let k := v / 1024 % 4
  let p := (regGet o (v / 32 % 32)).toInt * (regGet o (v % 32)).toInt
  let op := v / 4096 % 4
  if op = 0 then u
  else if op = 1 then accSum k (accOf u k + p) u
  else if op = 2 then accSum k (accOf u k - p) u
  else { u with acc := u.acc.set k (BitVec.ofInt 80 p) }

/-- Unit n issues instruction i of its job: the unit has its clock, the instruction at the job's PC is i, it is legal, its
accesses lie in the job's windows, no word has a bit error, and it issues before the last cycle of the budget. -/
def Issues (n : Nat) (i : BitVec 72) (j : FdJob) (s : State) : Prop :=
  let u := unitOf n s
  live s = true ∧ fdClk n (begin_ s) = true ∧ u.job = some j ∧ instrAt u (j.pc % 8192) = i ∧ u.ecc = []
    ∧ ∃ ins, fdDecode i = some ins ∧ fdLegal u ins = true ∧ fdBounds u j ins = true
        ∧ max j.t (waitOn j.prods (fdNeeds u ins)) + 1 < j.budget

/-- Unit n once the instruction at its job's PC has been fetched. -/
def unitAt (n : Nat) (i : BitVec 72) (j : FdJob) (s : State) : FdUnit := fetched (unitOf n s) (j.pc % 8192) i

/-- Unit n goes on at pc as the unit u, its job otherwise the same and later in time; nothing else changes. -/
def GoesOn (n : Nat) (j : FdJob) (pc : Nat) (u : FdUnit) (s t : State) : Prop :=
  unitOf n t = { u with job := (unitOf n t).job }
    ∧ (∃ j', (unitOf n t).job = some j' ∧ j'.pc = pc % 8192 ∧ j.t < j'.t
        ∧ j' = { j with pc := j'.pc, t := j'.t, prods := j'.prods })
    ∧ (∀ k, k ≠ n → unitOf k t = unitOf k s)
    ∧ t = withDev s { s.dev with fd := t.dev.fd, freeCtr := t.dev.freeCtr }

/-- The rows of Table 7.7 with their codes. -/
def aluRow (h : EccHit) : Instr → Option (Nat × Fin 4)
  | .fdMov n k => if k = h then some (0x00, n) else none | .fdAdd n k => if k = h then some (0x01, n) else none
  | .fdSub n k => if k = h then some (0x02, n) else none | .fdNeg n k => if k = h then some (0x03, n) else none
  | .fdAbs n k => if k = h then some (0x04, n) else none | .fdMin n k => if k = h then some (0x05, n) else none
  | .fdMax n k => if k = h then some (0x06, n) else none | .fdAnd n k => if k = h then some (0x07, n) else none
  | .fdOr n k => if k = h then some (0x08, n) else none | .fdXor n k => if k = h then some (0x09, n) else none
  | .fdAsr n k => if k = h then some (0x0A, n) else none | .fdLsl n k => if k = h then some (0x0B, n) else none
  | .fdMulq n k => if k = h then some (0x0C, n) else none | .fdKeep n k => if k = h then some (0x0D, n) else none
  | .fdExt n k => if k = h then some (0x0E, n) else none | .fdLda n k => if k = h then some (0x0F, n) else none
  | .fdAdda n k => if k = h then some (0x10, n) else none | .fdClra n k => if k = h then some (0x11, n) else none
  | .fdSetrb n k => if k = h then some (0x12, n) else none | .fdGetrb n k => if k = h then some (0x13, n) else none
  | _ => none

/-- The rows of Table 7.8 with their codes. -/
def controlRow (h : EccHit) : Instr → Option (Nat × Fin 4)
  | .fdNop n k => if k = h then some (0, n) else none | .fdRet n k => if k = h then some (1, n) else none
  | .fdBr n k => if k = h then some (2, n) else none | .fdLoop n k => if k = h then some (3, n) else none
  | .fdSetm n k => if k = h then some (4, n) else none | .fdMovp n k => if k = h then some (5, n) else none
  | .fdMovd n k => if k = h then some (6, n) else none
  | _ => none

/-- The condition of BR (Table 7.8). -/
def condHolds (cond : Nat) (v : Word) : Prop :=
  cond = 0 ∨ cond = 1 ∧ v = 0 ∨ cond = 2 ∧ v ≠ 0 ∨ cond = 3 ∧ v.toInt < 0 ∨ cond = 4 ∧ 0 ≤ v.toInt
    ∨ cond = 5 ∧ v.toNat % 2 = 1 ∨ cond = 6 ∧ v.toNat % 2 = 0

end Sys2Proof.Claims

/-- The twenty form-A operations: operand A is the register SA, operand B the register SB or, with I set, the immediate word;
the result is that of Table 7.7 with the values before the instruction; the X move and its post-modify follow, and LB makes
the instruction loop back. Nothing but the unit changes. -/
def Obligations.FurrowAluOperations : Prop :=
  ∀ (c : Instr) (op : Nat) (n : Fin 4) (i : BitVec 72) (j : FdJob) (s : State), aluRow .clean c = some (op, n) →
    Issues n i j s → part i 70 2 = 1 → part i 64 5 = op →
      let o := unitAt n i j s
      let b := if i.getLsbD 69 then BitVec.ofNat 36 (part i 0 36) else regGet o (part i 49 5)
      let r := aluResult op (part i 59 5) (part i 54 5) (regGet o (part i 54 5)) b o
      let u := steppedBy (part i 37 12) (moved o false (signedPart 5 (part i 0 5)) (part i 37 12) r)
      Ends c s fun t =>
        let v := if i.getLsbD 36 then loopedBack j.pc false u else (j.pc + 1, u)
        GoesOn n j v.1 v.2 s t

/-- The parallel form: both multiply-accumulate fields, the X and the Y move and the C load, all with the values before the
instruction, then the post-modifies, then the loop-back with rotation. The index of a pointer that two moves of the
instruction modify is left open (log 24); nothing but the unit changes. -/
def Obligations.FurrowParallel : Prop :=
  ∀ (n : Fin 4) (i : BitVec 72) (j : FdJob) (s : State), Issues n i j s → part i 70 2 = 0 →
    let o := unitAt n i j s
    let shr := signedPart 5 (part i 2 5)
    let u := multiplied o (part i 42 14) (multiplied o (part i 56 14) o)
    let u := moved o true shr (part i 18 12) (moved o false shr (part i 30 12) u)
    let u := if i.getLsbD 17 then regPut o.rb (part i 7 5) (tabGet 0 o.cm (accessOf o (part i 14 3))) u else u
    let u := steppedBy (part i 18 12) (steppedBy (part i 30 12) u)
    let u := if i.getLsbD 17 then
      { u with ptr := u.ptr.set (part i 14 3) (stepped (u.ptr.getD (part i 14 3) {}) (part i 12 2)) } else u
    let mods := fun (v : Nat) => if v / 1024 % 4 ≠ 0 ∧ v / 32 % 4 ≠ 0 then [v / 128 % 8] else []
    let all : List Nat := mods (part i 30 12) ++ mods (part i 18 12)
      ++ (if i.getLsbD 17 = true ∧ part i 12 2 ≠ 0 then [part i 14 3] else [])
    Ends (.parallelInstruction n .clean) s fun t =>
      let v := if i.getLsbD 0 then loopedBack j.pc (i.getLsbD 1) u else (j.pc + 1, u)
      let w := unitOf n t
      GoesOn n j v.1 { v.2 with ptr := w.ptr } s t
        ∧ w.ptr.length = o.ptr.length ∧ ∀ p, all.count p < 2 → w.ptr.getD p {} = v.2.ptr.getD p {}

/-- The control forms: NOP; BR goes to TARGET where its condition holds, and ends every loop; LOOP starts a loop of COUNT or
D[REG] iterations after it; SETM sets a pointer with index 0; MOVP sets an index to D + OFF reduced to the pointer's range
(modulo the length for a bit-reversed pointer, log 107); MOVD writes an index to a register. -/
def Obligations.FurrowControl : Prop :=
  ∀ (c : Instr) (op : Nat) (n : Fin 4) (i : BitVec 72) (j : FdJob) (s : State), controlRow .clean c = some (op, n) →
    Issues n i j s → part i 70 2 = 2 → part i 64 6 = op → op ≠ 1 →
      let o := unitAt n i j s
      let r := regGet o (part i 56 5)
      let k := part i 61 3
      let p := o.ptr.getD k {}
      let off := signedPart 14 (part i 0 14)
      Ends c s fun t =>
        (op = 0 → GoesOn n j (j.pc + 1) o s t)
        ∧ (op = 2 → condHolds k r → GoesOn n j (part i 0 13) { o with loops := [] } s t)
        ∧ (op = 2 → ¬ condHolds k r → GoesOn n j (j.pc + 1) o s t)
        ∧ (op = 3 → GoesOn n j (j.pc + 1) { o with
            loops := (j.pc + 1, if i.getLsbD 63 then r.toInt.toNat else part i 0 13) :: o.loops
            cacheLo := j.pc + 1, cache := [], cacheOn := false } s t)
        ∧ (op = 4 → GoesOn n j (j.pc + 1) { o with ptr := o.ptr.set k {
            mode := part i 59 2, base := ((regGet o (part i 34 5)).toNat % 16384 + part i 20 14) % 16384
            len := part i 0 14 + 1
            step := signedPart 14 (if i.getLsbD 58 then (regGet o (part i 53 5)).toNat else part i 39 14), idx := 0 } } s t)
        ∧ (op = 5 → GoesOn n j (j.pc + 1) { o with ptr := o.ptr.set k { p with
            idx := ((r.toInt + off) % (if p.mode = 0 then 16384 else p.len)).toNat } } s t)
        ∧ (op = 6 → GoesOn n j (j.pc + 1) (regPut o.rb (part i 56 5) (BitVec.ofNat 36 p.idx) o) s t)

/-- RET with room in the budget ends the job: the unit is free, its occupancy grows by the job's time, and the engine takes
the result in D0 (for its last tap the axis becomes ready); with no room the job runs to its budget. An illegal instruction
stops the job with cause 2, an access outside the job's windows with cause 3, and an uncorrectable error of a word that the
issue reads with cause 4: STOP is set, LSTOP names axis, tap, cause and PC, and the unit is free. A free unit with its clock
takes the pending call of the first slot after the one it served last: the job starts in the entry state of Table 7.11, Y
scratch holds no defined word, and the engine's call is gone. A job whose next instruction would issue in the last cycle of its
budget is stopped with cause 1. A write of a memory window in TEST writes that word, and an error of it is gone; in any
other state it is logged; one of an absent unit or of no memory changes nothing. -/
def Obligations.FurrowCallsReturnsAndWindows : Prop :=
  ((∀ (n : Fin 4) (i : BitVec 72) (j : FdJob) (s : State), Issues n i j s → part i 70 2 = 2 → part i 64 6 = 1 →
     Sound n s →
     let o := unitAt n i j s
     let at_ := max j.t (waitOn j.prods (fdNeeds o (.ctl 1 i)))
     (at_ + 5 ≤ j.budget → Ends (.fdRet n .clean) s fun t =>
       (unitOf n t).job = none ∧ (unitOf n t).lastSlot = j.slot ∧ (unitOf n t).busyNow = o.busyNow + (at_ + 5)
         ∧ (unitOf n t).stop = o.stop ∧ (∀ k, k ≠ n.val → unitOf k t = unitOf k s)
         ∧ ∀ x, (tabGet {} s.dev.ce.engines j.engine).comp = some x → x.tap = 3 →
             (tabGet {} s.dev.ce.axes x.axis).started = true →
             (tabGet {} t.dev.ce.engines j.engine).comp = none ∧ (tabGet {} t.dev.ce.axes x.axis).ready.isSome = true)
     ∧ (j.budget < at_ + 5 → Ends (.fdRet n .clean) s fun t =>
         unitOf n t = { o with job := some { j with t := j.budget } } ∧ (∀ k, k ≠ n.val → unitOf k t = unitOf k s)
           ∧ t = withDev s { s.dev with fd := t.dev.fd }))
   ∧ (∀ (c : Instr) (op cause : Nat) (h : EccHit) (n : Fin 4) (j : FdJob) (ins : FdIns) (s : State),
       (aluRow h c = some (op, n) ∧ fdRowOf ins = .a op ∨ controlRow h c = some (op, n) ∧ fdRowOf ins = .c op
         ∨ c = .parallelInstruction n h ∧ fdRowOf ins = .par) →
       live s = true → fdClk n (begin_ s) = true → (unitOf n s).job = some j → Sound n s →
       fdDecode (instrAt (unitOf n s) (j.pc % 8192)) = some ins →
       max j.t (waitOn j.prods (fdNeeds (unitOf n s) ins)) + 1 < j.budget →
       (cause = 2 ∧ fdLegal (unitOf n s) ins = false
         ∨ cause = 3 ∧ fdLegal (unitOf n s) ins = true ∧ h = .clean ∧ fdBounds (unitOf n s) j ins = false
         ∨ cause = 4 ∧ fdLegal (unitOf n s) ins = true
             ∧ ∃ m a, h = .double m a ∧ (m.val, a) ∈ fdReads (unitOf n s) (j.pc % 8192) ins) →
       Ends c s fun t =>
         let u := unitOf n t
         u.job = none ∧ u.stop = true ∧ u.lAxis = j.axis ∧ u.lTap = j.tap ∧ u.lCause = cause ∧ u.lPc = j.pc
           ∧ u.lastSlot = j.slot ∧ ∀ k, k ≠ n.val → unitOf k t = unitOf k s))
  ∧ ((∀ (n : Fin 4) (k : Nat) (c : TapCall) (s : State), live s = true → fdClk n (begin_ s) = true →
       (unitOf n s).job = none → k < 4 →
       let u := unitOf n s
       let engine := fun k => n.val + (u.lastSlot + 1 + k) % 4 * numFD s.variant
       let call := fun k => if engine k < numCE s.variant then (tabGet {} s.dev.ce.engines (engine k)).call else none
       call k = some c → (∀ m, m < k → call m = none) →
         Ends (.furrowCallSelect n) s fun t =>
           let v := unitOf n t
           (∃ j, v.job = some j ∧ j.slot = (u.lastSlot + 1 + k) % 4 ∧ j.engine = engine k ∧ j.axis = c.axis ∧ j.tap = c.tap
               ∧ j.t = 4 ∧ j.prods = []
               ∧ v.d.take 7 = [c.x1, c.x2, BitVec.ofNat 36 ((if c.init then 1 else 0) + c.page % 2 * 2 + c.region % 8 * 4
                   + c.tap % 4 * 32 + c.axis % 256 * 128), BitVec.ofNat 36 j.xb, BitVec.ofNat 36 j.cb,
                   BitVec.ofNat 36 c.rate, BitVec.ofNat 36 j.xsz]
               ∧ v.acc = List.replicate 4 0 ∧ v.win = List.replicate 16 0 ∧ v.rb = 0 ∧ v.loops = [] ∧ v.cacheOn = false
               ∧ v.yFree.isSome = true ∧ v.yPut = []
               ∧ (v.ptr.getD 0 {}).base = j.xb ∧ (v.ptr.getD 1 {}).base = j.cb)
             ∧ v.xm = u.xm ∧ v.ym = u.ym ∧ v.cm = u.cm ∧ v.pm = u.pm
             ∧ (tabGet {} t.dev.ce.engines (engine k)).call = none ∧ SameMemory s t)
     ∧ (∀ (n : Fin 4) (j : FdJob) (ins : FdIns) (s : State), live s = true → (unitOf n s).job = some j →
         fdDecode (instrAt (unitOf n s) (j.pc % 8192)) = some ins →
         let at_ := max j.t (waitOn j.prods (fdNeeds (unitOf n s) ins))
         (j.budget ≤ at_ + 1 → Sound n s → Ends (.furrowBudgetExpiry n) s fun t =>
           (unitOf n t).job = none ∧ (unitOf n t).stop = true ∧ (unitOf n t).lCause = 1 ∧ (unitOf n t).lPc = j.pc
             ∧ (unitOf n t).busyNow = (unitOf n s).busyNow + j.budget)
         ∧ (at_ + 1 < j.budget → exec (.furrowBudgetExpiry n) s = .next s))
     ∧ (∀ (n : Fin 4) (off : Fin 65536) (v : Word) (s : State), live s = true →
         let u := unitOf n s
         (numFD s.variant ≤ n.val ∨ off.val < 0x2000 → exec (.fdWindowWrite n off v) s = .next s)
         ∧ (n.val < numFD s.variant → 0x2000 ≤ off.val → s.dev.sys.st ≠ .test → logReady s →
             Ends (.fdWindowWrite n off v) s fun t => t.dev.fd = s.dev.fd ∧ EventLogged 9 n 5 0 s t)
         ∧ (n.val < numFD s.variant → s.dev.sys.st = .test →
             let k := (off.val - 0xC000) / 2
             let i := tabGet 0 u.pm k
             let ins := if off.val % 2 = 0 then v.toNat * 2 ^ 36 + i.toNat % 2 ^ 36 else i.toNat / 2 ^ 36 * 2 ^ 36 + v.toNat
             let right := fun (m a : Nat) => u.ecc.filter (fun e => !(e.1 == m && e.2.1 == a))
             let y := off.val - 0x8000
             let u' := if off.val < 0x4000 then { u with
                 ecc := right 2 (off - 0x2000), cm := tabSet 0 u.cm (off - 0x2000) v }
               else if off.val < 0x8000 then { u with
                 ecc := right 0 (off - 0x4000), xm := tabSet 0 u.xm (off - 0x4000) v }
               else if off.val < 0xC000 then { u with
                 ecc := right 1 y, ym := tabSet 0 u.ym y v
                 yPut := if u.yFree.isSome = true ∧ y < 0x2000 ∧ u.yPut.contains y = false then y :: u.yPut else u.yPut }
               else { u with ecc := right 3 k, pm := tabSet 0 u.pm k (BitVec.ofNat 72 ins) }
             0x2000 ≤ off.val →
               exec (.fdWindowWrite n off v) s = .next (withDev s { s.dev with fd := tabSet {} s.dev.fd n u' }))))


/-! Registers and the host's ports (spec/21 R612 to R620, spec/20 R594 to R611, spec/02 R35, spec/22 R629). -/

namespace Sys2Proof.Claims

/-- The words of bank memory from an address on. -/
def wordsAt (a n : Nat) (s : State) : List Word := (List.range n).map fun k => memRead s.mem (a + k)

/-- The words vs stand at an address and every other word of memory is as before. -/
def WordsPut (a : Nat) (vs : List Word) (s t : State) : Prop :=
  (∀ k v, vs[k]? = some v → memRead t.mem (a + k) = v)
    ∧ ∀ x, (x < a ∨ a + vs.length ≤ x) → memRead t.mem x = memRead s.mem x

/-- The word of an 8-byte slot, least significant byte first, bits [63:36] ignored, and the bytes of its slot (R34). -/
def slotOf (l : List (BitVec 8)) : Word := BitVec.ofNat 36 (l.foldr (fun b n => b.toNat + 256 * n) 0)
def slotData (v : Word) : List (BitVec 8) := (List.range 8).map fun k => BitVec.ofNat 8 (v.toNat / 2 ^ (8 * k))

/-- The word of 5 bytes, most significant first, the pad bits ignored, and the bytes of a word with pad bits zero (R36). -/
def fiveOf (l : List (BitVec 8)) : Word := BitVec.ofNat 36 (l.foldl (fun n b => 256 * n + b.toNat) 0)
def fiveData (v : Word) : List (BitVec 8) := (List.range 5).map fun k => BitVec.ofNat 8 (v.toNat / 2 ^ (8 * (4 - k)))

/-- Bytes by whole groups of k, each read as a word. -/
def grouped (k : Nat) (f : List (BitVec 8) → Word) (bs : List (BitVec 8)) : List Word :=
  (List.range (bs.length / k)).map fun j => f ((bs.drop (k * j)).take k)

/-- Bank memory is wholly on and right: every group on, every stored code right. -/
def BanksGood (s : State) : Prop := s.dev.boot.bgrp = 0xFF ∧ s.dev.mem.ecc = []

/-- Base registers with the size they are aligned to (Table 21.8). -/
def baseRegs : List (Nat × Nat) :=
  [(0x40000, 131072), (0x40001, 16384), (0xB0000, 8192), (0xB0001, 1024), (0xE0000, 32768), (0xE0001, 65536),
    (0x1C000, 2048), (0x20182, 32768), (0xF4000, 4096), (0xF4001, 1024), (0xF4003, 131072)]

end Sys2Proof.Claims

/-- A base register takes bits [22:0] aligned down in CONFIG and ignores a write in any other state. HIF_STAT, CMD_EVOVR and
CMD_OVSPD clear the bits written 1. Registers that only read, and addresses of no register, ignore a write. -/
def Obligations.RegisterWrites : Prop :=
  (∀ (mid : Fin 32) (a n : Nat) (v : Word) (s : State), live s = true → (a, n) ∈ baseRegs →
    (s.dev.sys.st ≠ .config → exec (.registerWrite mid a v) s = .next s)
    ∧ (s.dev.sys.st = .config → Ends (.registerWrite mid a v) s fun t =>
        regWord mid a (begin_ t) = BitVec.ofNat 36 (v.toNat % 2 ^ 23 / n * n) ∧ SameMemory s t
          ∧ ∀ b m, (b, m) ∈ baseRegs → b ≠ a → regWord mid b (begin_ t) = regWord mid b (begin_ s)))
  ∧ (∀ (mid : Fin 32) (v : Word) (s : State), live s = true →
      exec (.registerWrite mid 0xFE000 v) s = .next (withDev s { s.dev with hif := { s.dev.hif with
        istat := s.dev.hif.istat &&& ~~~(v.truncate 20) } })
      ∧ exec (.registerWrite mid 0x20104 v) s = .next (withDev s { s.dev with cmd := { s.dev.cmd with
        evOvr := s.dev.cmd.evOvr && !v.getLsbD 0 } })
      ∧ exec (.registerWrite mid 0x20181 v) s = .next (withDev s { s.dev with cmd := { s.dev.cmd with
        ovspd := s.dev.cmd.ovspd && !v.getLsbD 0 } })
      ∧ ∀ a, a ∈ [0x00, 0x02, 0x03, 0x10, 0x11, 0x23, 0x24, 0x25, 0x32, 0x18200, 0x18201, 0x20102, 0x28201, 0xE0003, 0xE0004,
          0xF8001, 0xF8002, 0xF8003, 0xF8005, 0xFA003, 0xFC000, 0xFC002, 0xFC010] ∨ 0x100000 ≤ a →
        exec (.registerWrite mid a v) s = .next s)

/-- A read of a register with RC fields answers its word, and clears: the TDU's refusal count and peaks, the planner's and the
graft's peaks and misses, the page CRC count and a bank's corrected-error count read 0 in those fields afterwards. An address
without RC fields is no such register. A read of PTM_FRCL, PTM_NOWL or PTM_SNCC answers that word and keeps, for the reading
MID alone, the related words of the same instant: the high word of the counter, the high word of plant time, both words of the
plant time of the sync point. -/
def Obligations.ReadsWithEffects : Prop :=
  (∀ (mid : Fin 32) (a : Nat) (s : State), live s = true →
     (rcReg a = false → exec (.rcRead mid a) s = .next s)
     ∧ (rcReg a = true → (a < 0xF8200 ∨ 0xF8220 ≤ a) → Ends (.rcRead mid a) s fun t =>
         t.dev.out.getLast? = some (.readData [regWord mid a (begin_ s)])
           ∧ (a = 0x30020 → t.dev.tdu = { s.dev.tdu with refuse := 0 })
           ∧ (∀ n, n < 8 → a = 0x30010 + n → t.dev.tdu = { s.dev.tdu with peaks := s.dev.tdu.peaks.set n 0 })
           ∧ (a = 0xA0000 → t.dev.pln = { s.dev.pln with phPeak := 0, genPeak := 0 })
           ∧ (a = 0xF8004 → t.dev.mem = { s.dev.mem with pcrc := 0 })
           ∧ (∀ b, b < 32 → a = 0xF8100 + b → tabGet 0 t.dev.mem.cerr b = 0
               ∧ ∀ k, k ≠ b → tabGet 0 t.dev.mem.cerr k = tabGet 0 s.dev.mem.cerr k))
     ∧ (∀ n, n < 32 → Ends (.rcRead mid (0xF8200 + n)) s fun t => tabGet 0 t.dev.mem.conf n = 0
         ∧ ∀ k, k ≠ n → tabGet 0 t.dev.mem.conf k = tabGet 0 s.dev.mem.conf k))
  ∧ (∀ (mid : Fin 32) (k : Fin 3) (s : State), live s = true →
       let p := s.dev.ptm
       let now := plantTime p p.frc
       let old := tabGet {} p.latch mid
       let word := if k = 0 then BitVec.ofNat 36 p.frc.toNat else if k = 1 then BitVec.ofNat 36 now.toNat else p.sncc
       let new := if k = 0 then { old with frch := BitVec.ofNat 36 (p.frc.toNat / 2 ^ 36) }
         else if k = 1 then { old with nowh := BitVec.ofNat 36 (now.toNat / 2 ^ 36) }
         else { old with sptl := BitVec.ofNat 36 p.spt.toNat, spth := BitVec.ofNat 36 (p.spt.toNat / 2 ^ 36) }
       exec (.latchingRead mid k) s = .next (withDev s { s.dev with
         ptm := { p with latch := tabSet {} p.latch mid new }, out := s.dev.out ++ [.readData [word]] }))

/-- PCI Express: from BOOT_OK on a memory write to BAR 2 writes the words of the slots it covers to bank memory, and the CRC of
a static page follows; a slot covered only in part is discarded and logged; a memory read answers the addressed bytes of the
words' slots, little-endian with bits [63:36] zero, in one completion; before BOOT_OK both do nothing. A configuration
request is answered with retry status until BOOT_OK and served after. A trained link shows its speed and width. -/
def Obligations.PcieAccesses : Prop :=
  (∀ (off : Nat) (bs : List (BitVec 8)) (s : State), live s = true → s.dev.boot.bootOk = true → BanksGood s →
    bs.length % 8 = 0 → off + bs.length / 8 ≤ 0x400000 →
      Ends (.pcieMemoryWrite true (8 * off) (bs.map some)) s fun t => WordsPut (0x400000 + off) (grouped 8 slotOf bs) s t
        ∧ t.dev.cmd = s.dev.cmd ∧ t.dev.out = s.dev.out
        ∧ ∀ k, k < bs.length / 8 →
            let page := (0x400000 + off + k) / 256
            (∃ r ∈ s.dev.mem.static, r.1 ≤ page ∧ page < r.1 + r.2) →
              tabGet zeroPageCrc t.dev.mem.pageCrc page = fcs (wordBytes5 (wordsAt (256 * page) 256 t)))
  ∧ (∀ (off i : Nat) (l : List (Option (BitVec 8))) (s : State), live s = true → s.dev.boot.bootOk = true →
      off < 0x400000 → i + l.length ≤ 8 →
      ((∀ x ∈ l, x = none) → exec (.pcieMemoryWrite true (8 * off + i) l) s = .next s)
      ∧ ((∃ b, some b ∈ l) → (l.length < 8 ∨ none ∈ l) → logReady s →
          Ends (.pcieMemoryWrite true (8 * off + i) l) s fun t => EventLogged 22 0 1 (0x400000 + off) s t))
  ∧ (∀ (off n : Nat) (s : State), live s = true → s.dev.boot.bootOk = true → BanksGood s → off + n ≤ 8 * 0x400000 → 0 < n →
      Ends (.pcieMemoryRead true off n) s fun t => SameMemory s t
        ∧ t.dev.out = s.dev.out ++ [.busData
            ((((wordsAt (0x400000 + off / 8) ((off % 8 + n + 7) / 8) s).flatMap slotData).drop (off % 8)).take n)])
  ∧ (∀ (bar : Bool) (off n : Nat) (ws : List (Option (BitVec 8))) (s : State), live s = true → s.dev.boot.bootOk = false →
      exec (.pcieMemoryWrite bar off ws) s = .next s ∧ exec (.pcieMemoryRead bar off n) s = .next s)
  ∧ (∀ (r : CfgReq) (s : State), s.dev.boot.dead = false →
      (s.dev.boot.bootOk = false → exec (.pcieConfigRequest r) s
        = .next (withDev s { s.dev with out := s.dev.out ++ [.configRetry true] }))
      ∧ (s.dev.boot.bootOk = true → exec (.pcieConfigRequest .other) s
        = .next (withDev s { s.dev with out := s.dev.out ++ [.configRetry false] }))
      ∧ (s.dev.boot.bootOk = true → Ends (.pcieConfigRequest r) s fun t =>
          t.dev.out.getLast? = some (.configRetry false) ∧ SameMemory s t
            ∧ (∀ e m, r = .msix e m → t.dev.hif.msixEn = e ∧ t.dev.hif.funcMask = m)
            ∧ ∀ v m, r = .vector v m → t.dev.hif.vecMask.getLsbD v = m))
  ∧ (∀ (g : Fin 8) (w : Fin 32) (s : State), s.dev.boot.dead = false → exec (.linkTrained g w) s
      = .next (withDev s { s.dev with hif := { s.dev.hif with linkUp := true, speed := g, width := w } }))

/-- SPI: WRITE and QWRITE store their words, 5 bytes each with the most significant first, from an address on; an unknown
command byte sets BAD_CMD and is logged, and a word cut short sets PARTIAL and is logged. READ and QREAD answer the token byte
and the words' bytes; in the native arbitration mode no word is late, and
otherwise a late one is answered as zero with UNDER. An instruction of the test access port is kept; IDCODE answers the
device's identification: version 0, the part number 0x1284 or 0x1264, 0x51D and a 1 (R629). -/
def Obligations.SpiAndTestAccess : Prop :=
  ((∀ (c : Instr) (bad : Bool) (a : Nat) (bs : List (BitVec 8)) (cut : Bool) (s : State), live s = true →
     s.dev.boot.bootOk = true → c = .spiWrite bad a bs cut ∨ c = .spiQwrite bad a bs cut →
       (bad = false → cut = false → bs.length % 5 = 0 → BanksGood s → 0x400000 ≤ a → a + bs.length / 5 ≤ 0x800000 →
         Ends c s fun t => WordsPut a (grouped 5 fiveOf bs) s t ∧ t.dev.hif = s.dev.hif ∧ t.dev.cmd = s.dev.cmd)
       ∧ (bad = false → cut = true ∨ bs.length % 5 ≠ 0 → Ends c s fun t => t.dev.hif.partialWr = true)
       ∧ (bad = true → logReady s → Ends c s fun t => t.dev.hif.badCmd = true ∧ EventLogged 22 0 3 0 s t))
   ∧ (∀ (c : Instr) (a n ahead : Nat) (late : List Nat) (s : State), live s = true → s.dev.boot.bootOk = true →
       c = .spiRead a n ahead late ∨ c = .spiQread a n ahead late → BanksGood s → 0x400000 ≤ a → a + n ≤ 0x800000 →
       let l := if s.dev.mem.arb then late else []
       Ends c s fun t =>
         t.dev.out.getLast? = some (.busData (0x5A ::
             (((wordsAt a n s).zipIdx).map fun p => if l.contains p.2 then 0 else p.1).flatMap fiveData))
           ∧ t.dev.hif.under = (s.dev.hif.under || (List.range n).any (fun k => l.contains k))
           ∧ ((List.range n).all (fun k => !l.contains k) = true → SameMemory s t)))
  ∧ (∀ (ir : TapIr) (s : State),
       let part := if s.variant = .vx1284 ∨ s.variant = .vx1284n then 0x1284 else 0x1264
       exec (.tapInstruction ir) s = .next (withDev s { s.dev with
         boot := { s.dev.boot with tapIr := ir }
         out := s.dev.out ++ (if ir = .idcode then [.readData [BitVec.ofNat 36 (part * 4096 + 0x51D * 2 + 1)]] else []) }))


/-! The sync point, the cascade engines, and the harvest engine (spec/01 R14, spec/02 R42, spec/06 R205 to R218, spec/11
R383, spec/15 R490 to R504). -/

namespace Sys2Proof.Claims

/-- A servo axis' record of the cascade engines, and the word k of its active parameter page (R219). -/
def servo (a : Nat) (s : State) : CeAxis := tabGet {} s.dev.ce.axes a
def pageAt (a k : Nat) (s : State) : Word := memRead s.mem (s.dev.ce.imgBase + 512 * a + 256 * (servo a s).page + k)

/-- The engine that serves an axis: its place in the order of the mode in force, modulo the engines of the variant. -/
def engineFor (a : Nat) (s : State) : Nat := s.dev.ce.order.idxOf a % numCE s.variant

/-- The phase units a virtual master advances by in a cycle of a rate code, for a rate of 1: 8, 4, 2, 1 (R42). -/
def rateUnits (code : Nat) : Int := [8, 4, 2, 1].getD code 1

/-- A device with nothing to move: units as reset leaves them, but for its mode registers, phase, and counters. -/
def AtRest (s : State) : Prop :=
  s.dev = { State.reset.dev with sys := s.dev.sys, phase := s.dev.phase, ptm := s.dev.ptm } ∧ s.mem = []
    ∧ s.dev.sys.role ≠ .standby ∧ s.dev.sys.stale = false

/-- The virtual master is the phase source, with no change of source or rate on its way. -/
def OnVirtualMaster (s : State) : Prop :=
  let f := s.dev.phase
  f.src.kind = 0 ∧ f.srcNext = none ∧ f.cpmNext = none ∧ f.oldSrc = none ∧ f.sampled = true ∧ f.refPending = false
    ∧ f.vmNext = none ∧ f.vmDirect = [] ∧ f.rateNext = none

/-- No axis waits to be computed without a record. -/
def NoneDue (s : State) : Prop := ∀ kv ∈ s.dev.ce.axes, kv.2.startDue = false

/-- It is an axis' turn in the running cycle, and its compute has not begun; the memory is right, and nothing else waits. -/
def CanStart (a : Nat) (s : State) : Prop :=
  live s = true ∧ ceTurn a (begin_ s) = true ∧ (servo a s).started = false ∧ NoneDue s ∧ (servo a s).lateLog = false
    ∧ s.dev.mem.ecc = [] ∧ phaseWaits a (begin_ s) = false

/-- MISS_RUN as the compute takes it: from the state block, but for the first compute after a takeover (R222). -/
def blockMisses (a : Nat) (s : State) : Nat :=
  if (servo a s).tkoFirst then (servo a s).missRun
  else (memRead s.mem (s.dev.ce.stBase + 64 * a + 29)).toNat / 16 % 4

/-- The parameter pages of an axis lie outside the event log. -/
def PagesApart (a : Nat) (s : State) : Prop :=
  let p := s.dev.ce.imgBase + 512 * a
  s.dev.cmd.evWr < logLength s ∧ (p + 512 ≤ s.dev.cmd.evBase ∨ s.dev.cmd.evBase + 4 * logLength s ≤ p)

/-- A gather record with VALID set and no drive fault (Table 6.1). -/
def GoodRecord (r : List Word) : Prop := (r.getD 3 0).getLsbD 35 = true ∧ (r.getD 3 0).getLsbD 34 = false

/-- A capture set, and a field of its descriptor copy (Table 15.1). -/
def capture (k : Nat) (s : State) : HvSet := tabGet {} s.dev.hvs.sets k
def descField (k word lo n : Nat) (s : State) : Nat := ((capture k s).desc.getD word 0).toNat / 2 ^ lo % 2 ^ n

/-- Every set but those that P names is as before. -/
def CapturesKept (P : Nat → Prop) (s t : State) : Prop := ∀ k, k < 8 → ¬ P k → capture k t = capture k s

/-- A set waits for its trigger: PRE, with no sample taken yet. -/
def Waits (k : Nat) (s : State) : Prop := (capture k s).st = 1 ∧ (capture k s).count = 0 ∧ (capture k s).waiting = none

/-- The trigger line of a set, and the edges it takes: TKIND, TLINE, TEDGE. -/
def OnLine (k kind line : Nat) (high : Bool) (s : State) : Prop :=
  descField k 64 16 3 s = kind ∧ descField k 64 19 3 s = line
    ∧ (descField k 64 22 2 s = 3 ∨ descField k 64 22 2 s = (if high then 1 else 2))

/-- The first sync point at or after an instant of the present cycle (R490). -/
def firstAfter (frc : BitVec 64) (fine : Nat) (s : State) : Word :=
  let d := (frc - s.dev.phase.frcSync).toInt
  if d < 0 ∨ d = 0 ∧ fine = 0 then s.dev.phase.ncc else cycleIn 1 s

/-- Domain triggers count: S0 + 64 has passed, with the compensation in force. -/
def DomainTriggers (s : State) : Prop := s.dev.hvs.calOk = true ∧ s.dev.hvs.domOn = true

/-- The domain master calibrates: a station's probe on line 0 is echoed. -/
def EchoesProbe (n : Fin 8) (high : Bool) (s : State) : Prop :=
  s.dev.hvs.s0.isSome = true ∧ s.dev.sys.domain = true ∧ s.dev.hvs.domOn = false ∧ s.dev.hvs.didx = 0 ∧ n.val = 0 ∧ high = true

/-- Address of a set's capture record: its segment is the capture's number modulo SEGS (R494). -/
def recordOf (k : Nat) (s : State) : Nat :=
  s.dev.hvs.dbase + 1024 + 256 * k + 16 * ((capture k s).capture % (descField k 64 12 4 s + 1))

end Sys2Proof.Claims

/-- Without a running cycle timer a sync point does nothing. With one, the registers of the rings, the harvest engine and the
graft that change at sync points show what holds now. On a device with nothing to move the cycle count goes up by one, the
virtual master and the phase advance by VM_RATE times 8, 4, 2 or 1 by the rate of the cycle that ends, the instant is kept
as the sync point's, and state and memory stay. -/
def Obligations.SyncPoint : Prop :=
  ∀ s : State, live s = true →
    (s.dev.sys.cycOn = false → exec .syncPoint s = .next s)
    ∧ (s.dev.sys.cycOn = true → Ends .syncPoint s fun t => t.dev.dqShown = t.dev.dq ∧ t.dev.grf.shownLast = t.dev.grf.last
        ∧ t.dev.hvs.shownSets = (List.range 8).map fun k => hvsSetWord k (begin_ t))
    ∧ (s.dev.sys.cycOn = true → AtRest s → OnVirtualMaster s → Ends .syncPoint s fun t =>
        let v := s.dev.phase.vm + BitVec.ofInt 36 (s.dev.phase.vmInForce.toInt * rateUnits s.dev.sys.rate)
        t.dev.phase.ncc = s.dev.phase.ncc + 1 ∧ t.dev.phase.vm = v ∧ t.dev.phase.mph = v
          ∧ t.dev.phase.frcSync = s.dev.ptm.frc ∧ t.dev.ptm.sncc = s.dev.phase.ncc + 1 ∧ t.dev.sys = s.dev.sys
          ∧ SameMemory s t)

/-- AXIS_COMPUTE of an axis whose turn it is and whose record has landed begins its compute, and otherwise nothing happens. A
disabled axis takes the record's position, is ready with torque zero, its enable clear and its set point, and shows no region
and no clamp; only its trace and state words change in memory. An enabled axis with tap 0 on has its engine post that tap's
call; one without taps is ready. START_DEADLINE of an axis whose record has not landed begins its compute with extrapolated
feedback and counts the miss on MISS_RUN of the state block; where it is not its turn, the axis is kept for its turn, and its
record counts as missing; one whose record has landed or whose compute has begun is left. RESULT_DEADLINE of an enabled axis
that is not ready marks its engine late and raises fault 4, which disables the axis; a ready or disabled axis is left, and so
is every axis while no mode of the image is in force. -/
def Obligations.EngineComputes : Prop :=
  (∀ (a : Fin 256) (s : State), live s = true →
     let x := servo a s
     (modeOn (begin_ s) = false ∨ ceTurn a (begin_ s) = false ∨ x.started = true ∨ x.startDue = true ∨ x.landed = none →
       exec (.axisCompute a) s = .next s)
     ∧ (∀ r, CanStart a s → x.landed = some r → x.discarded = false → GoodRecord r →
         (x.enabled = false → (pageAt a 0x0B s).toNat = 0 → Ends (.axisCompute a) s fun t =>
           let y := servo a t
           y.started = true ∧ y.missRun = 0 ∧ y.posUsed = some (r.getD 0 0, 0) ∧ y.posHist = (r.getD 0 0 :: x.posHist).take 6
             ∧ y.fcode = x.fcode ∧ y.ip = 0 ∧ y.iv = 0 ∧ y.region = none ∧ y.intClamp = false ∧ y.regNone = false
             ∧ y.ready = some { tref := 0, valid := true, enable := false, spPos := (getSp a (begin_ s)).pos,
                                spVel := (getSp a (begin_ s)).vel }
             ∧ (∀ k, k ≠ a.val → servo k t = servo k s) ∧ t.dev.cmd = s.dev.cmd ∧ t.dev.phase = s.dev.phase
             ∧ ∀ w, (w < s.dev.ce.stBase + 64 * a ∨ s.dev.ce.stBase + 64 * a + 32 ≤ w) → memRead t.mem w = memRead s.mem w)
         ∧ (x.enabled = true → PagesApart a s → (pageAt a 0x10 s).getLsbD 13 = true → Ends (.axisCompute a) s fun t =>
           (servo a t).started = true ∧ (servo a t).ready = x.ready
             ∧ ∃ k : TapCall, (tabGet {} t.dev.ce.engines (engineFor a s)).call = some k ∧ k.axis = a ∧ k.tap = 0
                 ∧ k.init = x.tapInit ∧ k.rate = s.dev.sys.rate)
         ∧ (x.enabled = true → PagesApart a s → (∀ n, n < 4 → (pageAt a (0x10 + 4 * n) s).getLsbD 13 = false) →
           Ends (.axisCompute a) s fun t => (servo a t).ready.isSome = true)))
  ∧ ((∀ (a : Fin 256) (s : State), live s = true →
       let x := servo a s
       (modeOn (begin_ s) = false ∨ a.val ∉ s.dev.ce.order ∨ x.started = true ∨ x.landed ≠ none →
         exec (.startDeadline a) s = .next s)
       ∧ (CanStart a s → x.landed = none → x.enabled = false → blockMisses a s < 2 → x.posUsed ≠ none →
           Ends (.startDeadline a) s fun t =>
             (servo a t).started = true ∧ (servo a t).missThis = true ∧ (servo a t).missRun = blockMisses a s + 1
               ∧ (servo a t).fcode = x.fcode ∧ (servo a t).ready.isSome = true)
       ∧ (modeOn (begin_ s) = true → a.val ∈ s.dev.ce.order → x.started = false → x.landed = none →
           ceTurn a (begin_ s) = false → NoneDue s → Ends (.startDeadline a) s fun t =>
             servo a t = { x with startDue := true } ∧ (∀ k, k ≠ a.val → servo k t = servo k s) ∧ SameMemory s t))
     ∧ (∀ (a : Fin 256) (s : State), live s = true →
       let x := servo a s
       (modeOn (begin_ s) = false ∨ x.ready ≠ none ∨ x.enabled = false ∨ a.val ∉ s.dev.ce.order →
         exec (.resultDeadline a) s = .next s)
       ∧ (modeOn (begin_ s) = true → a.val ∈ s.dev.ce.order → x.ready = none → x.enabled = true → x.fcode = 0 →
           Ends (.resultDeadline a) s fun t =>
             (tabGet {} t.dev.ce.engines (engineFor a s)).late = true ∧ (servo a t).fcode = 4
               ∧ (servo a t).fmask = x.fmask ||| 8 ∧ (servo a t).enabled = false ∧ (servo a t).newFault = true
               ∧ ∀ k, k ≠ a.val → servo k t = servo k s)))

/-- An edge of a trigger line, accepted where its level is new and has been read in more samples than XFILT, a domain trigger,
and a write of HVS_FORCE. A set in PRE that takes the edge, with no
sample taken yet, waits for the sample of the first sync point at or after the instant, TBACK cycles earlier; a set in HELD
counts it, but not a force; sets of another line and sets in other states are left, and so is every set in thermal state HOLD.
A domain trigger counts from 64 cycles after S0 with the compensation in force, its instant less the transmission time; before,
the domain master echoes a station's probe. -/
def Obligations.HarvestTriggers : Prop :=
  (∀ (n : Fin 4) (high : Bool) (r : Nat) (frc : BitVec 64) (fine : Fin 4) (k : Nat) (s : State), live s = true → k < 8 →
    (r ≤ s.dev.hvs.xfilt ∨ s.dev.hvs.xlevel.getLsbD n = high → exec (.xtrigEdge n ⟨high, r⟩ frc fine) s = .next s)
    ∧ (s.dev.hvs.xfilt < r → s.dev.hvs.xlevel.getLsbD n ≠ high → Ends (.xtrigEdge n ⟨high, r⟩ frc fine) s fun t =>
      t.dev.hvs.xlevel.getLsbD n = high ∧ CapturesKept (fun j => OnLine j 1 n high s) s t
        ∧ (s.dev.therm.state = .hold → t.dev.hvs.sets = s.dev.hvs.sets)
        ∧ (OnLine k 1 n high s → s.dev.therm.state ≠ .hold →
          (Waits k s → capture k t = { capture k s with waiting := some {
              kind := 1, frc := frc, fine := fine
              from_ := firstAfter frc fine s - BitVec.ofNat 36 (descField k 64 30 4 s) } })
          ∧ ((capture k s).st = 4 → capture k t = { capture k s with events := (capture k s).events + 1 })
          ∧ ((capture k s).st = 0 ∨ (capture k s).st = 2 ∨ (capture k s).st = 3 → capture k t = capture k s))))
  ∧ (∀ (n : Fin 8) (high : Bool) (frc : BitVec 64) (fine : Fin 4) (k : Nat) (s : State), live s = true → k < 8 →
    (¬ DomainTriggers s → ¬ EchoesProbe n high s → exec (.tbusEdge n high frc fine) s = .next s)
    ∧ (EchoesProbe n high s → exec (.tbusEdge n high frc fine) s
        = .next (withDev s { s.dev with out := s.dev.out ++ [.tbus 0] }))
    ∧ (DomainTriggers s → Ends (.tbusEdge n high frc fine) s fun t =>
      let ns : Int := 4 * (frc.toNat : Int) + fine.val - s.dev.hvs.tcomp
      let at_ : BitVec 64 := BitVec.ofInt 64 (ns / 4)
      CapturesKept (fun j => OnLine j 2 n high s) s t
        ∧ (OnLine k 2 n high s → s.dev.therm.state ≠ .hold →
          (Waits k s → capture k t = { capture k s with waiting := some {
              kind := 2, frc := at_, fine := (ns % 4).toNat
              from_ := firstAfter at_ (ns % 4).toNat s - BitVec.ofNat 36 (descField k 64 30 4 s) } })
          ∧ ((capture k s).st = 4 → capture k t = { capture k s with events := (capture k s).events + 1 }))))
  ∧ (∀ (v : Word) (k : Nat) (s : State), live s = true → k < 8 →
    Ends (.hvsForceWrite v) s fun t => CapturesKept (fun j => v.getLsbD j = true) s t
      ∧ (v.getLsbD k = true → s.dev.therm.state ≠ .hold →
        (Waits k s → capture k t = { capture k s with waiting := some {
            kind := 5, frc := s.dev.ptm.frc, fine := 0, from_ := firstAfter s.dev.ptm.frc 0 s } })
        ∧ ((capture k s).st = 4 → capture k t = capture k s)))

/-- CAPTURE_FREEZE of a set whose POST samples are taken writes the sixteen words of its capture record, freezes it, or holds it
where it is linked and no mask failed, and changes no other word; otherwise it does nothing. HOLD_OFF_END of a held set whose
hold-off is over enters PRE on the next segment and clears word 0 of its record; otherwise it does nothing. A domain calibration
takes c = 1,000 + d - a with d half the round trip less 2,000 where both pulses came and lie within 60 ns, and otherwise leaves no
compensation; a station sends its probe and the master the three reference pulses; without a domain it does nothing. -/
def Obligations.HarvestCaptures : Prop :=
  (∀ (k : Fin 8) (s : State), live s = true →
    let x := capture k s
    (x.st ≠ 2 ∨ x.left ≠ 0 → exec (.captureFreeze k) s = .next s)
    ∧ (x.st = 2 → x.left = 0 → s.dev.boot.bgrp = 0xFF → 0x400000 ≤ recordOf k s → recordOf k s + 16 ≤ 0x800000 →
      Ends (.captureFreeze k) s fun t =>
        let f := s.dev.phase.frcSync
        let r := fun n => memRead t.mem (recordOf k s + n)
        capture k t = { x with
            st := if x.linked = true ∧ x.maskFail = false then 4 else 3, freezeFrc := some f, events := 0, holdLost := 0 }
          ∧ CapturesKept (fun j => j = k.val) s t
          ∧ (r 0).getLsbD 35 = true ∧ (r 0).getLsbD 34 = x.maskFail ∧ r 1 = x.tncc
          ∧ r 2 = BitVec.ofNat 36 (x.tfrc.toNat / 2 ^ 36) ∧ r 3 = BitVec.ofNat 36 x.tfrc.toNat
          ∧ r 4 = BitVec.ofNat 36 (f.toNat / 2 ^ 36) ∧ r 5 = BitVec.ofNat 36 f.toNat
          ∧ r 6 = BitVec.ofNat 36 x.tpre ∧ r 7 = BitVec.ofNat 36 x.tpos
          ∧ ∀ a, (a < recordOf k s ∨ recordOf k s + 16 ≤ a) → memRead t.mem a = memRead s.mem a))
  ∧ (∀ (k : Fin 8) (s : State), live s = true →
    let x := capture k s
    let gone := if descField k 70 34 2 s = 1 then descField k 70 0 24 s ≤ x.events
      else ∀ f, x.freezeFrc = some f → 250 * descField k 70 0 24 s + x.holdLost ≤ (s.dev.phase.frcSync - f).toNat
    (x.st ≠ 4 ∨ s.dev.therm.state = .hold ∨ ¬ gone → exec (.holdOffEnd k) s = .next s)
    ∧ (x.st = 4 → s.dev.therm.state ≠ .hold → gone → Ends (.holdOffEnd k) s fun t =>
        let y := capture k t
        y.st = 1 ∧ y.capture = x.capture + 1 ∧ y.pos = 0 ∧ y.count = 0 ∧ y.events = 0 ∧ y.waiting = none ∧ y.desc = x.desc
          ∧ y.armFrc = s.dev.phase.frcSync ∧ CapturesKept (fun j => j = k.val) s t
          ∧ (Safety.Inv s → memRead t.mem (recordOf k t) = 0
            ∨ s.dev.boot.bgrp.getLsbD (recordOf k t % 32 / 4) = false)
          ∧ ∀ a, a ≠ recordOf k t → memRead t.mem a = memRead s.mem a))
  ∧ (∀ (got : Bool) (a r : Nat) (s : State), live s = true →
    let d : Int := ((r : Int) - 2000) / 2
    let c : Int := 1000 + d - a
    let comp := fun (ok : Bool) (c : Int) (d : Nat) =>
      { s.dev.hvs with calOk := ok, dcomp := c, tcomp := d }
    (s.dev.hvs.s0 = none ∨ s.dev.sys.domain = false → exec (.domainCalibration got a r) s = .next s)
    ∧ (s.dev.hvs.s0 ≠ none → s.dev.sys.domain = true →
      (s.dev.hvs.didx = 0 → exec (.domainCalibration got a r) s
        = .next (withDev s { s.dev with hvs := comp true 0 0, out := s.dev.out ++ [.tbus 0, .tbus 0, .tbus 0] }))
      ∧ (s.dev.hvs.didx ≠ 0 → Ends (.domainCalibration got a r) s fun t =>
        s.dev.out ++ [.tbus 0] <+: t.dev.out ∧
        (got = true ∧ 0 ≤ d ∧ d ≤ 60 ∧ -60 ≤ c ∧ c ≤ 60 → t.dev.hvs = comp true c d.toNat)
          ∧ (¬ (got = true ∧ 0 ≤ d ∧ d ≤ 60 ∧ -60 ≤ c ∧ c ≤ 60) → t.dev.hvs = comp false 0 0
            ∧ (logReady s → EventLogged 18 0 4 0 s t)))))

/-! Rings, decisions, DISCOVER and domains, local phase links (spec/10 R313, R348, spec/11 R351 to R382, spec/04 R122, R123,
spec/03 R651, spec/18 R554 to R557, spec/08 R275 to R278). -/

namespace Sys2Proof.Claims

/-- A ring's controller, A or B, and one of its ports. -/
def ring (b : Bool) (s : State) : RingSt := tabGet {} s.dev.dq (if b then 1 else 0)
def portOf (p1 : Bool) (r : RingSt) : RPort := if p1 then r.p1 else r.p0

/-- The variant has the ring. -/
def HasRing (b : Bool) (s : State) : Prop := b = false ∨ s.variant = .vx1284 ∨ s.variant = .vx1284n

/-- States in which a break of a ring is answered (R368). -/
def ringsLive (s : State) : Prop :=
  s.dev.sys.st = .commission ∨ s.dev.sys.st = .run ∨ s.dev.sys.st = .recovery ∨ s.dev.sys.st = .safeLock

/-- The source code of a ring's block in an event. -/
def ringSource (b : Bool) : Nat := if b then 14 else 13

/-- No proposal and no heal is on its way, and no break has been found. -/
def TrellisQuiet (s : State) : Prop :=
  s.dev.trl.prop = none ∧ s.dev.trl.heal = none ∧ s.dev.trl.brkA = false ∧ s.dev.trl.brkB = false

/-- A mode of the trellis. -/
def modeOf (m : Nat) (s : State) : ModeRec := tabGet {} s.dev.trl.modes m

/-- Bits lo to lo + n - 1 of a word. -/
def bitsOf (v : Word) (lo n : Nat) : Nat := v.toNat / 2 ^ lo % 2 ^ n

/-- The cycle timer starts at this instant, which is sync point S0 (spec/02 R49, spec/18 R555): NCC and the virtual master are
zero, and the phase where the virtual master is its source; an effect that waits for a sync point waits as long as before
(log 135). -/
def StartsAtS0 (s t : State) : Prop :=
  t.dev.sys.domain = true ∧ t.dev.sys.cycOn = true ∧ t.dev.sys.rate = 0 ∧ t.dev.phase.ncc = 0 ∧ t.dev.phase.vm = 0
    ∧ t.dev.phase.mph = (if s.dev.phase.src.kind = 0 then 0 else s.dev.phase.mph)
    ∧ t.dev.phase.frcSync = s.dev.ptm.frc ∧ t.dev.hvs.s0 = some 0 ∧ t.dev.boot.domWait = false ∧ SameMemory s t
    ∧ t.dev.cmd.effects = s.dev.cmd.effects.map (fun e => match e.time with
      | .at c => { e with time := .at (c - s.dev.phase.ncc) }
      | _ => e)
    ∧ { t.dev.cmd with effects := s.dev.cmd.effects, acyc := s.dev.cmd.acyc } = s.dev.cmd

/-- The built-in schedule begins with its first step (R361, R378). -/
def ScheduleStarts (s t : State) : Prop :=
  t.dev.trl.builtIn = true ∧ t.dev.trl.step = some 0 ∧ t.dev.trl.waiting = false ∧ t.dev.trl.listening = false
    ∧ t.dev.trl.epoch = (if s.dev.trl.epochKept = true then s.dev.trl.epoch else 1)
    ∧ (∀ b, (ring b t).passive = false) ∧ SameMemory s t

end Sys2Proof.Claims

/-- RING_PORT_DOWN marks the port of a present ring down and logs it, RING_PORT_UP marks it synchronised, and with sixteen idles up
and logs it; the other port and
the other ring stay, where no break is answered, and a standby turns back at a port that is down. GATHER_RETURN_TIMEOUT on a
whole ring whose GATHER has not come back finds a
break: with a heal plan one heal of the ring is decided for the next sync points and RESCUE is sent, and without one RUN is left
for RECOVERY; where the unit does not send, the ring is a line, or the GATHER is back, nothing happens. -/
def Obligations.RingPortsAndBreaks : Prop :=
  (∀ (b p1 sig : Bool) (s : State), live s = true →
    (¬ HasRing b s → exec (.ringPortDown b p1 sig) s = .next s ∧ ∀ i, exec (.ringPortUp b ⟨p1, i⟩) s = .next s)
    ∧ (HasRing b s → ¬ ringsLive s → Ends (.ringPortDown b p1 sig) s fun t =>
        portOf p1 (ring b t) = { portOf p1 (ring b s) with up := false, cgs := false, sig := sig, downSeen := true }
          ∧ portOf (!p1) (ring b t) = portOf (!p1) (ring b s) ∧ ring (!b) t = ring (!b) s
          ∧ (s.dev.sys.role = .standby → (ring b t).node = (if p1 then { (ring b s).node with lost1 := true }
              else { (ring b s).node with lost0 := true }))
          ∧ (logReady s → EventLogged (ringSource b) (if p1 then 1 else 0) 1 0 s t))
    ∧ (HasRing b s → Ends (.ringPortUp b ⟨p1, false⟩) s fun t =>
        portOf p1 (ring b t) = { portOf p1 (ring b s) with cgs := true, sig := true }
          ∧ portOf (!p1) (ring b t) = portOf (!p1) (ring b s) ∧ ring (!b) t = ring (!b) s ∧ SameMemory s t)
    ∧ (HasRing b s → Ends (.ringPortUp b ⟨p1, true⟩) s fun t =>
        portOf p1 (ring b t) = { portOf p1 (ring b s) with up := true, cgs := true, sig := true }
          ∧ portOf (!p1) (ring b t) = portOf (!p1) (ring b s) ∧ ring (!b) t = ring (!b) s
          ∧ (logReady s → EventLogged (ringSource b) (if p1 then 1 else 0) 2 0 s t)))
  ∧ (∀ (b : Bool) (s : State), live s = true →
    (ringSends b (begin_ s) = false ∨ (ring b s).line = true ∨ (ring b s).gatherBack = true →
      exec (.gatherReturnTimeout b) s = .next s)
    ∧ (ringSends b (begin_ s) = true → (ring b s).line = false → (ring b s).gatherBack = false → ringsLive s →
      s.dev.trl.builtIn = false → (ring b s).broken = false → Ends (.gatherReturnTimeout b) s fun t =>
        (ring b t).broken = true ∧ ring (!b) t = ring (!b) s
          ∧ (TrellisQuiet s → s.dev.sys.mode = 0 ∨ s.dev.sys.mode = 6 ∨ s.dev.sys.mode = 7 →
            ((modeOf s.dev.sys.mode s).hsrc = true → t.dev.sys = s.dev.sys ∧ t.dev.trl.brkA = !b ∧ t.dev.trl.brkB = b
              ∧ (ring b t).rescueTo = some (cycleIn 1 s))
            ∧ ((modeOf s.dev.sys.mode s).hsrc = false → t.dev.trl = s.dev.trl
              ∧ t.dev.sys.st = (if s.dev.sys.st = .run then .recovery else s.dev.sys.st)))))

/-- FRAME_DEPARTURE of a trellis entry that is due on an open path sends one frame of its class on its ring and path with the
present cycle in its header and keeps it until it returns; otherwise it does nothing. A damaged frame is discarded and counted;
a frame of no defined class is no frame; the unit's own SYNC come back unchanged is let go. A unit that forwards passively sends
a looped frame on as it came, out of the other port, or back where that one is out of use; a standby takes the position of an
ENUM transfer, one above the argument, writes it back and marks the transfer answered. -/
def Obligations.RingFrames : Prop :=
  (∀ (b pw : Bool) (i : Fin 16384) (s : State), live s = true → s.dev.trl.builtIn = false →
    let e := trlEntry i (begin_ s)
    let go := entryDue i (begin_ s) = true ∧ e0Class e.1 ≠ 1 ∧ pathOpen (e0Ring e.1) (e0Path e.1) (begin_ s) = true
    (¬ go → exec (.frameDeparture b pw i) s = .next s)
    ∧ (go → s.dev.mem.ecc = [] → Ends (.frameDeparture b pw i) s fun t =>
        ∃ f : SentFrame, (ring (e0Ring e.1) t).sent = (ring (e0Ring e.1) s).sent ++ [f]
          ∧ f.pathW = e0Path e.1 ∧ f.cls = e0Class e.1 ∧ f.ncc = s.dev.phase.ncc
          ∧ bitsOf (f.words.getD 0 0) 32 4 = e0Class e.1 ∧ f.words.getD 1 0 = s.dev.phase.ncc
          ∧ t.dev.out.getLast? = some (.ring (e0Ring e.1) (e0Path e.1) (frameBytes f.words))))
  ∧ (∀ (b p1 : Bool) (at_ : Nat) (bytes : List Nat) (v : Bool) (s : State), live s = true → HasRing b s →
    (v = true → (portOf p1 (ring b s)).rcrc + 1 < 0xFFFFFFFF → Ends (.ringFrameReceived b p1 at_ bytes v) s fun t =>
      portOf p1 (ring b t) = { portOf p1 (ring b s) with rcrc := (portOf p1 (ring b s)).rcrc + 1 }
        ∧ portOf (!p1) (ring b t) = portOf (!p1) (ring b s) ∧ (ring b t).sent = (ring b s).sent ∧ SameMemory s t
        ∧ (forwards (begin_ s) = false → ring (!b) t = ring (!b) s) ∧ t.dev.cmd = s.dev.cmd)
    ∧ (∀ ws, v = false → frameWords bytes = some ws → forwards (begin_ s) = true → ringClk b (begin_ s) = true →
        refRuns (begin_ s) = true →
        let back := if p1 then (ring b s).node.lost0 else (ring b s).node.lost1
        ((ws.getD 0 0).getLsbD 26 = true → Ends (.ringFrameReceived b p1 at_ bytes v) s fun t =>
          t.dev.out = s.dev.out ++ [.ring b (p1 != back) (frameBytes ws)] ∧ SameMemory s t ∧ t.dev.cmd = s.dev.cmd
            ∧ (ring b t).sent = (ring b s).sent)
        ∧ (∀ h n t0 t1 : Word, ws = [h, n, t0, t1] → s.dev.sys.role = .standby → h.getLsbD 26 = false → bitsOf h 32 4 = 5 →
            bitsOf h 16 10 = 1 → bitsOf h 0 16 = s.dev.trl.epoch → bitsOf t0 24 4 = 3 → bitsOf t0 0 8 = 0 → bitsOf t1 0 7 < 127 →
            back = false → Ends (.ringFrameReceived b p1 at_ bytes v) s fun t =>
              (ring b t).node.pos = bitsOf t1 0 7 + 1
                ∧ ∃ a g : Word, t.dev.out = s.dev.out ++ [.ring b p1 (frameBytes [h, n, a, g])]
                  ∧ bitsOf g 0 7 = bitsOf t1 0 7 + 1 ∧ bitsOf g 7 29 = bitsOf t1 7 29
                  ∧ a.getLsbD 35 = true ∧ bitsOf a 8 4 = 0 ∧ bitsOf a 12 23 = bitsOf t0 12 23))
    ∧ (∀ ws, v = false → frameWords bytes = some ws → forwards (begin_ s) = false →
        (bitsOf (ws.getD 0 0) 32 4 = 0 ∨ 6 < bitsOf (ws.getD 0 0) 32 4 → exec (.ringFrameReceived b p1 at_ bytes v) s = .next s)
        ∧ (∀ f : SentFrame, (ring b s).sent = [f] → f.cls = 1 → f.words = ws → f.ncc = ws.getD 1 0 →
          f.pathW = (ws.getD 0 0).getLsbD 28 → bitsOf (ws.getD 0 0) 32 4 = 1 →
          2 * bitsOf (ws.getD 0 0) 16 10 + 2 = ws.length → bitsOf (ws.getD 0 0) 0 16 = s.dev.trl.epoch →
          (ws.getD 0 0).getLsbD 26 = false → s.dev.grf.tko = false →
          Ends (.ringFrameReceived b p1 at_ bytes v) s fun t =>
            ring b t = { ring b s with sent := [], goodNow := true } ∧ ring (!b) t = ring (!b) s ∧ SameMemory s t
              ∧ t.dev.cmd = s.dev.cmd)))

/-- TIME_TRANSFER_PERIODIC in thermal state FULL queues one TIME transfer on each path of a ring in use whose ACYC frames have
room, where none is queued; under the built-in schedule it does nothing; outside FULL it stays due. NODE_PARAM_TIMEOUT of a command under way completes it LATE_REFUSED with
detail 2 in its slot and lets its transfer go; with none it does nothing. PHASE_LINK_FRAME sends the channel's currents; a returned frame with
a wrong check value is counted and logged, and a right one sets or clears the driver fault as its flags say. -/
def Obligations.TransfersAndPhaseLinks : Prop :=
  (∀ s : State, live s = true →
    (s.dev.therm.state ≠ .full → exec .timeTransferPeriodic s
      = .next (withDev s { s.dev with trl := { s.dev.trl with timeDue := true } }))
    ∧ (s.dev.therm.state = .full → (∀ b, ∀ x ∈ (ring b s).acyc, x.kind ≠ .time) →
      (s.dev.trl.builtIn = true → exec .timeTransferPeriodic s = .next s)
      ∧ (s.dev.trl.builtIn = false → Ends .timeTransferPeriodic s fun t => SameMemory s t ∧ t.dev.cmd = s.dev.cmd
        ∧ ∀ b, ringSends b (begin_ s) = true →
          ring b t = { ring b s with acyc := (ring b s).acyc
            ++ ([false, true].filter (fun pw => timeFits b pw (begin_ s))).map (fun pw =>
              { kind := .time, pathW := pw, dst := 127, svc := 5, arg := if pw then 1 else 0, rwords := 252 }) })))
  ∧ (∀ (q : Fin 5) (e : Fin 256) (s : State), live s = true →
    ((∀ x ∈ s.dev.cmd.xfers, ¬ (x.cmd.q = q ∧ x.cmd.entry = e)) → exec (.nodeParamTimeout q e) s = .next s)
    ∧ (∀ (x : NodeXfer) (j : JEntry), s.dev.cmd.xfers = [x] → x.cmd.q = q → x.cmd.entry = e → x.cmd.id ≠ 0 →
        (slot q e s).owner = some x.cmd.id → s.dev.cmd.journal = [j] → j.id = x.cmd.id → j.status = 2 →
        Ends (.nodeParamTimeout q e) s fun t => t.dev.cmd.xfers = [] ∧ (slot q e t).status = 0x20
          ∧ (slot q e t).detail = 2 ∧ (slot q e t).res = []
          ∧ (∀ k i, k ≠ q.val ∨ i ≠ e.val → slot k i t = slot k i s)))
  ∧ (∀ (n : Fin 8) (ret : BitVec 48) (s : State), live s = true →
    let x : StpAxis := tabGet {} s.dev.stp.axes (1024 + n)
    let run_ := tabGet 0 s.dev.stp.crcRun n
    let sent := fun (t : State) => ∃ f : BitVec 48, t.dev.out = s.dev.out ++ [.phaseLink n f]
      ∧ f.toNat / 2 ^ 46 = (if x.ref0.getLsbD 35 = false then 2 else if x.ref0.getLsbD 34 = true then 0 else 1)
      ∧ f.toNat / 2 ^ 27 % 2 ^ 18 = x.ref0.toNat % 2 ^ 18 ∧ f.toNat / 2 ^ 8 % 2 ^ 18 = x.ref1.toNat % 2 ^ 18
      ∧ phaseCrc f = f.toNat % 256
    (phaseCrc ret ≠ ret.toNat % 256 → run_ < 2 → Ends (.phaseLinkFrame n ret) s fun t => sent t
        ∧ t.dev.stp = { s.dev.stp with
            linkErr := s.dev.stp.linkErr ||| (1 <<< n.val), crcRun := tabSet 0 s.dev.stp.crcRun n (run_ + 1) }
        ∧ (logReady s → EventLogged 11 n 3 0 s t))
    ∧ (phaseCrc ret = ret.toNat % 256 → ret.toNat / 2 ^ 42 % 16 = 0 → Ends (.phaseLinkFrame n ret) s fun t => sent t
        ∧ tabGet 0 t.dev.stp.crcRun n = 0 ∧ t.dev.stp.drvFlt.getLsbD n = false
        ∧ tabGet {} t.dev.stp.axes (1024 + n) = { x with nodeFault := false } ∧ SameMemory s t)
    ∧ (phaseCrc ret = ret.toNat % 256 → ret.toNat / 2 ^ 42 % 16 ≠ 0 → x.fcode ≠ 0 → Ends (.phaseLinkFrame n ret) s fun t =>
        sent t ∧ t.dev.stp.drvFlt.getLsbD n = true ∧ tabGet {} t.dev.stp.axes (1024 + n) = { x with nodeFault := true }))

/-- PROPOSAL_DECISION two cycles before the proposed switch: with every counted node's acknowledgement the proposal is agreed
and the rate of its mode is taken for the switch; else it is withdrawn, PROP_ABORT is carried, and MODE_ABORT names the first node
without it. BUNDLE_DECISION of a bundle whose decision cycle it is: armed for the commit sync point where every unit had staged it
and no higher decision falls, and gone otherwise. PLAN_REPROPOSE proposes mode 5 for 8 cycles on in PLAN; the slot entries written in COMMISSION let
a waiting RUN request be proposed. In every other case these do nothing. -/
def Obligations.DecisionsAndProposals : Prop :=
  (∀ s : State, live s = true →
    (s.dev.trl.prop = none → exec .proposalDecision s = .next s)
    ∧ (∀ p, s.dev.trl.prop = some p →
      (p.agreed = true ∨ p.n ≠ cycleIn 2 s → exec .proposalDecision s = .next s)
      ∧ (p.agreed = false → p.n = cycleIn 2 s →
        ((∀ x ∈ nodesIn (begin_ s), (tabGet {} (ring x.1 s).nodes x.2).acked = true) → Ends .proposalDecision s fun t =>
          t.dev.trl = { s.dev.trl with prop := some { p with agreed := true } }
            ∧ t.dev.phase.rateNext = some (p.n, (modeOf p.mode s).rate) ∧ t.dev.sys = s.dev.sys)
        ∧ (∀ x l, nodesIn (begin_ s) = x :: l → (tabGet {} (ring x.1 s).nodes x.2).acked = false → Ends .proposalDecision s fun t =>
          t.dev.trl = { s.dev.trl with prop := none, aborted := true, abort := some p }
            ∧ t.dev.phase.rateNext = none ∧ t.dev.sys = { s.dev.sys with trans := false }
            ∧ (p.cmd.id = 0 → logReady s → EventLogged 15 0 3 x.2 s t)))))
  ∧ (∀ (b : Bundle) (s : State), live s = true → s.dev.cmd.bundles = [b] →
    (bundleDue b (begin_ s) = none → exec .bundleDecision s = .next s)
    ∧ (∀ c, bundleDue b (begin_ s) = some c → Ends .bundleDecision s fun t => t.dev.cmd.decided = true
        ∧ (b.slow = false → c = cycleIn 2 s)
        ∧ (stagedFor b c = true → rankedNow (begin_ s) = false → t.dev.cmd.bundles = [{ b with state := .armed, c := c }])
        ∧ (stagedFor b c = false ∨ rankedNow (begin_ s) = true → t.dev.cmd.bundles = [])))
  ∧ (∀ s : State, live s = true →
    let go := s.dev.sys.st = .plan ∧ s.dev.trl.planOk = true ∧ s.dev.trl.prop = none ∧ (modeOf 5 s).valid = true
    (¬ go → exec .planRepropose s = .next s)
    ∧ (go → Ends .planRepropose s fun t =>
      t.dev.trl.prop = some { mode := 5, n := cycleIn 8 s, target := some .commission }
        ∧ t.dev.sys = { s.dev.sys with trans := true } ∧ SameMemory s t
        ∧ ∀ b k, (tabGet {} (ring b t).nodes k).acked = false))
  ∧ (∀ s : State, live s = true →
    (s.dev.sys.st ≠ .commission → exec .slotEntriesWritten s = .next s)
    ∧ (s.dev.sys.st = .commission → s.dev.trl.runWait = none →
      exec .slotEntriesWritten s = .next (withDev s { s.dev with trl := { s.dev.trl with slots0 := true } }))
    ∧ (∀ c, s.dev.sys.st = .commission → s.dev.trl.runWait = some c → s.dev.trl.prop = none → s.dev.trl.heal = none →
      Ends .slotEntriesWritten s fun t =>
        t.dev.trl.prop = some { mode := 0, n := cycleIn 8 s, cmd := c, target := some .run } ∧ t.dev.trl.runWait = none
          ∧ t.dev.trl.slots0 = true ∧ t.dev.sys = { s.dev.sys with trans := true }))

/-- The end of DISCOVER's listening: with no unit heard the role is SOLO and the built-in schedule begins; with a higher UNIT_ID
ACTIVE; with a lower one STANDBY without a schedule; with the same one a conflict. DISCOVER_STEP of the enumeration moves on to the
next step where every ring in use answered, and waits otherwise; DISCOVER_RETRY lets a failed step repeat. DOMAIN_START of the domain
master and the first quiet rising edge of DCLK at a waiting follower start the cycle timer at S0; the loss of DCLK ends a
follower's domain. In other states and roles these change no more than the kept instant of DCLK. -/
def Obligations.DiscoverAndDomains : Prop :=
  (∀ (u : Option (Fin 16)) (s : State), live s = true →
    (s.dev.sys.st ≠ .discover ∨ s.dev.trl.listening = false → exec (.discoverListenEnd u) s = .next s)
    ∧ (s.dev.sys.st = .discover → s.dev.trl.listening = true → Ends (.discoverListenEnd u) s fun t =>
      (u = none → t.dev.sys.role = .solo ∧ ScheduleStarts s t)
        ∧ (∀ k, u = some k → s.dev.boot.unitId < k.val → t.dev.sys.role = .active ∧ ScheduleStarts s t)
        ∧ (∀ k, u = some k → k.val < s.dev.boot.unitId → t.dev.sys.role = .standby ∧ t.dev.trl.builtIn = false
            ∧ t.dev.trl.step = none ∧ ∀ b, (ring b t).passive = true)
        ∧ (∀ k, u = some k → k.val = s.dev.boot.unitId → t.dev.trl.conflict = true ∧ t.dev.trl.builtIn = false
            ∧ ∀ b, (ring b t).passive = true)))
  ∧ (∀ (r : StepResult) (s : State), live s = true →
    (s.dev.sys.st ≠ .discover ∨ s.dev.trl.builtIn = false ∨ s.dev.trl.waiting = true ∨ s.dev.trl.step = none
        ∨ s.dev.sys.cycOn = false →
      exec (.discoverStep r) s = .next s)
    ∧ (∀ x y, r = .enumerate x y → s.dev.sys.st = .discover → s.dev.trl.builtIn = true → s.dev.trl.waiting = false →
      s.dev.sys.cycOn = true → s.dev.trl.step = some 0 → Ends (.discoverStep r) s fun t =>
        (∀ m n, x = some m → y = some n → t.dev.trl = { s.dev.trl with step := some 1 } ∧ SameMemory s t
          ∧ (ringUsed false (begin_ s) = true → (ring false t).found = m)
          ∧ (ringUsed true (begin_ s) = true → (ring true t).found = n))
        ∧ (x = none → ringUsed false (begin_ s) = true →
          t.dev.trl = { s.dev.trl with waiting := true } ∧ (ring false t).openSeen = true)))
  ∧ (∀ s : State, live s = true → exec .discoverRetry s = .next (if s.dev.sys.st = .discover
      then withDev s { s.dev with trl := { s.dev.trl with waiting := false } } else s))
  ∧ (∀ s : State, live s = true →
    let go := s.dev.sys.st = .discover ∧ s.dev.boot.domEn = true ∧ s.dev.hvs.didx = 0 ∧ s.dev.sys.cycOn = false
    (¬ go → exec .domainStart s = .next s)
    ∧ (go → Ends .domainStart s fun t => StartsAtS0 s t ∧ t.dev.out = s.dev.out ++ [.dclk]))
  ∧ (∀ s : State, live s = true →
    let follows := s.dev.boot.domEn = true ∧ s.dev.hvs.didx ≠ 0
    let quiet := ∀ at_, s.dev.boot.dclkAt = some at_ → 265625 ≤ (s.dev.ptm.frc - at_).toNat
    (¬ (s.dev.boot.domWait = true ∧ follows ∧ quiet) →
      exec .dclkRisingEdge s = .next (withBoot { s.dev.boot with dclkAt := some s.dev.ptm.frc } s))
    ∧ (s.dev.boot.domWait = true → follows → quiet → Ends .dclkRisingEdge s fun t =>
        StartsAtS0 s t ∧ t.dev.boot.dclkAt = some s.dev.ptm.frc)
    ∧ (¬ follows ∨ s.dev.sys.domain = false → exec .dclkLoss s = .next s)
    ∧ (follows → s.dev.sys.domain = true → Ends .dclkLoss s fun t => t.dev.sys = { s.dev.sys with domain := false }
        ∧ t.dev.hvs = { s.dev.hvs with calOk := false } ∧ t.dev.boot = { s.dev.boot with domLoss := true }
        ∧ (logReady s → EventLogged 1 0 2 0 s t)))

/-! Graft redundancy and the power timeline (spec/13 R416 to R443, spec/04 R137, spec/12 R396). -/

namespace Sys2Proof.Claims

/-- The words of a graft frame that is whole on a lane: its lane bits agree and its length is the header's (Table 13.2). -/
def WholeOn (lane : Bool) (ws : List Word) : Prop :=
  (ws.getD 0 0).getLsbD 28 = lane ∧ (ws.getD 0 0).getLsbD 29 = lane ∧ ws.length = 2 + 2 * bitsOf (ws.getD 0 0) 16 10

/-- Kind, SEQI and epoch of a frame's header. -/
def HeaderIs (kind seqi epoch : Nat) (h : Word) : Prop :=
  bitsOf h 32 4 = kind ∧ bitsOf h 29 3 = seqi ∧ bitsOf h 0 16 = epoch

/-- The unit uses its graft link (R414). -/
def UsesGraft (s : State) : Prop := (s.variant = .vx1284 ∨ s.variant = .vx1284n) ∧ s.dev.grf.en = true

/-- The state with other graft registers. -/
def withGrf (g : GrfSt) (s : State) : State := withDev s { s.dev with grf := g }

/-- Only lane 0 runs, and its frame of slot k has not come at a standby. -/
def MissesSlot (k : Nat) (s : State) : Prop :=
  graftRuns (begin_ s) = true ∧ s.dev.sys.role = .standby ∧ s.dev.grf.lane0 = true ∧ s.dev.grf.lane1 = false
    ∧ s.dev.grf.got.testBit (2 * k) = false ∧ s.dev.grf.miss + 1 < 0xFFFFFFFF

end Sys2Proof.Claims

/-- GRAFT_SLOT on a lane that is up: a unit in charge sends the records that are next in its set, in order from the front of the
body, under the set's cycle; a standby sends its status under the cycle of the last set it applied; a lane that is down sends
nothing. -/
def Obligations.GraftSlots : Prop :=
  ∀ (k : Fin 4) (lane : Bool) (s : State), live s = true →
    let up_ := if lane then s.dev.grf.lane1 else s.dev.grf.lane0
    (graftRuns (begin_ s) = false ∨ up_ = false → exec (.graftSlot k lane) s = .next s)
    ∧ (graftRuns (begin_ s) = true → up_ = true → s.dev.sys.role = .standby → Ends (.graftSlot k lane) s fun t =>
        ∃ h v : Word, t = withDev s { s.dev with out := s.dev.out
            ++ [.graft 2 (frameBytes [h, s.dev.grf.last, v, 0])] }
          ∧ HeaderIs 2 (2 * k + (if lane then 1 else 0)) (s.dev.trl.epoch % 65536) h
          ∧ bitsOf v 32 4 = s.dev.boot.unitId % 16 ∧ bitsOf v 30 2 = 2 ∧ v.getLsbD 29 = s.dev.sys.stale
          ∧ v.getLsbD 28 = s.dev.grf.suspect ∧ bitsOf v 0 16 = s.dev.trl.epoch % 65536)
    ∧ (graftRuns (begin_ s) = true → up_ = true → s.dev.sys.role ≠ .standby → Ends (.graftSlot k lane) s fun t =>
        ∃ (h : Word) (body : List Word) (l : List (List Word)),
          t.dev.out = s.dev.out ++ [.graft 1 (frameBytes (h :: s.dev.grf.outNcc :: body))]
            ∧ HeaderIs 1 (2 * k + (if lane then 1 else 0)) (s.dev.trl.epoch % 65536) h
            ∧ s.dev.grf.out = l ++ t.dev.grf.out ∧ l.flatten <+: body ∧ body.length % 2 = 0
            ∧ SameMemory s t ∧ t.dev.cmd = s.dev.cmd)

/-- GRAFT_FRAME_RECEIVED: a frame with a bad code group, length or check sequence, or without a graft link in use, changes nothing.
A good SET frame at a
standby is kept under its place with its cycle, and ends a run of misses; a good STATUS frame at the active is noted with what it
says. GRAFT_SLOT_END: a missing frame at a standby is counted; the first of a run makes the standby suspect and keeps whether it
was eligible, and the third decides the takeover where it was. -/
def Obligations.GraftFramesReceived : Prop :=
  (∀ (lane ok : Bool) (bytes : List Nat) (s : State), live s = true →
    (ok = false ∨ frameWords bytes = none ∨ ¬ UsesGraft s → exec (.graftFrameReceived lane ok bytes) s = .next s)
    ∧ (∀ ws seqi epoch, ok = true → frameWords bytes = some ws → UsesGraft s → WholeOn lane ws → s.dev.sys.st ≠ .discover →
      epoch = s.dev.trl.epoch →
      (HeaderIs 1 seqi epoch (ws.getD 0 0) → s.dev.sys.role = .standby → s.dev.grf.suspect = false →
        exec (.graftFrameReceived lane ok bytes) s = .next (withGrf { s.dev.grf with
          rx := tabIns (if s.dev.grf.rxNcc = ws.getD 1 0 then s.dev.grf.rx else []) seqi (ws.drop 2)
          rxNcc := ws.getD 1 0, missRun := 0, got := s.dev.grf.got ||| 2 ^ seqi, gotStatus := true
          rxBad := (decide (s.dev.grf.rxNcc = ws.getD 1 0) && s.dev.grf.rxBad) || (ws.getD 0 0).getLsbD 27 } s))
      ∧ (∀ v, HeaderIs 2 seqi epoch (ws.getD 0 0) → s.dev.sys.role = .active → v = ws.getD 2 0 → v.getLsbD 27 = false →
        Ends (.graftFrameReceived lane ok bytes) s fun t =>
          let g := t.dev.grf
          g.gotStatus = true ∧ g.pUnit = bitsOf v 32 4 ∧ g.pRole = bitsOf v 30 2 ∧ g.pStale = v.getLsbD 29
            ∧ g.pSuspect = v.getLsbD 28 ∧ g.pRingWait = false ∧ g.pEpoch = bitsOf v 0 16
            ∧ g.got = (s.dev.grf.got ||| 2 ^ seqi) ∧ t = withGrf g s)))
  ∧ (∀ (k : Fin 4) (s : State), live s = true →
    (graftRuns (begin_ s) = false → exec (.graftSlotEnd k) s = .next s)
    ∧ (s.dev.grf.got.testBit (2 * k) = true → s.dev.grf.got.testBit (2 * k + 1) = true → exec (.graftSlotEnd k) s = .next s)
    ∧ (MissesSlot k s →
      let g := s.dev.grf
      (g.missRun = 0 → exec (.graftSlotEnd k) s = .next (withGrf { g with
        miss := g.miss + 1, missRun := 1, suspect := true, eligible := !s.dev.sys.stale && !g.suspect, rotOk := false
        goodSets := 0, rxBad := true } s))
      ∧ (g.missRun = 1 → exec (.graftSlotEnd k) s = .next (withGrf { g with
        miss := g.miss + 1, missRun := 2, rxBad := true } s))
      ∧ (g.missRun = 2 → g.decided = none → g.eligible = true → exec (.graftSlotEnd k) s = .next (withGrf { g with
        miss := g.miss + 1, missRun := 3, rxBad := true, decided := some s.dev.ptm.frc } s))
      ∧ (g.missRun = 2 → g.decided = none → g.eligible = false → Ends (.graftSlotEnd k) s fun t =>
        t.dev.grf = { g with miss := g.miss + 1, missRun := 3, rxBad := true }
          ∧ (logReady s → EventLogged 16 0 2 0 s t))))

/-- GRAFT_SET_APPLY at a standby: a set that is not whole is discarded whole; a whole one is applied and counted, here one HEDGE
record; a unit that is no standby does nothing. TAKEOVER whose time has come makes the standby ACTIVE in the takeover mode with
the next epoch and the cycle of the last set as L; before that, and elsewhere, it does nothing. TAKEOVER_REPORT shows the number of
inherited commands that were not final at L. -/
def Obligations.GraftTakeover : Prop :=
  (∀ (stat rot : Bool) (s : State), live s = true →
    let g := s.dev.grf
    (s.dev.sys.role ≠ .standby → exec (.graftSetApply stat rot) s = .next s)
    ∧ (s.dev.sys.role = .standby → g.rxBad = true ∨ g.rx = [] → exec (.graftSetApply stat rot) s = .next (withGrf { g with
        rx := [], rxBad := true, rotOk := false, goodSets := 0 } s))
    ∧ (∀ h v : Word, s.dev.sys.role = .standby → g.rxBad = false → g.lane0 = true → g.lane1 = false → g.plans = [] →
        bitsOf h 32 4 = 8 → bitsOf h 20 12 = 1 → bitsOf h 0 20 = 0 → g.rx = [(0, [h, v]), (2, [0]), (4, [0]), (6, [0])] →
        exec (.graftSetApply false rot) s = .next (withGrf { g with
          hedge := [v], rotOk := g.rotOk || (g.staticOk && rot), goodSets := g.goodSets + 1, last := g.rxNcc, rx := []
          rxBad := true } s)))
  ∧ (∀ s : State, live s = true →
    let due := ∃ d, s.dev.grf.decided = some d ∧ 500 ≤ (s.dev.phase.frcSync - d).toNat
      ∧ (s.dev.phase.frcSync - d).toNat < 2 ^ 63
    (¬ (s.dev.sys.role = .standby ∧ due) → exec .takeover s = .next s)
    ∧ (s.dev.sys.role = .standby → due → Ends .takeover s fun t =>
        t.dev.sys.role = .active ∧ t.dev.sys.stale = false ∧ t.dev.sys.mode = s.dev.grf.tkMode
          ∧ t.dev.trl.epoch = (s.dev.trl.epoch + 1) % 65536 ∧ t.dev.grf.tko = true ∧ t.dev.grf.tkoL = s.dev.grf.last
          ∧ t.dev.grf.decided = none ∧ t.dev.grf.reportDue = true))
  ∧ (∀ s : State, live s = true →
    let l := s.dev.cmd.journal.filter (fun j => s.dev.grf.heirs.contains j.id)
    (s.dev.grf.reportDue = false → exec .takeoverReport s = .next s)
    ∧ (s.dev.grf.reportDue = true → Ends .takeoverReport s fun t =>
        t.dev.grf = { s.dev.grf with reportDue := false, heirs := [] } ∧ t.dev.cmd.tkoRdy = true
          ∧ t.dev.cmd.tkoCnt = l.length
          ∧ t.dev.cmd.journal = s.dev.cmd.journal ∧ (l = [] → logReady s → EventLogged 4 0 7 0 s t)))

/-- GRAFT_DOWN: an active without a good STATUS frame in 3 cycles is SOLO and logs it, and otherwise nothing happens. A lane that
goes down is logged; one that comes up is marked. TIMELINE_REBUILD after a takeover ends the rebuild with a curve only for the
axes that move, and otherwise does nothing. -/
def Obligations.GraftLanesAndTimeline : Prop :=
  (∀ s : State, live s = true →
    let go := s.dev.sys.role = .active ∧ UsesGraft s ∧ 3 ≤ s.dev.grf.noStatus
    (¬ go → exec .graftDown s = .next s)
    ∧ (go → Ends .graftDown s fun t => t.dev.sys = { s.dev.sys with role := .solo } ∧ t.dev.grf = s.dev.grf
        ∧ (logReady s → EventLogged 16 0 6 0 s t)))
  ∧ (∀ (lane : Bool) (s : State), live s = true → HasRing true s →
    ((if lane then s.dev.grf.lane1 else s.dev.grf.lane0) = true → Ends (.graftLaneDown lane) s fun t =>
      t.dev.grf = (if lane then { s.dev.grf with lane1 := false } else { s.dev.grf with lane0 := false })
        ∧ (logReady s → EventLogged 16 (if lane then 1 else 0) 7 0 s t))
    ∧ ((if lane then s.dev.grf.lane1 else s.dev.grf.lane0) = false → exec (.graftLaneDown lane) s = .next s)
    ∧ exec (.graftLaneUp lane) s = .next (withGrf
        (if lane then { s.dev.grf with lane1 := true } else { s.dev.grf with lane0 := true }) s))
  ∧ (∀ (lane : Bool) (s : State), live s = true → ¬ HasRing true s →
    exec (.graftLaneDown lane) s = .next s ∧ exec (.graftLaneUp lane) s = .next s)
  ∧ (∀ s : State, live s = true →
    (s.dev.egv.rebuild = false → exec .timelineRebuild s = .next s)
    ∧ (s.dev.egv.rebuild = true → Ends .timelineRebuild s fun t => t.dev.egv.rebuild = false
        ∧ t.dev.sys = s.dev.sys ∧ t.dev.pln = s.dev.pln
        ∧ ((∀ kv ∈ s.dev.pln.axes, kv.2.kind ≠ .posMove ∧ kv.2.kind ≠ .velMove) → t.dev.egv.curves = [])))

/-! The Hedge safety island (spec/14 R446 to R480). -/

namespace Sys2Proof.Claims

/-- The variant has the island; it is out of reset and past its self test. -/
def HasHedge (s : State) : Prop := s.variant = .vx1284 ∨ s.variant = .vx1264
def HedgeUp (s : State) : Prop := HasHedge s ∧ s.dev.hdg.hrstN = true ∧ s.dev.hdg.supply = true
def HedgeRuns (s : State) : Prop := HedgeUp s ∧ s.dev.hdg.pState ≠ .init

/-- The state with another island. -/
def withHedge (h : HdgSt) (s : State) : State := withDev s { s.dev with hdg := h }

/-- A black-channel connection. -/
def conn (c : Nat) (h : HdgSt) : HConn := tabGet {} h.conns c

/-- Brake pairs of a switch word (Table 14.2), and the local brake of a test in progress. -/
def pairsOf (sw : Nat) : Nat := [0, 2, 4, 8].getD (sw / 2 ^ 14 % 4) 0
def UnderTest (b : Nat) (h : HdgSt) : Prop := ∃ x, h.test = some x ∧ x.remote = false ∧ x.idx = b

/-- Hedge-P may hold: both channels OPEN, no release block, a fresh heartbeat of a unit in charge or a standby that is not
stale, and connection 0 alive (Table 14.4, R456, R458). -/
def MayHold (h : HdgSt) : Prop :=
  h.pState = .open_ ∧ h.lState = .open_ ∧ h.blocked = false ∧ h.hbFresh = true
    ∧ (h.hbRole = 0 ∨ h.hbRole = 1 ∨ h.hbRole = 2 ∧ h.hbStale = false) ∧ (conn 0 h).alive = true

/-- Hedge-P holds brake pair b released; Hedge-L may hold (R457). -/
def HoldsP (b : Nat) (h : HdgSt) : Prop :=
  MayHold h ∧ b < pairsOf h.swP ∧ h.lrel.getLsbD b = true ∧ h.hbLocal.getLsbD b = true ∧ ¬ UnderTest b h
def MayHoldL (h : HdgSt) : Prop :=
  h.pState = .open_ ∧ h.lState = .open_ ∧ h.blocked = false ∧ h.xOk = true ∧ h.xLock = false ∧ h.hlkiP = true ∧ h.hlkiL = true

/-- The outputs are what their conditions say (Table 14.4, R456, R457). -/
def OutputsRight (h : HdgSt) : Prop :=
  (∀ b, b < 8 → (h.brkP.getLsbD b = true ↔ HoldsP b h))
    ∧ (∀ b, b < 8 → (h.brkL.getLsbD b = true ↔
        MayHoldL h ∧ b < pairsOf h.swL ∧ h.xRel.getLsbD b = true ∧ h.lOverdue.getLsbD b = false))
    ∧ (h.stoA = true ↔ MayHold h ∧ h.stoPermit = true) ∧ (h.stoB = true ↔ MayHoldL h ∧ h.xSto = true)

/-- The island is as given but for its outputs, which are right; nothing else of the device has changed. -/
def HedgeBecomes (g : HdgSt) (s t : State) : Prop :=
  ∃ h : HdgSt, t = withHedge h s ∧ OutputsRight h
    ∧ h = { g with brkP := h.brkP, brkL := h.brkL, stoA := h.stoA, stoB := h.stoB }

/-- A fault of Table 14.12 has locked the channels named: its code and index are kept, the unit's own fault takes HLK low, and
every output is safe (R473). -/
def Locked (code idx : Nat) (p l : Bool) (g h : HdgSt) : Prop :=
  h.pState = (if p then .locked else g.pState) ∧ h.lState = (if l then .locked else g.lState)
    ∧ h.fLast = code ∧ h.fIndex = idx ∧ (g.pState ≠ .locked → g.lState ≠ .locked → h.fcode = code)
    ∧ (code ≠ 8 → h.hlkP = false ∧ h.hlkL = false) ∧ (code = 8 → h.hlkP = g.hlkP ∧ h.hlkL = g.hlkL)
    ∧ h.brkP = 0 ∧ h.brkL = 0 ∧ h.stoA = false ∧ h.stoB = false

/-- Both channels OPEN. -/
def BothOpen (h : HdgSt) : Prop := h.pState = .open_ ∧ h.lState = .open_

/-- The window as the island has it, with the due drive connections and the sequence numbers of the same refresh. -/
def WindowShown (h : HdgSt) : HdgSt := { h with win := hedgeWindow h, winDue := dueConns h, winSeq := seqNumbers h }

/-- SC0 (MID 2) and Hedge-P (MID 31) are the sides of channel 15; b is Hedge-P's. -/
def Channel15 (b : Bool) (s : State) : Prop := SideIs 31 15 b s ∧ SideIs 2 15 (!b) s

/-- The messages one MID's side has queued. -/
def queued (b : Bool) (c : Nat) (s : State) : List (List Word) := (sideRec b (channel c s)).queue

/-- The commands of the island that a variant without it ignores. -/
def hedgeCommand : Instr → Bool
  | .hrstNLow | .hrstNRelease .. | .hedgeSupplyFault | .hedgeSupplyRestored .. | .selfTestDone .. | .crossLinkWord ..
  | .crossLinkLoss | .hb | .heartbeatTimeout | .testPulseFrame | .pulseCheckSample .. | .discrepancyTimeout .. | .hlkiLow
  | .blackChannelSend .. | .blackChannelFrame .. | .connectionTimeout .. | .btest | .engageTimeEnd | .holdWindowEnd
  | .brakeTestEnd | .brakeDue .. | .brakeOverdue .. | .hedgeLOverdue .. | .safeAckNRise .. | .hlkiCheck .. | .tko ..
  | .holdsBlockedEnd => true
  | _ => false

end Sys2Proof.Claims

/-- A variant without the island ignores its commands. A Hedge reset or a supply fault puts both channels into INIT with every output
safe, nothing connected and no test, releases the semaphores of MID 31 alone, and leaves the device state. The release reads the
switches: equal readings are kept, different ones lock both channels for good with fault 6. Self tests that pass open both channels
with every brake in use due; a channel that fails is locked with fault 9. -/
def Obligations.HedgeResetAndStart : Prop :=
  (∀ (c : Instr) (s : State), ¬ HasHedge s → hedgeCommand c = true → exec c s = .next s)
  ∧ (∀ (c : Instr) (s : State), HasHedge s → c = .hrstNLow ∨ c = .hedgeSupplyFault → Ends c s fun t =>
      let h := t.dev.hdg
      h.pState = .init ∧ h.lState = .init ∧ h.brkP = 0 ∧ h.brkL = 0 ∧ h.stoA = false ∧ h.stoB = false
        ∧ h.hlkP = false ∧ h.hlkL = false
        ∧ h.conns = [] ∧ h.test = none ∧ h.hrstN = (decide (c ≠ .hrstNLow) && s.dev.hdg.hrstN)
        ∧ h.supply = (decide (c = .hrstNLow) && s.dev.hdg.supply)
        ∧ (∀ n, n < 64 → holder n t = (if holder n s = some 31 then none else holder n s)) ∧ t.dev.sys = s.dev.sys)
  ∧ (∀ (c : Instr) (p l : Fin 65536) (s : State), HasHedge s →
      c = .hrstNRelease p l ∧ s.dev.hdg.hrstN = false ∧ s.dev.hdg.supply = true
        ∨ c = .hedgeSupplyRestored p l ∧ s.dev.hdg.hrstN = true ∧ s.dev.hdg.supply = false →
      (p = l → exec c s = .next (withHedge { s.dev.hdg with hrstN := true, supply := true, swP := p, swL := l } s))
      ∧ (p ≠ l → Ends c s fun t => Locked 6 0 true true s.dev.hdg t.dev.hdg ∧ t.dev.hdg.permanent = true
          ∧ t = withHedge t.dev.hdg s))
  ∧ (∀ (okP okL : Bool) (s : State), HedgeUp s →
      (¬ (s.dev.hdg.pState = .init ∧ s.dev.hdg.lState = .init) → exec (.selfTestDone okP okL) s = .next s)
      ∧ (s.dev.hdg.pState = .init → s.dev.hdg.lState = .init → Ends (.selfTestDone okP okL) s fun t =>
        let h := t.dev.hdg
        t = withHedge h s
          ∧ h.pState = (if okP then .open_ else .locked) ∧ h.lState = (if okL then .open_ else .locked)
          ∧ (okP = true → okL = true → OutputsRight h ∧ h.hlkP = true ∧ h.hlkL = true ∧ h.lOverdue = 0
              ∧ ∀ b, b < 8 → (h.due.getLsbD b = true ↔ b < pairsOf h.swP))
          ∧ (okP = false ∨ okL = false → h.permanent = true ∧ h.fcode = 9 ∧ h.brkP = 0 ∧ h.stoA = false)))

/-- CROSS_LINK_WORD of a running island sends the next word, every bit followed by its complement; a usable one of the next count
gives Hedge-L the release bits, the STO permit and LOCK; another is not used. Its loss locks Hedge-L with its outputs off. HB sends
the heartbeat with role, STALE and count, and Hedge-P takes it; without one for 3 ms no hold is given, without a lock. TKO gives the
connections named their grafted sequence numbers. -/
def Obligations.HedgeLinks : Prop :=
  (∀ (ok : Bool) (s : State), HedgeRuns s → Ends (.crossLinkWord ok) s fun t =>
      let g := s.dev.hdg
      let h := t.dev.hdg
      let use := ok = true ∧ g.xCount = (g.lCount + 1) % 16
      h.ms = g.ms + 1 ∧ h.xCount = (g.xCount + 1) % 16 ∧ h.lCount = g.xCount ∧ h.pass = none ∧ h.pState = g.pState
        ∧ OutputsRight h
        ∧ (∃ x : BitVec 36, t = withDev s { s.dev with hdg := h, out := s.dev.out ++ [.crossLink x] }
            ∧ ∀ j, j < 18 → x.getLsbD (2 * j) = !x.getLsbD (2 * j + 1))
        ∧ (use → h.xOk = true ∧ h.xLock = decide (g.pState = .locked) ∧ (∀ b, b < 8 → (h.xRel.getLsbD b = true ↔ HoldsP b g))
            ∧ (h.xSto = true ↔ MayHold g ∧ g.stoPermit = true)
            ∧ h.lState = (if g.pState = .locked ∧ g.lState = .open_ then .locked else g.lState))
        ∧ (¬ use → h.xOk = g.xOk ∧ h.xRel = g.xRel ∧ h.xSto = g.xSto ∧ h.xLock = g.xLock ∧ h.lState = g.lState))
  ∧ (∀ s : State, HasHedge s →
      (s.dev.hdg.lState = .init → exec .crossLinkLoss s = .next s)
      ∧ (s.dev.hdg.lState ≠ .init → Ends .crossLinkLoss s fun t => t = withHedge t.dev.hdg s ∧ t.dev.hdg.xOk = false
          ∧ Locked 9 0 false true s.dev.hdg t.dev.hdg ∧ t.dev.hdg.permanent = true))
  ∧ (∀ s : State, live s = true → HasHedge s → fromConfig s.dev.sys.st = false → exec .hb s = .next s)
  ∧ (∀ (b : Bool) (s : State), live s = true → HedgeRuns s → fromConfig s.dev.sys.st = true → Channel15 b s →
      queued (!b) 15 s = [] → s.dev.hdg.test = none → s.dev.hdg.hbNext < 65536 → Ends .hb s fun t =>
        let h := t.dev.hdg
        h.hbFresh = true ∧ h.hbRole = (match s.dev.sys.role with | .solo => 0 | .active => 1 | .standby => 2)
          ∧ h.hbStale = s.dev.sys.stale ∧ h.hbCount = s.dev.hdg.hbNext ∧ h.hbNext = (s.dev.hdg.hbNext + 1) % 65536
          ∧ OutputsRight h ∧ h.pState = s.dev.hdg.pState ∧ queued (!b) 15 t = [] ∧ t.dev.sys = s.dev.sys)
  ∧ (∀ s : State, HasHedge s → s.dev.hdg.test = none → Ends .heartbeatTimeout s fun t =>
      HedgeBecomes { s.dev.hdg with hbFresh := false } s t ∧ t.dev.hdg.brkP = 0 ∧ t.dev.hdg.stoA = false)
  ∧ (∀ (m : Fin 10) (b : Bool) (s : State), live s = true → HedgeRuns s → Channel15 b s → queued (!b) 15 s = [] →
      s.dev.grf.hedge.length = 64 → Ends (.tko m) s fun t =>
        ∀ c, c < 64 →
          (7 * m ≤ c ∧ c < 7 * m + 7 → (conn c t.dev.hdg).nextTx = (bitsOf (s.dev.grf.hedge.getD c 0) 16 16 + 2) % 65536
            ∧ (conn c t.dev.hdg).nextRx = bitsOf (s.dev.grf.hedge.getD c 0) 0 16)
          ∧ (¬ (7 * m ≤ c ∧ c < 7 * m + 7) → conn c t.dev.hdg = conn c s.dev.hdg))

/-- TEST_PULSE_FRAME begins a new frame of pulses. A sample that agrees before and after the pulse gives the input's level; a pulse
not seen on its own input, or seen on another's, is noted, and in a second frame running locks both channels with fault 2 or 3. A
lasting discrepancy locks both with fault 1, a partner's low HLK with fault 8 without taking the unit's own low. The lock release
needs SAFE_ACK_N low for 500 to 3,000 ms at Hedge-P and 450 to 3,300 at Hedge-L, both edges and no lasting cause; each locked
channel whose time fits opens with holds blocked, and with both open the device leaves SAFE_LOCK; the HLKI check 20 ms later, and
the end of the block. -/
def Obligations.HedgeInputsAndRelease : Prop :=
  (∀ s : State, HedgeRuns s → exec .testPulseFrame s
    = .next (withHedge { s.dev.hdg with pulsePrev := s.dev.hdg.pulseNow, pulseNow := [] } s))
  ∧ (∀ (k : Fin 4) (n : Fin 16) (b d a : Bool) (s : State), HedgeRuns s →
    let own := n.val % 4 = k
    let odd := if own then b = true ∧ d = true ∧ a = true else b = true ∧ d = false ∧ a = true
    let key := if own then 5 * n.val else 5 * n + 1 + k
    Ends (.pulseCheckSample k n b d a) s fun t =>
      let g := s.dev.hdg
      let h := t.dev.hdg
      t = withHedge h s
        ∧ (∀ j, j < 16 → h.si.getLsbD j = (if j = n.val ∧ b = a then b else g.si.getLsbD j))
        ∧ (¬ odd → h = { g with si := h.si })
        ∧ (odd → tabGet 0 h.pulseNow key = 1)
        ∧ (odd → tabGet 0 g.pulsePrev key ≠ 1 → h = { g with si := h.si, pulseNow := h.pulseNow })
        ∧ (odd → tabGet 0 g.pulsePrev key = 1 → BothOpen g → h.siFault.getLsbD n = true
            ∧ Locked (if own then 2 else 3) n true true g h))
  ∧ (∀ (idx : Fin 64) (s : State), HedgeRuns s → BothOpen s.dev.hdg → Ends (.discrepancyTimeout idx) s fun t =>
      t = withHedge t.dev.hdg s ∧ Locked 1 idx true true s.dev.hdg t.dev.hdg)
  ∧ (∀ s : State, HedgeRuns s →
      (s.dev.hdg.relCheck = false → BothOpen s.dev.hdg → Ends .hlkiLow s fun t => t = withHedge t.dev.hdg s
        ∧ Locked 8 0 true true s.dev.hdg t.dev.hdg ∧ t.dev.hdg.propag = true)
      ∧ (s.dev.hdg.relCheck = true → Ends .hlkiLow s (HedgeBecomes { s.dev.hdg with hlkiP := false, hlkiL := false } s)))
  ∧ (∀ (p l : Nat) (both : Bool) (s : State), HedgeRuns s →
      let g := s.dev.hdg
      let okP := g.pState = .locked ∧ 500 ≤ p ∧ p ≤ 3000
      let okL := g.lState = .locked ∧ 450 ≤ l ∧ l ≤ 3300
      let may := (okP ∨ okL) ∧ both = true ∧ causePersists { g with ackN := true } = false
      (¬ may → exec (.safeAckNRise p l both) s = .next (withHedge { g with ackN := true } s))
      ∧ (may → s.dev.sys.st ≠ .safeLock → Ends (.safeAckNRise p l both) s fun t =>
          let h := t.dev.hdg
          t = withHedge h s ∧ h.blocked = true ∧ h.relCheck = true ∧ h.siFault = 0 ∧ OutputsRight h
            ∧ (okP → h.pState = .open_ ∧ h.hlkP = true) ∧ (¬ okP → h.pState = g.pState ∧ h.hlkP = g.hlkP)
            ∧ (okL → h.lState = .open_ ∧ h.hlkL = true) ∧ (¬ okL → h.lState = g.lState ∧ h.hlkL = g.hlkL))
      ∧ (may → okP ∨ g.pState = .open_ → okL ∨ g.lState = .open_ → s.dev.sys.st = .safeLock → s.dev.boot.dead = false →
        Ends (.safeAckNRise p l both) s fun t =>
          BothOpen t.dev.hdg ∧ t.dev.hdg.blocked = true ∧ t.dev.sys.st = .config))
  ∧ (∀ (p l : Bool) (s : State), HedgeRuns s →
      (s.dev.hdg.relCheck = false ∨ p = true ∨ l = true → Ends (.hlkiCheck p l) s
        (HedgeBecomes { s.dev.hdg with hlkiP := p, hlkiL := l, relCheck := false } s))
      ∧ (s.dev.hdg.relCheck = true → p = false → l = false → BothOpen s.dev.hdg → Ends (.hlkiCheck p l) s fun t =>
        t = withHedge t.dev.hdg s ∧ Locked 8 0 true true s.dev.hdg t.dev.hdg ∧ t.dev.hdg.relCheck = false))
  ∧ (∀ s : State, HasHedge s → Ends .holdsBlockedEnd s (HedgeBecomes { s.dev.hdg with blocked := false } s))

/-- BLACK_CHANNEL_SEND of a connection in use sends its next frame as an SFRAME message: frame type 1, its sequence number, and the
check value over the identifier and the words; the number goes up. A frame that fails a check of R466 changes nothing; a valid one
of a drive is taken and keeps the connection alive, and a drive's fault locks Hedge-P with fault 10. A connection that times out is
no longer alive and, where the unit runs and expects it, locks Hedge-P with fault 7. SFRAME hands a message of Hedge-P to the ring controller. -/
def Obligations.BlackChannel : Prop :=
  (∀ (c : Fin 64) (b : Bool) (s : State), HedgeRuns s → (c.val = 0 ∨ s.dev.hdg.hbRole = 0 ∨ s.dev.hdg.hbRole = 1) →
    let ch := connChannel c (begin_ s)
    SideIs 31 ch b s → queued b ch s = [] → Ends (.blackChannelSend c) s fun t =>
      (conn c t.dev.hdg).nextTx = ((conn c s.dev.hdg).nextTx + 1) % 65536 ∧ (conn c t.dev.hdg).nextRx = (conn c s.dev.hdg).nextRx
        ∧ (∀ k, k ≠ c.val → conn k t.dev.hdg = conn k s.dev.hdg)
        ∧ ∃ h ws f, queued b ch t = [h :: ws ++ [f]] ∧ bitsOf h 32 4 = 5 ∧ bitsOf h 26 6 = c ∧ h.getLsbD 25 = false
            ∧ bitsOf (ws.getD 0 0) 32 4 = 1 ∧ bitsOf (ws.getD 0 0) 16 16 = (conn c s.dev.hdg).nextTx % 65536
            ∧ bitsOf (ws.getD 0 0) 0 8 + 1 = ws.length
            ∧ f = BitVec.ofNat 36 (hCrc (0xC7000000 + 0x10000 * (s.dev.hdg.swP % 256) + 0x100 * c) ws))
  ∧ (∀ (c : Fin 64) (ws : List Word) (s : State),
    (¬ HedgeRuns s ∨ frameValid c ws s.dev.hdg = false → exec (.blackChannelFrame c ws) s = .next s)
    ∧ (HedgeRuns s → frameValid c ws s.dev.hdg = true → c.val ≠ 0 → s.dev.hdg.hbRole = 0 ∨ s.dev.hdg.hbRole = 1 →
      s.dev.hdg.test = none → Ends (.blackChannelFrame c ws) s fun t =>
        let x := conn c t.dev.hdg
        let d := ((ws.drop 1).take 2).map (fun v => bitsOf v 0 32)
        t = withHedge t.dev.hdg s ∧ x.alive = true ∧ x.seen = true ∧ x.data = d
          ∧ x.nextRx = (bitsOf (ws.getD 0 0) 16 16 + 1) % 65536 ∧ (∀ k, k ≠ c.val → conn k t.dev.hdg = conn k s.dev.hdg)
          ∧ ((d.getD 0 0).testBit 3 = false → t.dev.hdg.pState = s.dev.hdg.pState ∧ OutputsRight t.dev.hdg)
          ∧ ((d.getD 0 0).testBit 3 = true → s.dev.hdg.connMask.getLsbD c = true → s.dev.hdg.pState = .open_ →
              Locked 10 c true false s.dev.hdg t.dev.hdg)))
  ∧ (∀ (c : Fin 64) (s : State), HedgeRuns s → c.val ≠ 0 →
    let runs := s.dev.hdg.hbRole = 0 ∨ s.dev.hdg.hbRole = 1
    Ends (.connectionTimeout c) s fun t =>
      t = withHedge t.dev.hdg s ∧ conn c t.dev.hdg = { conn c s.dev.hdg with alive := false }
        ∧ (∀ k, k ≠ c.val → conn k t.dev.hdg = conn k s.dev.hdg)
        ∧ (s.dev.hdg.connMask.getLsbD c = false ∨ ¬ runs →
            t.dev.hdg.pState = s.dev.hdg.pState ∧ OutputsRight t.dev.hdg)
        ∧ (s.dev.hdg.connMask.getLsbD c = true → runs → s.dev.hdg.pState = .open_ →
            Locked 7 c true false s.dev.hdg t.dev.hdg))
  ∧ (∀ (ch : Fin 3) (b : Bool) (h : Word) (ws : List Word) (s : State), ch.val ≠ 0 →
    SideIs 31 (12 + ch) b s → SideIs (25 + ch) (12 + ch) (!b) s → queued b (12 + ch) s = [h :: ws] → bitsOf h 32 4 = 5 →
    h.getLsbD 25 = false → Ends (.sframe ch false) s fun t => queued b (12 + ch) t = []
      ∧ t.dev.hdg = { s.dev.hdg with fromHedge := s.dev.hdg.fromHedge ++ [(decide (ch.val = 2), bitsOf h 26 6, ws)] })

/-- A brake test: BTEST applies the brake named; 100 ms in, the position is taken and torque asked for, which BT_STEP puts on the
enabled axis; a held brake passes, is no longer due, and asks the torque back; one without a valid frame fails with fault 4; after
its end the brake may be released. A brake becomes due by its interval and locks Hedge-P, or Hedge-L by its own timer, with fault 5
when overdue. The status window shows the island's words as they are, a lock it first shows is logged, and one shown in BOOT,
where no sync point comes, leads to SAFE_LOCK at once (the model's choice, log 94). -/
def Obligations.BrakeTestsAndWindow : Prop :=
  (∀ (b : Bool) (w p : Word) (s : State), HedgeRuns s → Channel15 b s → queued (!b) 15 s = [[w, p]] → bitsOf w 32 4 = 2 →
    p.getLsbD 8 = false → s.dev.hdg.test = none → Ends .btest s fun t =>
      let k := bitsOf p 0 3
      t.dev.hdg.test = some { remote := false, idx := k, conn := k + 1 } ∧ queued (!b) 15 t = []
        ∧ t.dev.hdg.brkP.getLsbD k = false ∧ OutputsRight t.dev.hdg ∧ t.dev.sys = s.dev.sys)
  ∧ (∀ (b : Bool) (w v : Word) (c : CmdRef) (a : Nat) (s : State), live s = true → Channel15 b s →
    queued b 15 s = [[w, v]] → bitsOf w 32 4 = 3 → s.dev.hdg.btCmd = some (c, a) → v = 1 ∨ v = 2 → Ends .btStep s fun t =>
      queued b 15 t = [] ∧ t.dev.hdg = s.dev.hdg ∧ (∀ k, k ≠ a → servo k t = servo k s)
        ∧ (v = 1 → (servo a s).enabled = true → servo a t = { servo a s with
            bt := some { tq := fOfWord (tabGet 0 (tabGet {} s.dev.pln.axes a : PlnAxis).params 0x120) } })
        ∧ (v = 2 → servo a t = { servo a s with bt := (servo a s).bt.map (fun r => { r with down := true }) }))
  ∧ (∀ (b : Bool) (x : BTest) (s : State), HedgeRuns s → Channel15 b s → queued b 15 s = [] → s.dev.hdg.test = some x →
    (x.phase = 0 → Ends .engageTimeEnd s fun t => queued b 15 t = [[BitVec.ofNat 36 (3 * 2 ^ 32), 1]]
        ∧ t.dev.hdg = { s.dev.hdg with
            test := some { x with phase := 1, pRef := (conn x.conn s.dev.hdg).data.getD 1 0 } })
    ∧ (x.phase = 1 → x.got = true → x.remote = false → Ends .holdWindowEnd s fun t =>
        queued b 15 t = [[BitVec.ofNat 36 (3 * 2 ^ 32), 2]] ∧ t.dev.hdg.test = some { x with phase := 2 }
          ∧ t.dev.hdg.pass = some x.idx ∧ t.dev.hdg.pState = s.dev.hdg.pState
          ∧ (x.idx < 8 → t.dev.hdg.due.getLsbD x.idx = false ∧ t.dev.hdg.passed.getLsbD x.idx = true))
    ∧ (x.phase = 1 → x.got = false → s.dev.hdg.pState = .open_ → Ends .holdWindowEnd s fun t =>
        Locked 4 x.idx true false s.dev.hdg t.dev.hdg ∧ t.dev.hdg.test = none)
    ∧ (x.phase = 2 → s.dev.hdg.btCmd = none → Ends .brakeTestEnd s (HedgeBecomes { s.dev.hdg with test := none } s))
    ∧ (x.phase ≠ 0 → exec .engageTimeEnd s = .next s) ∧ (x.phase ≠ 1 → exec .holdWindowEnd s = .next s)
    ∧ (x.phase ≠ 2 → exec .brakeTestEnd s = .next s))
  ∧ (∀ (k : Fin 64) (s : State), HedgeRuns s →
    (k.val < pairsOf s.dev.hdg.swP → Ends (.brakeDue false k) s fun t => t = withHedge { s.dev.hdg with due := t.dev.hdg.due } s
        ∧ ∀ j, j < 8 → t.dev.hdg.due.getLsbD j = (decide (j = k.val) || s.dev.hdg.due.getLsbD j))
    ∧ (pairsOf s.dev.hdg.swP ≤ k.val → exec (.brakeDue false k) s = .next s ∧ exec (.brakeOverdue false k) s = .next s)
    ∧ (k.val < pairsOf s.dev.hdg.swP → s.dev.hdg.due.getLsbD k = true → s.dev.hdg.pState = .open_ →
      Ends (.brakeOverdue false k) s fun t => t = withHedge t.dev.hdg s ∧ Locked 5 k true false s.dev.hdg t.dev.hdg)
    ∧ (k.val < 8 → s.dev.hdg.due.getLsbD k = false → exec (.brakeOverdue false k) s = .next s))
  ∧ (∀ (k : Fin 8) (s : State), HedgeRuns s →
    (pairsOf s.dev.hdg.swL ≤ k.val → exec (.hedgeLOverdue k) s = .next s)
    ∧ (k.val < pairsOf s.dev.hdg.swL → s.dev.hdg.lState = .open_ → Ends (.hedgeLOverdue k) s fun t =>
      t = withHedge t.dev.hdg s ∧ Locked 5 k false true s.dev.hdg t.dev.hdg ∧ t.dev.hdg.lOverdue.getLsbD k = true))
  ∧ (∀ s : State, HedgeRuns s →
    (fromConfig s.dev.sys.st = false → s.dev.sys.st ≠ .boot → exec .statusWindowRefresh s
      = .next (withHedge (WindowShown s.dev.hdg) s))
    ∧ (s.dev.sys.st = .boot → s.dev.boot.start = .done → s.dev.boot.dead = false → s.dev.sys.cycOn = false →
      s.dev.hdg.pState = .locked → Ends .statusWindowRefresh s fun t =>
        t.dev.hdg.win = hedgeWindow s.dev.hdg ∧ t.dev.sys.st = .safeLock ∧ t.dev.sys.prev = .boot)
    ∧ (fromConfig s.dev.sys.st = true → s.dev.boot.dead = false → s.dev.sys.cycOn = true → s.dev.hdg.due = 0 →
      (∀ c, c < 64 → (conn c s.dev.hdg).due = false) →
      s.dev.hdg.pState = .locked → bitsOf (s.dev.hdg.win.getD 0 0) 0 2 ≠ 2 → bitsOf (s.dev.hdg.win.getD 0 0) 2 2 ≠ 2 →
      Ends .statusWindowRefresh s fun t => t.dev.hdg = WindowShown s.dev.hdg
        ∧ bitsOf (t.dev.hdg.win.getD 0 0) 0 2 = 2
        ∧ (logReady s → EventLogged 17 0 1 (s.dev.hdg.fcode % 256) s t)))

/-! Reads that clear and reads that latch, the dispatcher, and the sync point: where they complete and what they leave
(spec/20 R611, spec/21 R612 and R620, spec/12 R404 and R406, spec/01 R14, spec/02 R42 and R50). -/

namespace Sys2Proof.Claims

/-- The reader of a register gets its word, and the device is as given. -/
def readsAs (mid a : Nat) (d : Dev) (s : State) : State :=
  withDev s { d with out := s.dev.out ++ [.readData [regWord mid a (begin_ s)]] }

/-- A read that clears is made by a running device of a register it has. -/
def Readable (a : Nat) (s : State) : Prop := live s = true ∧ regAbsent a (begin_ s) = false

/-- The address of a ring's registers. -/
def ringRegs (b : Bool) : Nat := if b then 0xD8000 else 0xD0000

/-- No change of the phase source or the rate is on its way. -/
def SourceStays (s : State) : Prop :=
  let f := s.dev.phase
  f.srcNext = none ∧ f.cpmNext = none ∧ f.oldSrc = none ∧ f.sampled = true ∧ f.vmNext = none ∧ f.vmDirect = []
    ∧ f.rateNext = none

/-- Core c takes no job: it is parked, or no level has one given to it. -/
def NoJob (c : Nat) (s : State) : Prop :=
  s.dev.tdu.awake.getLsbD c = false
    ∨ ∀ n v, n < 8 → s.dev.tdu.levels[n]? = some v → ∀ x ∈ v, ¬ givenTo c x s

/-- Core c takes the oldest job given to it at the highest level that has one; the others stay. -/
def JobTaken (c : Nat) (s t : State) : Prop :=
  ∃ n l r j, n < 8 ∧ s.dev.tdu.awake.getLsbD c = true ∧ s.dev.tdu.levels[n]? = some (l ++ j :: r) ∧ givenTo c j s
    ∧ (∀ x ∈ l, ¬ givenTo c x s)
    ∧ (∀ m v, n < m → m < 8 → s.dev.tdu.levels[m]? = some v → ∀ x ∈ v, ¬ givenTo c x s)
    ∧ t.dev.tdu.levels = s.dev.tdu.levels.set n (l ++ r) ∧ t.dev.tdu.peaks = s.dev.tdu.peaks
    ∧ t = withDev s { s.dev with tdu := t.dev.tdu }

end Sys2Proof.Claims

/-- LATCHING_READ, RC_READ, TDU_DISPATCH and SYNC_POINT complete. A read of PTM_FRCL, PTM_NOWL or PTM_SNCC gives the word and
latches the high words of the instant for its reader alone. A read of each register that clears gives its word and leaves the
peak, count or flag at 0; one of an absent unit clears nothing. A core takes the oldest job of the highest level given to it, or
stays idle. A sync point leaves the registers of R383, R445 and R504 and BP as the present state has them, and on a device with
nothing to move it counts a cycle and advances the virtual master, whatever the phase source. -/
def Obligations.ReadsDispatchAndSyncComplete : Prop :=
  (∀ (mid : Fin 32) (k : Fin 3) (s : State), live s = true → Ends (.latchingRead mid k) s fun t =>
     let p := s.dev.ptm
     let old : PtmLatch := tabGet {} p.latch mid
     let new : PtmLatch := tabGet {} t.dev.ptm.latch mid
     (∀ m, m ≠ mid.val → tabGet {} t.dev.ptm.latch m = tabGet {} p.latch m)
       ∧ { t.dev.ptm with latch := p.latch } = p ∧ t.mem = s.mem
       ∧ (k.val = 0 → new = { old with frch := BitVec.ofNat 36 (p.frc.toNat / 2 ^ 36) }
         ∧ t.dev.out = s.dev.out ++ [.readData [BitVec.ofNat 36 p.frc.toNat]])
       ∧ (k.val = 1 → new = { old with nowh := BitVec.ofNat 36 ((plantTime p p.frc).toNat / 2 ^ 36) }
         ∧ t.dev.out = s.dev.out ++ [.readData [BitVec.ofNat 36 (plantTime p p.frc).toNat]])
       ∧ (k.val = 2 → new = { old with sptl := BitVec.ofNat 36 p.spt.toNat, spth := BitVec.ofNat 36 (p.spt.toNat / 2 ^ 36) }
         ∧ t.dev.out = s.dev.out ++ [.readData [p.sncc]]))
  ∧ ((∀ (mid : Fin 32) (a : Nat) (s : State), live s = true → rcReg a = true → regAbsent a (begin_ s) = true →
       (a < 0xF8200 ∨ 0xF8220 ≤ a) → exec (.rcRead mid a) s = .next (readsAs mid a s.dev s))
     ∧ (∀ (mid : Fin 32) (n : Nat) (s : State),
       (n < 16 → Readable (0x40101 + 16 * n) s → exec (.rcRead mid (0x40101 + 16 * n)) s
         = .next (readsAs mid (0x40101 + 16 * n) { s.dev with ce := { s.dev.ce with
             engines := tabSet {} s.dev.ce.engines n { tabGet {} s.dev.ce.engines n with peak := 0 } } } s))
       ∧ (n < 4 → Readable (0x60004 + 0x10000 * n) s → exec (.rcRead mid (0x60004 + 0x10000 * n)) s
         = .next (readsAs mid (0x60004 + 0x10000 * n) { s.dev with
             fd := tabSet {} s.dev.fd n { unitOf n s with pAxis := 0, pTap := 0, pTj := 0 } } s))
       ∧ (n < 4 → Readable (0x60006 + 0x10000 * n) s → exec (.rcRead mid (0x60006 + 0x10000 * n)) s
         = .next (readsAs mid (0x60006 + 0x10000 * n) { s.dev with
             fd := tabSet {} s.dev.fd n { unitOf n s with waitMax := 0 } } s))
       ∧ (n < 1032 → Readable (0xB1001 + 2 * n) s → Ends (.rcRead mid (0xB1001 + 2 * n)) s fun t =>
           let x : StpAxis := tabGet {} s.dev.stp.axes n
           tabGet {} t.dev.stp.axes n = { x with
             devPeak := if x.devPeak = bitsOf x.devShown 16 16 then 0 else x.devPeak
             devShown := BitVec.ofNat 36 (bitsOf x.devShown 0 16) })
       ∧ (n < 8 → live s = true → exec (.rcRead mid (0xC000A + 16 * n)) s
         = .next (readsAs mid (0xC000A + 16 * n) (withPort n { port n s with idxNew := false } s).dev s))
       ∧ (n < 8 → live s = true → exec (.rcRead mid (0xC000B + 16 * n)) s
         = .next (readsAs mid (0xC000B + 16 * n) (withPort n { port n s with qill := 0 } s).dev s))
       ∧ (∀ b : Bool, n < 16 → Readable (0x28004 + 32 * n) s → SideIs mid n b s →
           Ends (.rcRead mid (0x28004 + 32 * n)) s fun t => (sideRec b (channel n t)).slost = 0
             ∧ ∀ c, c ≠ n → channel c t = channel c s))
     ∧ (∀ (mid : Fin 32) (b p1 : Bool) (s : State), Readable (ringRegs b + 0x101 + (if p1 then 0x10 else 0)) s →
         Ends (.rcRead mid (ringRegs b + 0x101 + (if p1 then 0x10 else 0))) s fun t =>
           portOf p1 (ring b t) = { portOf p1 (ring b s) with rcrc := 0 }
             ∧ portOf (!p1) (ring b t) = portOf (!p1) (ring b s) ∧ ring (!b) t = ring (!b) s)
     ∧ (∀ (mid : Fin 32) (s : State), live s = true →
         exec (.rcRead mid 0xB0002) s
           = .next (readsAs mid 0xB0002 { s.dev with stp := { s.dev.stp with phPeak := 0, genPeak := 0 } } s)
         ∧ (Readable 0xE8004 s → exec (.rcRead mid 0xE8004) s
           = .next (readsAs mid 0xE8004 { s.dev with grf := { s.dev.grf with miss := 0 } } s))
         ∧ (Readable 0xE8005 s → exec (.rcRead mid 0xE8005) s
           = .next (readsAs mid 0xE8005 { s.dev with grf := { s.dev.grf with sizePeak := 0 } } s))))
  ∧ (∀ (c : Fin 4) (s : State), live s = true → Ends (.tduDispatch c) s fun t =>
       NoJob c s ∧ t = s ∨ JobTaken c s t)
  ∧ ((∀ s : State, live s = true → s.dev.sys.cycOn = true → Ends .syncPoint s fun t =>
       t.dev.dqShown = t.dev.dq ∧ t.dev.trl.shownStat = trlStatWord (begin_ t)
         ∧ t.dev.trl.shownModes = (List.range 8).map (fun m => trlModeWord m (begin_ t))
         ∧ t.dev.hvs.shownStat = hvsStatWord (begin_ t) ∧ t.dev.grf.shownLast = t.dev.grf.last
         ∧ t.dev.grf.shownPstat = grfPstatWord (begin_ t) ∧ ∀ q, q < 5 → (queue q t).bp = bpNow q (begin_ t))
     ∧ (∀ s : State, live s = true → s.dev.sys.cycOn = true → AtRest s → SourceStays s → Ends .syncPoint s fun t =>
         t.dev.phase.ncc = s.dev.phase.ncc + 1
           ∧ t.dev.phase.vm = s.dev.phase.vm + BitVec.ofInt 36 (s.dev.phase.vmInForce.toInt * rateUnits s.dev.sys.rate)
           ∧ (s.dev.phase.src.kind = 0 → t.dev.phase.mph = t.dev.phase.vm) ∧ t.dev.phase.src = s.dev.phase.src
           ∧ t.dev.phase.frcSync = s.dev.ptm.frc ∧ t.dev.ptm.sncc = s.dev.phase.ncc + 1 ∧ t.dev.sys = s.dev.sys
           ∧ SameMemory s t))
end

