-- ==== Sys2Proof/Laws/Tab.lean ====
section
/-! SUPPORT. The laws of sparse tables: reading what was set, leaving other keys alone, and keeping the canonical form. -/

namespace Sys2Proof.Machine

variable {α : Type}

/-- Without the entries of a key, that key reads the default and the others read as before. -/
theorem tabGet_filter_ne (d : α) (j i : Nat) : ∀ t : Tab α,
    tabGet d (t.filter (fun kv => kv.1 != j)) i = if i = j then d else tabGet d t i
  | [] => by simp [tabGet]
  | (k, v) :: t => by
    have ih := tabGet_filter_ne d j i t
    rw [List.filter_cons]
    by_cases hk : k = j
    · subst hk
      by_cases hi : i = k
      · subst hi; simp only [bne_self_eq_false, Bool.false_eq_true, if_false, ih, if_true]
      · simp only [bne_self_eq_false, Bool.false_eq_true, if_false, ih, hi, tabGet]
    · have hb : (k != j) = true := by simp [hk]
      simp only [hb, if_true, tabGet, ih]
      by_cases hi : i = k
      · subst hi; simp [hk]
      · simp only [hi, if_false]

/-- An entry put into the table: its key reads it, the others read as before. -/
theorem tabGet_tabIns (d : α) (j i : Nat) (x : α) : ∀ t : Tab α,
    tabGet d (tabIns t j x) i = if i = j then x else tabGet d t i
  | [] => by simp [tabIns, tabGet]
  | (k, v) :: t => by
    have ih := tabGet_tabIns d j i x t
    unfold tabIns
    by_cases h1 : j < k
    · simp only [h1, if_true, tabGet]
    · by_cases h2 : j = k
      · subst h2
        simp only [h1, if_false, if_true, tabGet]
        by_cases hi : i = j <;> simp [hi]
      · simp only [h1, h2, if_false, tabGet, ih]
        by_cases hi : i = k
        · subst hi; simp [Ne.symm h2]
        · simp only [hi, if_false]

/-- Reading a table after one entry was set. -/
theorem tabGet_tabSet [DecidableEq α] (d : α) (t : Tab α) (j i : Nat) (x : α) :
    tabGet d (tabSet d t j x) i = if i = j then x else tabGet d t i := by
  unfold tabSet
  by_cases hx : x = d
  · simp only [hx, if_true, tabGet_filter_ne]
  · simp only [hx, if_false, tabGet_tabIns]

/-- The entry just set is read back. -/
@[simp] theorem tabGet_tabSet_same [DecidableEq α] (d : α) (t : Tab α) (j : Nat) (x : α) :
    tabGet d (tabSet d t j x) j = x := by rw [tabGet_tabSet, if_pos rfl]

/-- Setting one entry leaves every other key alone. -/
theorem tabGet_tabSet_other [DecidableEq α] (d : α) (t : Tab α) (j i : Nat) (x : α) (h : i ≠ j) :
    tabGet d (tabSet d t j x) i = tabGet d t i := by rw [tabGet_tabSet, if_neg h]

/-- A partial clear: kept keys read as before, the others read the default. -/
theorem tabGet_tabKeep (d : α) (p : Nat → Bool) (j : Nat) : ∀ t : Tab α,
    tabGet d (tabKeep p t) j = if p j then tabGet d t j else d
  | [] => by simp [tabKeep, tabGet]
  | (k, v) :: t => by
    have ih := tabGet_tabKeep d p j t
    unfold tabKeep at ih ⊢
    rw [List.filter_cons]
    by_cases hp : p k = true
    · simp only [hp, if_true, tabGet, ih]
      by_cases h1 : j = k
      · subst h1; simp [hp]
      · simp only [h1, if_false]
    · simp only [hp, tabGet]
      by_cases h1 : j = k
      · subst h1; rw [if_neg (by simp), ih]; simp [hp]
      · rw [if_neg (by simp), ih]; simp only [h1, if_false]

/-- A table in canonical form from a bound is so from every lower bound. -/
theorem tabWfFrom_mono [DecidableEq α] (d : α) : ∀ (t : Tab α) (lo lo' : Nat), lo' ≤ lo → tabWfFrom d lo t = true →
    tabWfFrom d lo' t = true
  | [], _, _, _, _ => rfl
  | (k, v) :: t, lo, lo', hle, h => by
    simp only [tabWfFrom, Bool.and_eq_true, decide_eq_true_eq] at h ⊢
    exact ⟨⟨by omega, h.1.2⟩, h.2⟩

/-- Taking entries out keeps the canonical form. -/
theorem tabWfFrom_filter [DecidableEq α] (d : α) (p : Nat × α → Bool) : ∀ (t : Tab α) (lo : Nat),
    tabWfFrom d lo t = true → tabWfFrom d lo (t.filter p) = true
  | [], _, _ => rfl
  | (k, v) :: t, lo, h => by
    simp only [tabWfFrom, Bool.and_eq_true, decide_eq_true_eq] at h
    have ih := tabWfFrom_filter d p t (k + 1) h.2
    rw [List.filter_cons]
    split
    · simp only [tabWfFrom, Bool.and_eq_true, decide_eq_true_eq]
      exact ⟨h.1, ih⟩
    · exact tabWfFrom_mono d _ (k + 1) lo (by omega) ih

/-- Putting in an entry other than the default keeps the canonical form. -/
theorem tabWfFrom_tabIns [DecidableEq α] (d : α) : ∀ (t : Tab α) (lo j : Nat) (x : α), tabWfFrom d lo t = true →
    lo ≤ j → x ≠ d → tabWfFrom d lo (tabIns t j x) = true
  | [], lo, j, x, _, hj, hx => by simp [tabIns, tabWfFrom, hj, hx]
  | (k, v) :: t, lo, j, x, h, hj, hx => by
    simp only [tabWfFrom, Bool.and_eq_true, decide_eq_true_eq, bne_iff_ne] at h
    unfold tabIns
    split
    · simp only [tabWfFrom, Bool.and_eq_true, decide_eq_true_eq, bne_iff_ne]
      exact ⟨⟨hj, hx⟩, ⟨by omega, h.1.2⟩, h.2⟩
    · split
      · next hk =>
        subst hk
        simp only [tabWfFrom, Bool.and_eq_true, decide_eq_true_eq, bne_iff_ne]
        exact ⟨⟨hj, hx⟩, h.2⟩
      · simp only [tabWfFrom, Bool.and_eq_true, decide_eq_true_eq, bne_iff_ne]
        exact ⟨h.1, tabWfFrom_tabIns d t (k + 1) j x h.2 (by omega) hx⟩

/-- Setting an entry keeps the canonical form. -/
theorem tabWfFrom_tabSet [DecidableEq α] (d : α) (t : Tab α) (lo j : Nat) (x : α) (h : tabWfFrom d lo t = true)
    (hj : lo ≤ j) : tabWfFrom d lo (tabSet d t j x) = true := by
  unfold tabSet
  split
  · exact tabWfFrom_filter d _ t lo h
  · next hx => exact tabWfFrom_tabIns d t lo j x h hj hx

/-- A partial clear keeps the canonical form. -/
theorem tabWfFrom_tabKeep [DecidableEq α] (d : α) (p : Nat → Bool) (t : Tab α) (lo : Nat)
    (h : tabWfFrom d lo t = true) : tabWfFrom d lo (tabKeep p t) = true := tabWfFrom_filter d _ t lo h

/-- A property of the keys that putting in an allowed key keeps. -/
theorem tabIns_keys (p : Nat → Bool) : ∀ (t : Tab α) (j : Nat) (x : α), t.all (fun kv => p kv.1) = true →
    p j = true → (tabIns t j x).all (fun kv => p kv.1) = true
  | [], j, x, _, hj => by simp [tabIns, hj]
  | (k, v) :: t, j, x, h, hj => by
    have h0 := h
    simp only [List.all_cons, Bool.and_eq_true] at h
    unfold tabIns
    split
    · rw [List.all_cons, hj, h0]; rfl
    · split
      · rw [List.all_cons, hj, h.2]; rfl
      · rw [List.all_cons, h.1, tabIns_keys p t j x h.2 hj]; rfl

/-- A property of the keys that taking entries out keeps. -/
theorem filter_keys (p : Nat → Bool) (q : Nat × α → Bool) (t : Tab α) (h : t.all (fun kv => p kv.1) = true) :
    (t.filter q).all (fun kv => p kv.1) = true := by
  rw [List.all_eq_true] at h ⊢
  intro x hx
  exact h x (List.mem_of_mem_filter hx)

/-- A property of the keys that setting an allowed key keeps. -/
theorem tabSet_keys [DecidableEq α] (d : α) (p : Nat → Bool) (t : Tab α) (j : Nat) (x : α)
    (h : t.all (fun kv => p kv.1) = true) (hj : p j = true) : (tabSet d t j x).all (fun kv => p kv.1) = true := by
  unfold tabSet
  split
  · exact filter_keys p _ t h
  · exact tabIns_keys p t j x h hj

end Sys2Proof.Machine
end

