-- ==== Sys2Proof/Laws/Memory.lean ====
section
/-! SUPPORT. The laws of the bank memory: every effect keeps the canonical form, and what a word reads as afterwards. -/

namespace Sys2Proof.Machine

/-- One effect keeps the canonical form. -/
theorem memDo_wf (m : Mem) (o : MemOp) (h : memWf m = true) : memWf (memDo m o) = true := by
  simp only [memWf, tabWf, Bool.and_eq_true] at h ⊢
  cases o with
  | word a v =>
    simp only [memDo, memWrite]
    split
    · next ha => exact ⟨tabWfFrom_tabSet _ m 0 a v h.1 (Nat.zero_le a), tabSet_keys _ isBank m a v h.2 ha⟩
    · exact h
  | clear banks lo n =>
    simp only [memDo, memClear]
    exact ⟨tabWfFrom_tabKeep _ _ m 0 h.1, filter_keys isBank _ m h.2⟩

/-- Every list of effects keeps the canonical form. -/
theorem memApply_wf (m : Mem) (ops : List MemOp) (h : memWf m = true) : memWf (memApply m ops) = true := by
  induction ops with
  | nil => exact h
  | cons o r ih => exact memDo_wf _ o ih

/-- What a word reads as after one word was written. -/
theorem memRead_memWrite (m : Mem) (b : Nat) (v : Word) (a : Nat) :
    memRead (memWrite m b v) a = if a = b ∧ isBank b = true then v else memRead m a := by
  unfold memWrite memRead
  by_cases hb : isBank b = true
  · rw [if_pos hb, tabGet_tabSet]
    by_cases hab : a = b
    · rw [if_pos hab, if_pos ⟨hab, hb⟩]
    · rw [if_neg hab, if_neg (fun x => hab x.1)]
  · rw [if_neg hb, if_neg (fun x => hb x.2)]

/-- What a word reads as after a clear. -/
theorem memRead_memClear (m : Mem) (banks : BitVec 32) (lo n a : Nat) :
    memRead (memClear m banks lo n) a = if clearHits banks lo n a = true then 0 else memRead m a := by
  unfold memClear memRead
  rw [tabGet_tabKeep]
  by_cases hc : clearHits banks lo n a = true <;> simp [hc]

/-- What a word reads as after a command's effects is what the command itself would read. -/
theorem memRead_memApply (m : Mem) (ops : List MemOp) (a : Nat) : memRead (memApply m ops) a = opsRead m a ops := by
  induction ops with
  | nil => rfl
  | cons o r ih =>
    show memRead (memDo (memApply m r) o) a = _
    cases o with
    | word b v =>
      simp only [memDo, memRead_memWrite, opsRead, ih]
      by_cases hab : a = b <;> by_cases hb : isBank b = true <;> simp [hab, hb]
    | clear banks lo n => simp only [memDo, memRead_memClear, opsRead, ih]

end Sys2Proof.Machine
end

