-- ==== Sys2Proof/Laws/Run.lean ====
section
/-! SUPPORT. What running a meaning can do: it always answers a next state, never touches the variant or the queue, and
changes the bank memory by effects alone. -/

namespace Sys2Proof.Machine

@[simp] theorem commit_variant (s : State) (w : Work) : (commit s w).variant = s.variant := rfl
@[simp] theorem commit_pending (s : State) (w : Work) : (commit s w).pending = s.pending := rfl
@[simp] theorem commit_dev (s : State) (w : Work) : (commit s w).dev = w.d := rfl
@[simp] theorem commit_mem (s : State) (w : Work) : (commit s w).mem = memApply s.mem w.ops := rfl
@[simp] theorem begin_variant (s : State) : (begin_ s).variant = s.variant := rfl
@[simp] theorem begin_base (s : State) : (begin_ s).base = s.mem := rfl
@[simp] theorem begin_ops (s : State) : (begin_ s).ops = [] := rfl
@[simp] theorem begin_d (s : State) : (begin_ s).d = s.dev := rfl

/-- A command that changes nothing leaves the state as it is. -/
@[simp] theorem commit_begin (s : State) : commit s (begin_ s) = s := rfl

/-- A command that changes units only. -/
theorem commit_units (s : State) (d : Dev) : commit s { begin_ s with d := d } = { s with dev := d } := rfl

/-- A meaning of the main device on a running device. -/
@[simp] theorem run_live (f : Work → Work) (s : State) (h : live s = true) : run f s = .next (commit s (f (begin_ s))) := by
  simp [run, runAny, h]

/-- A meaning of the main device on one that does not run. -/
@[simp] theorem run_not_live (f : Work → Work) (s : State) (h : live s = false) : run f s = .next s := by simp [run, h]

/-- The shape of an answer: a next state that a command reaches from the state. -/
def Shape (s : State) (o : Host.Outcome State Fault Refusal) : Prop := o = .next s ∨ ∃ w : Work, o = .next (commit s w)

theorem runAny_shape (f : Work → Work) (s : State) : Shape s (runAny f s) := .inr ⟨f (begin_ s), rfl⟩

theorem run_shape (f : Work → Work) (s : State) : Shape s (run f s) := by
  by_cases h : live s = true
  · exact .inr ⟨f (begin_ s), run_live f s h⟩
  · exact .inl (run_not_live f s (by simpa using h))

theorem packet_shape (op : Nat) (h : PktHead) (ps : List Word) (s : State) : Shape s (packet op h ps s) := run_shape _ s

/-- Whatever a command does, it answers a next state that it reaches from the state by `commit`. -/
theorem exec_shape (c : Instr) (s : State) : Shape s (exec c s) := by
  cases c
  case bankClearDone g =>
    by_cases h : s.dev.boot.dead = true
    · left; simp [exec, execBankClearDone, h]
    · right; exact ⟨bankClearDone g.val (begin_ s), by simp [exec, execBankClearDone, h, runAny]⟩
  case pcieConfigRequest r => exact .inr ⟨_, rfl⟩
  case linkTrained g w => exact .inr ⟨_, rfl⟩
  case tapInstruction ir => exact .inr ⟨_, rfl⟩
  all_goals first | exact run_shape _ s | exact runAny_shape _ s

end Sys2Proof.Machine
end

