-- ==== Sys2Proof/Laws/State.lean ====
section
/-! SUPPORT. What each record update of the working copy leaves: one lemma for each part, true by computation, so that no
proof unfolds an update. -/

namespace Sys2Proof.Machine

@[simp] theorem setQ_variant (q : Nat) (x : Queue) (w : Work) : (setQ q x w).variant = w.variant := rfl
@[simp] theorem setQ_base (q : Nat) (x : Queue) (w : Work) : (setQ q x w).base = w.base := rfl
@[simp] theorem setQ_ops (q : Nat) (x : Queue) (w : Work) : (setQ q x w).ops = w.ops := rfl
@[simp] theorem setQ_d_sys (q : Nat) (x : Queue) (w : Work) : (setQ q x w).d.sys = w.d.sys := rfl
@[simp] theorem setQ_d_phase (q : Nat) (x : Queue) (w : Work) : (setQ q x w).d.phase = w.d.phase := rfl
@[simp] theorem setQ_d_pln (q : Nat) (x : Queue) (w : Work) : (setQ q x w).d.pln = w.d.pln := rfl
@[simp] theorem setQ_d_ce (q : Nat) (x : Queue) (w : Work) : (setQ q x w).d.ce = w.d.ce := rfl
@[simp] theorem setQ_d_fd (q : Nat) (x : Queue) (w : Work) : (setQ q x w).d.fd = w.d.fd := rfl
@[simp] theorem setQ_d_stp (q : Nat) (x : Queue) (w : Work) : (setQ q x w).d.stp = w.d.stp := rfl
@[simp] theorem setQ_d_fp (q : Nat) (x : Queue) (w : Work) : (setQ q x w).d.fp = w.d.fp := rfl
@[simp] theorem setQ_d_dq (q : Nat) (x : Queue) (w : Work) : (setQ q x w).d.dq = w.d.dq := rfl
@[simp] theorem setQ_d_dqShown (q : Nat) (x : Queue) (w : Work) : (setQ q x w).d.dqShown = w.d.dqShown := rfl
@[simp] theorem setQ_d_trl (q : Nat) (x : Queue) (w : Work) : (setQ q x w).d.trl = w.d.trl := rfl
@[simp] theorem setQ_d_egv (q : Nat) (x : Queue) (w : Work) : (setQ q x w).d.egv = w.d.egv := rfl
@[simp] theorem setQ_d_therm (q : Nat) (x : Queue) (w : Work) : (setQ q x w).d.therm = w.d.therm := rfl
@[simp] theorem setQ_d_tdu (q : Nat) (x : Queue) (w : Work) : (setQ q x w).d.tdu = w.d.tdu := rfl
@[simp] theorem setQ_d_grf (q : Nat) (x : Queue) (w : Work) : (setQ q x w).d.grf = w.d.grf := rfl
@[simp] theorem setQ_d_hdg (q : Nat) (x : Queue) (w : Work) : (setQ q x w).d.hdg = w.d.hdg := rfl
@[simp] theorem setQ_d_hvs (q : Nat) (x : Queue) (w : Work) : (setQ q x w).d.hvs = w.d.hvs := rfl
@[simp] theorem setQ_d_mem (q : Nat) (x : Queue) (w : Work) : (setQ q x w).d.mem = w.d.mem := rfl
@[simp] theorem setQ_d_mbx (q : Nat) (x : Queue) (w : Work) : (setQ q x w).d.mbx = w.d.mbx := rfl
@[simp] theorem setQ_d_boot (q : Nat) (x : Queue) (w : Work) : (setQ q x w).d.boot = w.d.boot := rfl
@[simp] theorem setQ_d_flash (q : Nat) (x : Queue) (w : Work) : (setQ q x w).d.flash = w.d.flash := rfl
@[simp] theorem setQ_d_age (q : Nat) (x : Queue) (w : Work) : (setQ q x w).d.age = w.d.age := rfl
@[simp] theorem setQ_d_hif (q : Nat) (x : Queue) (w : Work) : (setQ q x w).d.hif = w.d.hif := rfl
@[simp] theorem setQ_d_ptm (q : Nat) (x : Queue) (w : Work) : (setQ q x w).d.ptm = w.d.ptm := rfl
@[simp] theorem setQ_d_out (q : Nat) (x : Queue) (w : Work) : (setQ q x w).d.out = w.d.out := rfl
@[simp] theorem setQ_d_freeCtr (q : Nat) (x : Queue) (w : Work) : (setQ q x w).d.freeCtr = w.d.freeCtr := rfl

@[simp] theorem setCe_variant (a : Nat) (x : CeAxis) (w : Work) : (setCe a x w).variant = w.variant := rfl
@[simp] theorem setCe_base (a : Nat) (x : CeAxis) (w : Work) : (setCe a x w).base = w.base := rfl
@[simp] theorem setCe_ops (a : Nat) (x : CeAxis) (w : Work) : (setCe a x w).ops = w.ops := rfl
@[simp] theorem setCe_d_sys (a : Nat) (x : CeAxis) (w : Work) : (setCe a x w).d.sys = w.d.sys := rfl
@[simp] theorem setCe_d_phase (a : Nat) (x : CeAxis) (w : Work) : (setCe a x w).d.phase = w.d.phase := rfl
@[simp] theorem setCe_d_cmd (a : Nat) (x : CeAxis) (w : Work) : (setCe a x w).d.cmd = w.d.cmd := rfl
@[simp] theorem setCe_d_pln (a : Nat) (x : CeAxis) (w : Work) : (setCe a x w).d.pln = w.d.pln := rfl
@[simp] theorem setCe_d_fd (a : Nat) (x : CeAxis) (w : Work) : (setCe a x w).d.fd = w.d.fd := rfl
@[simp] theorem setCe_d_stp (a : Nat) (x : CeAxis) (w : Work) : (setCe a x w).d.stp = w.d.stp := rfl
@[simp] theorem setCe_d_fp (a : Nat) (x : CeAxis) (w : Work) : (setCe a x w).d.fp = w.d.fp := rfl
@[simp] theorem setCe_d_dq (a : Nat) (x : CeAxis) (w : Work) : (setCe a x w).d.dq = w.d.dq := rfl
@[simp] theorem setCe_d_dqShown (a : Nat) (x : CeAxis) (w : Work) : (setCe a x w).d.dqShown = w.d.dqShown := rfl
@[simp] theorem setCe_d_trl (a : Nat) (x : CeAxis) (w : Work) : (setCe a x w).d.trl = w.d.trl := rfl
@[simp] theorem setCe_d_egv (a : Nat) (x : CeAxis) (w : Work) : (setCe a x w).d.egv = w.d.egv := rfl
@[simp] theorem setCe_d_therm (a : Nat) (x : CeAxis) (w : Work) : (setCe a x w).d.therm = w.d.therm := rfl
@[simp] theorem setCe_d_tdu (a : Nat) (x : CeAxis) (w : Work) : (setCe a x w).d.tdu = w.d.tdu := rfl
@[simp] theorem setCe_d_grf (a : Nat) (x : CeAxis) (w : Work) : (setCe a x w).d.grf = w.d.grf := rfl
@[simp] theorem setCe_d_hdg (a : Nat) (x : CeAxis) (w : Work) : (setCe a x w).d.hdg = w.d.hdg := rfl
@[simp] theorem setCe_d_hvs (a : Nat) (x : CeAxis) (w : Work) : (setCe a x w).d.hvs = w.d.hvs := rfl
@[simp] theorem setCe_d_mem (a : Nat) (x : CeAxis) (w : Work) : (setCe a x w).d.mem = w.d.mem := rfl
@[simp] theorem setCe_d_mbx (a : Nat) (x : CeAxis) (w : Work) : (setCe a x w).d.mbx = w.d.mbx := rfl
@[simp] theorem setCe_d_boot (a : Nat) (x : CeAxis) (w : Work) : (setCe a x w).d.boot = w.d.boot := rfl
@[simp] theorem setCe_d_flash (a : Nat) (x : CeAxis) (w : Work) : (setCe a x w).d.flash = w.d.flash := rfl
@[simp] theorem setCe_d_age (a : Nat) (x : CeAxis) (w : Work) : (setCe a x w).d.age = w.d.age := rfl
@[simp] theorem setCe_d_hif (a : Nat) (x : CeAxis) (w : Work) : (setCe a x w).d.hif = w.d.hif := rfl
@[simp] theorem setCe_d_ptm (a : Nat) (x : CeAxis) (w : Work) : (setCe a x w).d.ptm = w.d.ptm := rfl
@[simp] theorem setCe_d_out (a : Nat) (x : CeAxis) (w : Work) : (setCe a x w).d.out = w.d.out := rfl
@[simp] theorem setCe_d_freeCtr (a : Nat) (x : CeAxis) (w : Work) : (setCe a x w).d.freeCtr = w.d.freeCtr := rfl

@[simp] theorem setEng_variant (a : Nat) (x : Engine) (w : Work) : (setEng a x w).variant = w.variant := rfl
@[simp] theorem setEng_base (a : Nat) (x : Engine) (w : Work) : (setEng a x w).base = w.base := rfl
@[simp] theorem setEng_ops (a : Nat) (x : Engine) (w : Work) : (setEng a x w).ops = w.ops := rfl
@[simp] theorem setEng_d_sys (a : Nat) (x : Engine) (w : Work) : (setEng a x w).d.sys = w.d.sys := rfl
@[simp] theorem setEng_d_phase (a : Nat) (x : Engine) (w : Work) : (setEng a x w).d.phase = w.d.phase := rfl
@[simp] theorem setEng_d_cmd (a : Nat) (x : Engine) (w : Work) : (setEng a x w).d.cmd = w.d.cmd := rfl
@[simp] theorem setEng_d_pln (a : Nat) (x : Engine) (w : Work) : (setEng a x w).d.pln = w.d.pln := rfl
@[simp] theorem setEng_d_fd (a : Nat) (x : Engine) (w : Work) : (setEng a x w).d.fd = w.d.fd := rfl
@[simp] theorem setEng_d_stp (a : Nat) (x : Engine) (w : Work) : (setEng a x w).d.stp = w.d.stp := rfl
@[simp] theorem setEng_d_fp (a : Nat) (x : Engine) (w : Work) : (setEng a x w).d.fp = w.d.fp := rfl
@[simp] theorem setEng_d_dq (a : Nat) (x : Engine) (w : Work) : (setEng a x w).d.dq = w.d.dq := rfl
@[simp] theorem setEng_d_dqShown (a : Nat) (x : Engine) (w : Work) : (setEng a x w).d.dqShown = w.d.dqShown := rfl
@[simp] theorem setEng_d_trl (a : Nat) (x : Engine) (w : Work) : (setEng a x w).d.trl = w.d.trl := rfl
@[simp] theorem setEng_d_egv (a : Nat) (x : Engine) (w : Work) : (setEng a x w).d.egv = w.d.egv := rfl
@[simp] theorem setEng_d_therm (a : Nat) (x : Engine) (w : Work) : (setEng a x w).d.therm = w.d.therm := rfl
@[simp] theorem setEng_d_tdu (a : Nat) (x : Engine) (w : Work) : (setEng a x w).d.tdu = w.d.tdu := rfl
@[simp] theorem setEng_d_grf (a : Nat) (x : Engine) (w : Work) : (setEng a x w).d.grf = w.d.grf := rfl
@[simp] theorem setEng_d_hdg (a : Nat) (x : Engine) (w : Work) : (setEng a x w).d.hdg = w.d.hdg := rfl
@[simp] theorem setEng_d_hvs (a : Nat) (x : Engine) (w : Work) : (setEng a x w).d.hvs = w.d.hvs := rfl
@[simp] theorem setEng_d_mem (a : Nat) (x : Engine) (w : Work) : (setEng a x w).d.mem = w.d.mem := rfl
@[simp] theorem setEng_d_mbx (a : Nat) (x : Engine) (w : Work) : (setEng a x w).d.mbx = w.d.mbx := rfl
@[simp] theorem setEng_d_boot (a : Nat) (x : Engine) (w : Work) : (setEng a x w).d.boot = w.d.boot := rfl
@[simp] theorem setEng_d_flash (a : Nat) (x : Engine) (w : Work) : (setEng a x w).d.flash = w.d.flash := rfl
@[simp] theorem setEng_d_age (a : Nat) (x : Engine) (w : Work) : (setEng a x w).d.age = w.d.age := rfl
@[simp] theorem setEng_d_hif (a : Nat) (x : Engine) (w : Work) : (setEng a x w).d.hif = w.d.hif := rfl
@[simp] theorem setEng_d_ptm (a : Nat) (x : Engine) (w : Work) : (setEng a x w).d.ptm = w.d.ptm := rfl
@[simp] theorem setEng_d_out (a : Nat) (x : Engine) (w : Work) : (setEng a x w).d.out = w.d.out := rfl
@[simp] theorem setEng_d_freeCtr (a : Nat) (x : Engine) (w : Work) : (setEng a x w).d.freeCtr = w.d.freeCtr := rfl

@[simp] theorem setPln_variant (a : Nat) (x : PlnAxis) (w : Work) : (setPln a x w).variant = w.variant := rfl
@[simp] theorem setPln_base (a : Nat) (x : PlnAxis) (w : Work) : (setPln a x w).base = w.base := rfl
@[simp] theorem setPln_ops (a : Nat) (x : PlnAxis) (w : Work) : (setPln a x w).ops = w.ops := rfl
@[simp] theorem setPln_d_sys (a : Nat) (x : PlnAxis) (w : Work) : (setPln a x w).d.sys = w.d.sys := rfl
@[simp] theorem setPln_d_phase (a : Nat) (x : PlnAxis) (w : Work) : (setPln a x w).d.phase = w.d.phase := rfl
@[simp] theorem setPln_d_cmd (a : Nat) (x : PlnAxis) (w : Work) : (setPln a x w).d.cmd = w.d.cmd := rfl
@[simp] theorem setPln_d_ce (a : Nat) (x : PlnAxis) (w : Work) : (setPln a x w).d.ce = w.d.ce := rfl
@[simp] theorem setPln_d_fd (a : Nat) (x : PlnAxis) (w : Work) : (setPln a x w).d.fd = w.d.fd := rfl
@[simp] theorem setPln_d_stp (a : Nat) (x : PlnAxis) (w : Work) : (setPln a x w).d.stp = w.d.stp := rfl
@[simp] theorem setPln_d_fp (a : Nat) (x : PlnAxis) (w : Work) : (setPln a x w).d.fp = w.d.fp := rfl
@[simp] theorem setPln_d_dq (a : Nat) (x : PlnAxis) (w : Work) : (setPln a x w).d.dq = w.d.dq := rfl
@[simp] theorem setPln_d_dqShown (a : Nat) (x : PlnAxis) (w : Work) : (setPln a x w).d.dqShown = w.d.dqShown := rfl
@[simp] theorem setPln_d_trl (a : Nat) (x : PlnAxis) (w : Work) : (setPln a x w).d.trl = w.d.trl := rfl
@[simp] theorem setPln_d_egv (a : Nat) (x : PlnAxis) (w : Work) : (setPln a x w).d.egv = w.d.egv := rfl
@[simp] theorem setPln_d_therm (a : Nat) (x : PlnAxis) (w : Work) : (setPln a x w).d.therm = w.d.therm := rfl
@[simp] theorem setPln_d_tdu (a : Nat) (x : PlnAxis) (w : Work) : (setPln a x w).d.tdu = w.d.tdu := rfl
@[simp] theorem setPln_d_grf (a : Nat) (x : PlnAxis) (w : Work) : (setPln a x w).d.grf = w.d.grf := rfl
@[simp] theorem setPln_d_hdg (a : Nat) (x : PlnAxis) (w : Work) : (setPln a x w).d.hdg = w.d.hdg := rfl
@[simp] theorem setPln_d_hvs (a : Nat) (x : PlnAxis) (w : Work) : (setPln a x w).d.hvs = w.d.hvs := rfl
@[simp] theorem setPln_d_mem (a : Nat) (x : PlnAxis) (w : Work) : (setPln a x w).d.mem = w.d.mem := rfl
@[simp] theorem setPln_d_mbx (a : Nat) (x : PlnAxis) (w : Work) : (setPln a x w).d.mbx = w.d.mbx := rfl
@[simp] theorem setPln_d_boot (a : Nat) (x : PlnAxis) (w : Work) : (setPln a x w).d.boot = w.d.boot := rfl
@[simp] theorem setPln_d_flash (a : Nat) (x : PlnAxis) (w : Work) : (setPln a x w).d.flash = w.d.flash := rfl
@[simp] theorem setPln_d_age (a : Nat) (x : PlnAxis) (w : Work) : (setPln a x w).d.age = w.d.age := rfl
@[simp] theorem setPln_d_hif (a : Nat) (x : PlnAxis) (w : Work) : (setPln a x w).d.hif = w.d.hif := rfl
@[simp] theorem setPln_d_ptm (a : Nat) (x : PlnAxis) (w : Work) : (setPln a x w).d.ptm = w.d.ptm := rfl
@[simp] theorem setPln_d_out (a : Nat) (x : PlnAxis) (w : Work) : (setPln a x w).d.out = w.d.out := rfl
@[simp] theorem setPln_d_freeCtr (a : Nat) (x : PlnAxis) (w : Work) : (setPln a x w).d.freeCtr = w.d.freeCtr := rfl

@[simp] theorem setSp_variant (a : Nat) (x : SetPoint) (w : Work) : (setSp a x w).variant = w.variant := rfl
@[simp] theorem setSp_base (a : Nat) (x : SetPoint) (w : Work) : (setSp a x w).base = w.base := rfl
@[simp] theorem setSp_ops (a : Nat) (x : SetPoint) (w : Work) : (setSp a x w).ops = w.ops := rfl
@[simp] theorem setSp_d_sys (a : Nat) (x : SetPoint) (w : Work) : (setSp a x w).d.sys = w.d.sys := rfl
@[simp] theorem setSp_d_phase (a : Nat) (x : SetPoint) (w : Work) : (setSp a x w).d.phase = w.d.phase := rfl
@[simp] theorem setSp_d_cmd (a : Nat) (x : SetPoint) (w : Work) : (setSp a x w).d.cmd = w.d.cmd := rfl
@[simp] theorem setSp_d_ce (a : Nat) (x : SetPoint) (w : Work) : (setSp a x w).d.ce = w.d.ce := rfl
@[simp] theorem setSp_d_fd (a : Nat) (x : SetPoint) (w : Work) : (setSp a x w).d.fd = w.d.fd := rfl
@[simp] theorem setSp_d_stp (a : Nat) (x : SetPoint) (w : Work) : (setSp a x w).d.stp = w.d.stp := rfl
@[simp] theorem setSp_d_fp (a : Nat) (x : SetPoint) (w : Work) : (setSp a x w).d.fp = w.d.fp := rfl
@[simp] theorem setSp_d_dq (a : Nat) (x : SetPoint) (w : Work) : (setSp a x w).d.dq = w.d.dq := rfl
@[simp] theorem setSp_d_dqShown (a : Nat) (x : SetPoint) (w : Work) : (setSp a x w).d.dqShown = w.d.dqShown := rfl
@[simp] theorem setSp_d_trl (a : Nat) (x : SetPoint) (w : Work) : (setSp a x w).d.trl = w.d.trl := rfl
@[simp] theorem setSp_d_egv (a : Nat) (x : SetPoint) (w : Work) : (setSp a x w).d.egv = w.d.egv := rfl
@[simp] theorem setSp_d_therm (a : Nat) (x : SetPoint) (w : Work) : (setSp a x w).d.therm = w.d.therm := rfl
@[simp] theorem setSp_d_tdu (a : Nat) (x : SetPoint) (w : Work) : (setSp a x w).d.tdu = w.d.tdu := rfl
@[simp] theorem setSp_d_grf (a : Nat) (x : SetPoint) (w : Work) : (setSp a x w).d.grf = w.d.grf := rfl
@[simp] theorem setSp_d_hdg (a : Nat) (x : SetPoint) (w : Work) : (setSp a x w).d.hdg = w.d.hdg := rfl
@[simp] theorem setSp_d_hvs (a : Nat) (x : SetPoint) (w : Work) : (setSp a x w).d.hvs = w.d.hvs := rfl
@[simp] theorem setSp_d_mem (a : Nat) (x : SetPoint) (w : Work) : (setSp a x w).d.mem = w.d.mem := rfl
@[simp] theorem setSp_d_mbx (a : Nat) (x : SetPoint) (w : Work) : (setSp a x w).d.mbx = w.d.mbx := rfl
@[simp] theorem setSp_d_boot (a : Nat) (x : SetPoint) (w : Work) : (setSp a x w).d.boot = w.d.boot := rfl
@[simp] theorem setSp_d_flash (a : Nat) (x : SetPoint) (w : Work) : (setSp a x w).d.flash = w.d.flash := rfl
@[simp] theorem setSp_d_age (a : Nat) (x : SetPoint) (w : Work) : (setSp a x w).d.age = w.d.age := rfl
@[simp] theorem setSp_d_hif (a : Nat) (x : SetPoint) (w : Work) : (setSp a x w).d.hif = w.d.hif := rfl
@[simp] theorem setSp_d_ptm (a : Nat) (x : SetPoint) (w : Work) : (setSp a x w).d.ptm = w.d.ptm := rfl
@[simp] theorem setSp_d_out (a : Nat) (x : SetPoint) (w : Work) : (setSp a x w).d.out = w.d.out := rfl
@[simp] theorem setSp_d_freeCtr (a : Nat) (x : SetPoint) (w : Work) : (setSp a x w).d.freeCtr = w.d.freeCtr := rfl

@[simp] theorem setStp_variant (a : Nat) (x : StpAxis) (w : Work) : (setStp a x w).variant = w.variant := rfl
@[simp] theorem setStp_base (a : Nat) (x : StpAxis) (w : Work) : (setStp a x w).base = w.base := rfl
@[simp] theorem setStp_ops (a : Nat) (x : StpAxis) (w : Work) : (setStp a x w).ops = w.ops := rfl
@[simp] theorem setStp_d_sys (a : Nat) (x : StpAxis) (w : Work) : (setStp a x w).d.sys = w.d.sys := rfl
@[simp] theorem setStp_d_phase (a : Nat) (x : StpAxis) (w : Work) : (setStp a x w).d.phase = w.d.phase := rfl
@[simp] theorem setStp_d_cmd (a : Nat) (x : StpAxis) (w : Work) : (setStp a x w).d.cmd = w.d.cmd := rfl
@[simp] theorem setStp_d_pln (a : Nat) (x : StpAxis) (w : Work) : (setStp a x w).d.pln = w.d.pln := rfl
@[simp] theorem setStp_d_ce (a : Nat) (x : StpAxis) (w : Work) : (setStp a x w).d.ce = w.d.ce := rfl
@[simp] theorem setStp_d_fd (a : Nat) (x : StpAxis) (w : Work) : (setStp a x w).d.fd = w.d.fd := rfl
@[simp] theorem setStp_d_fp (a : Nat) (x : StpAxis) (w : Work) : (setStp a x w).d.fp = w.d.fp := rfl
@[simp] theorem setStp_d_dq (a : Nat) (x : StpAxis) (w : Work) : (setStp a x w).d.dq = w.d.dq := rfl
@[simp] theorem setStp_d_dqShown (a : Nat) (x : StpAxis) (w : Work) : (setStp a x w).d.dqShown = w.d.dqShown := rfl
@[simp] theorem setStp_d_trl (a : Nat) (x : StpAxis) (w : Work) : (setStp a x w).d.trl = w.d.trl := rfl
@[simp] theorem setStp_d_egv (a : Nat) (x : StpAxis) (w : Work) : (setStp a x w).d.egv = w.d.egv := rfl
@[simp] theorem setStp_d_therm (a : Nat) (x : StpAxis) (w : Work) : (setStp a x w).d.therm = w.d.therm := rfl
@[simp] theorem setStp_d_tdu (a : Nat) (x : StpAxis) (w : Work) : (setStp a x w).d.tdu = w.d.tdu := rfl
@[simp] theorem setStp_d_grf (a : Nat) (x : StpAxis) (w : Work) : (setStp a x w).d.grf = w.d.grf := rfl
@[simp] theorem setStp_d_hdg (a : Nat) (x : StpAxis) (w : Work) : (setStp a x w).d.hdg = w.d.hdg := rfl
@[simp] theorem setStp_d_hvs (a : Nat) (x : StpAxis) (w : Work) : (setStp a x w).d.hvs = w.d.hvs := rfl
@[simp] theorem setStp_d_mem (a : Nat) (x : StpAxis) (w : Work) : (setStp a x w).d.mem = w.d.mem := rfl
@[simp] theorem setStp_d_mbx (a : Nat) (x : StpAxis) (w : Work) : (setStp a x w).d.mbx = w.d.mbx := rfl
@[simp] theorem setStp_d_boot (a : Nat) (x : StpAxis) (w : Work) : (setStp a x w).d.boot = w.d.boot := rfl
@[simp] theorem setStp_d_flash (a : Nat) (x : StpAxis) (w : Work) : (setStp a x w).d.flash = w.d.flash := rfl
@[simp] theorem setStp_d_age (a : Nat) (x : StpAxis) (w : Work) : (setStp a x w).d.age = w.d.age := rfl
@[simp] theorem setStp_d_hif (a : Nat) (x : StpAxis) (w : Work) : (setStp a x w).d.hif = w.d.hif := rfl
@[simp] theorem setStp_d_ptm (a : Nat) (x : StpAxis) (w : Work) : (setStp a x w).d.ptm = w.d.ptm := rfl
@[simp] theorem setStp_d_out (a : Nat) (x : StpAxis) (w : Work) : (setStp a x w).d.out = w.d.out := rfl
@[simp] theorem setStp_d_freeCtr (a : Nat) (x : StpAxis) (w : Work) : (setStp a x w).d.freeCtr = w.d.freeCtr := rfl

@[simp] theorem setFp_variant (n : Nat) (x : FpPort) (w : Work) : (setFp n x w).variant = w.variant := rfl
@[simp] theorem setFp_base (n : Nat) (x : FpPort) (w : Work) : (setFp n x w).base = w.base := rfl
@[simp] theorem setFp_ops (n : Nat) (x : FpPort) (w : Work) : (setFp n x w).ops = w.ops := rfl
@[simp] theorem setFp_d_sys (n : Nat) (x : FpPort) (w : Work) : (setFp n x w).d.sys = w.d.sys := rfl
@[simp] theorem setFp_d_phase (n : Nat) (x : FpPort) (w : Work) : (setFp n x w).d.phase = w.d.phase := rfl
@[simp] theorem setFp_d_cmd (n : Nat) (x : FpPort) (w : Work) : (setFp n x w).d.cmd = w.d.cmd := rfl
@[simp] theorem setFp_d_pln (n : Nat) (x : FpPort) (w : Work) : (setFp n x w).d.pln = w.d.pln := rfl
@[simp] theorem setFp_d_ce (n : Nat) (x : FpPort) (w : Work) : (setFp n x w).d.ce = w.d.ce := rfl
@[simp] theorem setFp_d_fd (n : Nat) (x : FpPort) (w : Work) : (setFp n x w).d.fd = w.d.fd := rfl
@[simp] theorem setFp_d_stp (n : Nat) (x : FpPort) (w : Work) : (setFp n x w).d.stp = w.d.stp := rfl
@[simp] theorem setFp_d_dq (n : Nat) (x : FpPort) (w : Work) : (setFp n x w).d.dq = w.d.dq := rfl
@[simp] theorem setFp_d_dqShown (n : Nat) (x : FpPort) (w : Work) : (setFp n x w).d.dqShown = w.d.dqShown := rfl
@[simp] theorem setFp_d_trl (n : Nat) (x : FpPort) (w : Work) : (setFp n x w).d.trl = w.d.trl := rfl
@[simp] theorem setFp_d_egv (n : Nat) (x : FpPort) (w : Work) : (setFp n x w).d.egv = w.d.egv := rfl
@[simp] theorem setFp_d_therm (n : Nat) (x : FpPort) (w : Work) : (setFp n x w).d.therm = w.d.therm := rfl
@[simp] theorem setFp_d_tdu (n : Nat) (x : FpPort) (w : Work) : (setFp n x w).d.tdu = w.d.tdu := rfl
@[simp] theorem setFp_d_grf (n : Nat) (x : FpPort) (w : Work) : (setFp n x w).d.grf = w.d.grf := rfl
@[simp] theorem setFp_d_hdg (n : Nat) (x : FpPort) (w : Work) : (setFp n x w).d.hdg = w.d.hdg := rfl
@[simp] theorem setFp_d_hvs (n : Nat) (x : FpPort) (w : Work) : (setFp n x w).d.hvs = w.d.hvs := rfl
@[simp] theorem setFp_d_mem (n : Nat) (x : FpPort) (w : Work) : (setFp n x w).d.mem = w.d.mem := rfl
@[simp] theorem setFp_d_mbx (n : Nat) (x : FpPort) (w : Work) : (setFp n x w).d.mbx = w.d.mbx := rfl
@[simp] theorem setFp_d_boot (n : Nat) (x : FpPort) (w : Work) : (setFp n x w).d.boot = w.d.boot := rfl
@[simp] theorem setFp_d_flash (n : Nat) (x : FpPort) (w : Work) : (setFp n x w).d.flash = w.d.flash := rfl
@[simp] theorem setFp_d_age (n : Nat) (x : FpPort) (w : Work) : (setFp n x w).d.age = w.d.age := rfl
@[simp] theorem setFp_d_hif (n : Nat) (x : FpPort) (w : Work) : (setFp n x w).d.hif = w.d.hif := rfl
@[simp] theorem setFp_d_ptm (n : Nat) (x : FpPort) (w : Work) : (setFp n x w).d.ptm = w.d.ptm := rfl
@[simp] theorem setFp_d_out (n : Nat) (x : FpPort) (w : Work) : (setFp n x w).d.out = w.d.out := rfl
@[simp] theorem setFp_d_freeCtr (n : Nat) (x : FpPort) (w : Work) : (setFp n x w).d.freeCtr = w.d.freeCtr := rfl

@[simp] theorem setFd_variant (n : Nat) (x : FdUnit) (w : Work) : (setFd n x w).variant = w.variant := rfl
@[simp] theorem setFd_base (n : Nat) (x : FdUnit) (w : Work) : (setFd n x w).base = w.base := rfl
@[simp] theorem setFd_ops (n : Nat) (x : FdUnit) (w : Work) : (setFd n x w).ops = w.ops := rfl
@[simp] theorem setFd_d_sys (n : Nat) (x : FdUnit) (w : Work) : (setFd n x w).d.sys = w.d.sys := rfl
@[simp] theorem setFd_d_phase (n : Nat) (x : FdUnit) (w : Work) : (setFd n x w).d.phase = w.d.phase := rfl
@[simp] theorem setFd_d_cmd (n : Nat) (x : FdUnit) (w : Work) : (setFd n x w).d.cmd = w.d.cmd := rfl
@[simp] theorem setFd_d_pln (n : Nat) (x : FdUnit) (w : Work) : (setFd n x w).d.pln = w.d.pln := rfl
@[simp] theorem setFd_d_ce (n : Nat) (x : FdUnit) (w : Work) : (setFd n x w).d.ce = w.d.ce := rfl
@[simp] theorem setFd_d_stp (n : Nat) (x : FdUnit) (w : Work) : (setFd n x w).d.stp = w.d.stp := rfl
@[simp] theorem setFd_d_fp (n : Nat) (x : FdUnit) (w : Work) : (setFd n x w).d.fp = w.d.fp := rfl
@[simp] theorem setFd_d_dq (n : Nat) (x : FdUnit) (w : Work) : (setFd n x w).d.dq = w.d.dq := rfl
@[simp] theorem setFd_d_dqShown (n : Nat) (x : FdUnit) (w : Work) : (setFd n x w).d.dqShown = w.d.dqShown := rfl
@[simp] theorem setFd_d_trl (n : Nat) (x : FdUnit) (w : Work) : (setFd n x w).d.trl = w.d.trl := rfl
@[simp] theorem setFd_d_egv (n : Nat) (x : FdUnit) (w : Work) : (setFd n x w).d.egv = w.d.egv := rfl
@[simp] theorem setFd_d_therm (n : Nat) (x : FdUnit) (w : Work) : (setFd n x w).d.therm = w.d.therm := rfl
@[simp] theorem setFd_d_tdu (n : Nat) (x : FdUnit) (w : Work) : (setFd n x w).d.tdu = w.d.tdu := rfl
@[simp] theorem setFd_d_grf (n : Nat) (x : FdUnit) (w : Work) : (setFd n x w).d.grf = w.d.grf := rfl
@[simp] theorem setFd_d_hdg (n : Nat) (x : FdUnit) (w : Work) : (setFd n x w).d.hdg = w.d.hdg := rfl
@[simp] theorem setFd_d_hvs (n : Nat) (x : FdUnit) (w : Work) : (setFd n x w).d.hvs = w.d.hvs := rfl
@[simp] theorem setFd_d_mem (n : Nat) (x : FdUnit) (w : Work) : (setFd n x w).d.mem = w.d.mem := rfl
@[simp] theorem setFd_d_mbx (n : Nat) (x : FdUnit) (w : Work) : (setFd n x w).d.mbx = w.d.mbx := rfl
@[simp] theorem setFd_d_boot (n : Nat) (x : FdUnit) (w : Work) : (setFd n x w).d.boot = w.d.boot := rfl
@[simp] theorem setFd_d_flash (n : Nat) (x : FdUnit) (w : Work) : (setFd n x w).d.flash = w.d.flash := rfl
@[simp] theorem setFd_d_age (n : Nat) (x : FdUnit) (w : Work) : (setFd n x w).d.age = w.d.age := rfl
@[simp] theorem setFd_d_hif (n : Nat) (x : FdUnit) (w : Work) : (setFd n x w).d.hif = w.d.hif := rfl
@[simp] theorem setFd_d_ptm (n : Nat) (x : FdUnit) (w : Work) : (setFd n x w).d.ptm = w.d.ptm := rfl
@[simp] theorem setFd_d_out (n : Nat) (x : FdUnit) (w : Work) : (setFd n x w).d.out = w.d.out := rfl
@[simp] theorem setFd_d_freeCtr (n : Nat) (x : FdUnit) (w : Work) : (setFd n x w).d.freeCtr = w.d.freeCtr := rfl

@[simp] theorem setChan_variant (n : Nat) (x : MbxChan) (w : Work) : (setChan n x w).variant = w.variant := rfl
@[simp] theorem setChan_base (n : Nat) (x : MbxChan) (w : Work) : (setChan n x w).base = w.base := rfl
@[simp] theorem setChan_ops (n : Nat) (x : MbxChan) (w : Work) : (setChan n x w).ops = w.ops := rfl
@[simp] theorem setChan_d_sys (n : Nat) (x : MbxChan) (w : Work) : (setChan n x w).d.sys = w.d.sys := rfl
@[simp] theorem setChan_d_phase (n : Nat) (x : MbxChan) (w : Work) : (setChan n x w).d.phase = w.d.phase := rfl
@[simp] theorem setChan_d_cmd (n : Nat) (x : MbxChan) (w : Work) : (setChan n x w).d.cmd = w.d.cmd := rfl
@[simp] theorem setChan_d_pln (n : Nat) (x : MbxChan) (w : Work) : (setChan n x w).d.pln = w.d.pln := rfl
@[simp] theorem setChan_d_ce (n : Nat) (x : MbxChan) (w : Work) : (setChan n x w).d.ce = w.d.ce := rfl
@[simp] theorem setChan_d_fd (n : Nat) (x : MbxChan) (w : Work) : (setChan n x w).d.fd = w.d.fd := rfl
@[simp] theorem setChan_d_stp (n : Nat) (x : MbxChan) (w : Work) : (setChan n x w).d.stp = w.d.stp := rfl
@[simp] theorem setChan_d_fp (n : Nat) (x : MbxChan) (w : Work) : (setChan n x w).d.fp = w.d.fp := rfl
@[simp] theorem setChan_d_dq (n : Nat) (x : MbxChan) (w : Work) : (setChan n x w).d.dq = w.d.dq := rfl
@[simp] theorem setChan_d_dqShown (n : Nat) (x : MbxChan) (w : Work) : (setChan n x w).d.dqShown = w.d.dqShown := rfl
@[simp] theorem setChan_d_trl (n : Nat) (x : MbxChan) (w : Work) : (setChan n x w).d.trl = w.d.trl := rfl
@[simp] theorem setChan_d_egv (n : Nat) (x : MbxChan) (w : Work) : (setChan n x w).d.egv = w.d.egv := rfl
@[simp] theorem setChan_d_therm (n : Nat) (x : MbxChan) (w : Work) : (setChan n x w).d.therm = w.d.therm := rfl
@[simp] theorem setChan_d_tdu (n : Nat) (x : MbxChan) (w : Work) : (setChan n x w).d.tdu = w.d.tdu := rfl
@[simp] theorem setChan_d_grf (n : Nat) (x : MbxChan) (w : Work) : (setChan n x w).d.grf = w.d.grf := rfl
@[simp] theorem setChan_d_hdg (n : Nat) (x : MbxChan) (w : Work) : (setChan n x w).d.hdg = w.d.hdg := rfl
@[simp] theorem setChan_d_hvs (n : Nat) (x : MbxChan) (w : Work) : (setChan n x w).d.hvs = w.d.hvs := rfl
@[simp] theorem setChan_d_mem (n : Nat) (x : MbxChan) (w : Work) : (setChan n x w).d.mem = w.d.mem := rfl
@[simp] theorem setChan_d_boot (n : Nat) (x : MbxChan) (w : Work) : (setChan n x w).d.boot = w.d.boot := rfl
@[simp] theorem setChan_d_flash (n : Nat) (x : MbxChan) (w : Work) : (setChan n x w).d.flash = w.d.flash := rfl
@[simp] theorem setChan_d_age (n : Nat) (x : MbxChan) (w : Work) : (setChan n x w).d.age = w.d.age := rfl
@[simp] theorem setChan_d_hif (n : Nat) (x : MbxChan) (w : Work) : (setChan n x w).d.hif = w.d.hif := rfl
@[simp] theorem setChan_d_ptm (n : Nat) (x : MbxChan) (w : Work) : (setChan n x w).d.ptm = w.d.ptm := rfl
@[simp] theorem setChan_d_out (n : Nat) (x : MbxChan) (w : Work) : (setChan n x w).d.out = w.d.out := rfl
@[simp] theorem setChan_d_freeCtr (n : Nat) (x : MbxChan) (w : Work) : (setChan n x w).d.freeCtr = w.d.freeCtr := rfl

@[simp] theorem setSem_variant (n h : Nat) (w : Work) : (setSem n h w).variant = w.variant := rfl
@[simp] theorem setSem_base (n h : Nat) (w : Work) : (setSem n h w).base = w.base := rfl
@[simp] theorem setSem_ops (n h : Nat) (w : Work) : (setSem n h w).ops = w.ops := rfl
@[simp] theorem setSem_d_sys (n h : Nat) (w : Work) : (setSem n h w).d.sys = w.d.sys := rfl
@[simp] theorem setSem_d_phase (n h : Nat) (w : Work) : (setSem n h w).d.phase = w.d.phase := rfl
@[simp] theorem setSem_d_cmd (n h : Nat) (w : Work) : (setSem n h w).d.cmd = w.d.cmd := rfl
@[simp] theorem setSem_d_pln (n h : Nat) (w : Work) : (setSem n h w).d.pln = w.d.pln := rfl
@[simp] theorem setSem_d_ce (n h : Nat) (w : Work) : (setSem n h w).d.ce = w.d.ce := rfl
@[simp] theorem setSem_d_fd (n h : Nat) (w : Work) : (setSem n h w).d.fd = w.d.fd := rfl
@[simp] theorem setSem_d_stp (n h : Nat) (w : Work) : (setSem n h w).d.stp = w.d.stp := rfl
@[simp] theorem setSem_d_fp (n h : Nat) (w : Work) : (setSem n h w).d.fp = w.d.fp := rfl
@[simp] theorem setSem_d_dq (n h : Nat) (w : Work) : (setSem n h w).d.dq = w.d.dq := rfl
@[simp] theorem setSem_d_dqShown (n h : Nat) (w : Work) : (setSem n h w).d.dqShown = w.d.dqShown := rfl
@[simp] theorem setSem_d_trl (n h : Nat) (w : Work) : (setSem n h w).d.trl = w.d.trl := rfl
@[simp] theorem setSem_d_egv (n h : Nat) (w : Work) : (setSem n h w).d.egv = w.d.egv := rfl
@[simp] theorem setSem_d_therm (n h : Nat) (w : Work) : (setSem n h w).d.therm = w.d.therm := rfl
@[simp] theorem setSem_d_tdu (n h : Nat) (w : Work) : (setSem n h w).d.tdu = w.d.tdu := rfl
@[simp] theorem setSem_d_grf (n h : Nat) (w : Work) : (setSem n h w).d.grf = w.d.grf := rfl
@[simp] theorem setSem_d_hdg (n h : Nat) (w : Work) : (setSem n h w).d.hdg = w.d.hdg := rfl
@[simp] theorem setSem_d_hvs (n h : Nat) (w : Work) : (setSem n h w).d.hvs = w.d.hvs := rfl
@[simp] theorem setSem_d_mbx (n h : Nat) (w : Work) : (setSem n h w).d.mbx = w.d.mbx := rfl
@[simp] theorem setSem_d_boot (n h : Nat) (w : Work) : (setSem n h w).d.boot = w.d.boot := rfl
@[simp] theorem setSem_d_flash (n h : Nat) (w : Work) : (setSem n h w).d.flash = w.d.flash := rfl
@[simp] theorem setSem_d_age (n h : Nat) (w : Work) : (setSem n h w).d.age = w.d.age := rfl
@[simp] theorem setSem_d_hif (n h : Nat) (w : Work) : (setSem n h w).d.hif = w.d.hif := rfl
@[simp] theorem setSem_d_ptm (n h : Nat) (w : Work) : (setSem n h w).d.ptm = w.d.ptm := rfl
@[simp] theorem setSem_d_out (n h : Nat) (w : Work) : (setSem n h w).d.out = w.d.out := rfl
@[simp] theorem setSem_d_freeCtr (n h : Nat) (w : Work) : (setSem n h w).d.freeCtr = w.d.freeCtr := rfl

@[simp] theorem setHg_variant (h : HdgSt) (w : Work) : (setHg h w).variant = w.variant := rfl
@[simp] theorem setHg_base (h : HdgSt) (w : Work) : (setHg h w).base = w.base := rfl
@[simp] theorem setHg_ops (h : HdgSt) (w : Work) : (setHg h w).ops = w.ops := rfl
@[simp] theorem setHg_d_sys (h : HdgSt) (w : Work) : (setHg h w).d.sys = w.d.sys := rfl
@[simp] theorem setHg_d_phase (h : HdgSt) (w : Work) : (setHg h w).d.phase = w.d.phase := rfl
@[simp] theorem setHg_d_cmd (h : HdgSt) (w : Work) : (setHg h w).d.cmd = w.d.cmd := rfl
@[simp] theorem setHg_d_pln (h : HdgSt) (w : Work) : (setHg h w).d.pln = w.d.pln := rfl
@[simp] theorem setHg_d_ce (h : HdgSt) (w : Work) : (setHg h w).d.ce = w.d.ce := rfl
@[simp] theorem setHg_d_fd (h : HdgSt) (w : Work) : (setHg h w).d.fd = w.d.fd := rfl
@[simp] theorem setHg_d_stp (h : HdgSt) (w : Work) : (setHg h w).d.stp = w.d.stp := rfl
@[simp] theorem setHg_d_fp (h : HdgSt) (w : Work) : (setHg h w).d.fp = w.d.fp := rfl
@[simp] theorem setHg_d_dq (h : HdgSt) (w : Work) : (setHg h w).d.dq = w.d.dq := rfl
@[simp] theorem setHg_d_dqShown (h : HdgSt) (w : Work) : (setHg h w).d.dqShown = w.d.dqShown := rfl
@[simp] theorem setHg_d_trl (h : HdgSt) (w : Work) : (setHg h w).d.trl = w.d.trl := rfl
@[simp] theorem setHg_d_egv (h : HdgSt) (w : Work) : (setHg h w).d.egv = w.d.egv := rfl
@[simp] theorem setHg_d_therm (h : HdgSt) (w : Work) : (setHg h w).d.therm = w.d.therm := rfl
@[simp] theorem setHg_d_tdu (h : HdgSt) (w : Work) : (setHg h w).d.tdu = w.d.tdu := rfl
@[simp] theorem setHg_d_grf (h : HdgSt) (w : Work) : (setHg h w).d.grf = w.d.grf := rfl
@[simp] theorem setHg_d_hvs (h : HdgSt) (w : Work) : (setHg h w).d.hvs = w.d.hvs := rfl
@[simp] theorem setHg_d_mem (h : HdgSt) (w : Work) : (setHg h w).d.mem = w.d.mem := rfl
@[simp] theorem setHg_d_mbx (h : HdgSt) (w : Work) : (setHg h w).d.mbx = w.d.mbx := rfl
@[simp] theorem setHg_d_boot (h : HdgSt) (w : Work) : (setHg h w).d.boot = w.d.boot := rfl
@[simp] theorem setHg_d_flash (h : HdgSt) (w : Work) : (setHg h w).d.flash = w.d.flash := rfl
@[simp] theorem setHg_d_age (h : HdgSt) (w : Work) : (setHg h w).d.age = w.d.age := rfl
@[simp] theorem setHg_d_hif (h : HdgSt) (w : Work) : (setHg h w).d.hif = w.d.hif := rfl
@[simp] theorem setHg_d_ptm (h : HdgSt) (w : Work) : (setHg h w).d.ptm = w.d.ptm := rfl
@[simp] theorem setHg_d_out (h : HdgSt) (w : Work) : (setHg h w).d.out = w.d.out := rfl
@[simp] theorem setHg_d_freeCtr (h : HdgSt) (w : Work) : (setHg h w).d.freeCtr = w.d.freeCtr := rfl

@[simp] theorem send_variant (m : OutMsg) (w : Work) : (send m w).variant = w.variant := rfl
@[simp] theorem send_base (m : OutMsg) (w : Work) : (send m w).base = w.base := rfl
@[simp] theorem send_ops (m : OutMsg) (w : Work) : (send m w).ops = w.ops := rfl
@[simp] theorem send_d_sys (m : OutMsg) (w : Work) : (send m w).d.sys = w.d.sys := rfl
@[simp] theorem send_d_phase (m : OutMsg) (w : Work) : (send m w).d.phase = w.d.phase := rfl
@[simp] theorem send_d_cmd (m : OutMsg) (w : Work) : (send m w).d.cmd = w.d.cmd := rfl
@[simp] theorem send_d_pln (m : OutMsg) (w : Work) : (send m w).d.pln = w.d.pln := rfl
@[simp] theorem send_d_ce (m : OutMsg) (w : Work) : (send m w).d.ce = w.d.ce := rfl
@[simp] theorem send_d_fd (m : OutMsg) (w : Work) : (send m w).d.fd = w.d.fd := rfl
@[simp] theorem send_d_stp (m : OutMsg) (w : Work) : (send m w).d.stp = w.d.stp := rfl
@[simp] theorem send_d_fp (m : OutMsg) (w : Work) : (send m w).d.fp = w.d.fp := rfl
@[simp] theorem send_d_dq (m : OutMsg) (w : Work) : (send m w).d.dq = w.d.dq := rfl
@[simp] theorem send_d_dqShown (m : OutMsg) (w : Work) : (send m w).d.dqShown = w.d.dqShown := rfl
@[simp] theorem send_d_trl (m : OutMsg) (w : Work) : (send m w).d.trl = w.d.trl := rfl
@[simp] theorem send_d_egv (m : OutMsg) (w : Work) : (send m w).d.egv = w.d.egv := rfl
@[simp] theorem send_d_therm (m : OutMsg) (w : Work) : (send m w).d.therm = w.d.therm := rfl
@[simp] theorem send_d_tdu (m : OutMsg) (w : Work) : (send m w).d.tdu = w.d.tdu := rfl
@[simp] theorem send_d_grf (m : OutMsg) (w : Work) : (send m w).d.grf = w.d.grf := rfl
@[simp] theorem send_d_hdg (m : OutMsg) (w : Work) : (send m w).d.hdg = w.d.hdg := rfl
@[simp] theorem send_d_hvs (m : OutMsg) (w : Work) : (send m w).d.hvs = w.d.hvs := rfl
@[simp] theorem send_d_mem (m : OutMsg) (w : Work) : (send m w).d.mem = w.d.mem := rfl
@[simp] theorem send_d_mbx (m : OutMsg) (w : Work) : (send m w).d.mbx = w.d.mbx := rfl
@[simp] theorem send_d_boot (m : OutMsg) (w : Work) : (send m w).d.boot = w.d.boot := rfl
@[simp] theorem send_d_flash (m : OutMsg) (w : Work) : (send m w).d.flash = w.d.flash := rfl
@[simp] theorem send_d_age (m : OutMsg) (w : Work) : (send m w).d.age = w.d.age := rfl
@[simp] theorem send_d_hif (m : OutMsg) (w : Work) : (send m w).d.hif = w.d.hif := rfl
@[simp] theorem send_d_ptm (m : OutMsg) (w : Work) : (send m w).d.ptm = w.d.ptm := rfl
@[simp] theorem send_d_freeCtr (m : OutMsg) (w : Work) : (send m w).d.freeCtr = w.d.freeCtr := rfl

end Sys2Proof.Machine
end

