-- ==== Sys2Proof/Laws/Ops.lean ====
section
/-! SUPPORT. What each shared operation can do, said once: which parts of the working copy it changes, and what it writes. -/

namespace Sys2Proof.Machine

/-! Interrupts: the host interface's registers and the messages sent out. -/

theorem irqAssert_frame (i : Nat) (w : Work) : ∃ h o, irqAssert i w = { w with d.hif := h, d.out := o } := by
  unfold irqAssert
  split
  · exact ⟨_, _, rfl⟩
  · dsimp only; split <;> exact ⟨_, _, rfl⟩

theorem irq_frame (i : Nat) (w : Work) : ∃ h o, irq i w = { w with d.hif := h, d.out := o } := by
  unfold irq
  dsimp only
  split
  · obtain ⟨h, o, e⟩ := irqAssert_frame i { w with d.hif.istat := w.d.hif.istat ||| 1 <<< i }
    exact ⟨h, o, e⟩
  · exact ⟨_, _, rfl⟩

@[simp] theorem irq_variant (i : Nat) (w : Work) : (irq i w).variant = w.variant := by
  obtain ⟨h, o, e⟩ := irq_frame i w; rw [e]
@[simp] theorem irq_base (i : Nat) (w : Work) : (irq i w).base = w.base := by
  obtain ⟨h, o, e⟩ := irq_frame i w; rw [e]
@[simp] theorem irq_ops (i : Nat) (w : Work) : (irq i w).ops = w.ops := by
  obtain ⟨h, o, e⟩ := irq_frame i w; rw [e]
@[simp] theorem irq_sys (i : Nat) (w : Work) : (irq i w).d.sys = w.d.sys := by
  obtain ⟨h, o, e⟩ := irq_frame i w; rw [e]
@[simp] theorem irq_phase (i : Nat) (w : Work) : (irq i w).d.phase = w.d.phase := by
  obtain ⟨h, o, e⟩ := irq_frame i w; rw [e]
@[simp] theorem irq_cmd (i : Nat) (w : Work) : (irq i w).d.cmd = w.d.cmd := by
  obtain ⟨h, o, e⟩ := irq_frame i w; rw [e]
@[simp] theorem irq_pln (i : Nat) (w : Work) : (irq i w).d.pln = w.d.pln := by
  obtain ⟨h, o, e⟩ := irq_frame i w; rw [e]
@[simp] theorem irq_ce (i : Nat) (w : Work) : (irq i w).d.ce = w.d.ce := by
  obtain ⟨h, o, e⟩ := irq_frame i w; rw [e]
@[simp] theorem irq_fd (i : Nat) (w : Work) : (irq i w).d.fd = w.d.fd := by
  obtain ⟨h, o, e⟩ := irq_frame i w; rw [e]
@[simp] theorem irq_stp (i : Nat) (w : Work) : (irq i w).d.stp = w.d.stp := by
  obtain ⟨h, o, e⟩ := irq_frame i w; rw [e]
@[simp] theorem irq_fp (i : Nat) (w : Work) : (irq i w).d.fp = w.d.fp := by
  obtain ⟨h, o, e⟩ := irq_frame i w; rw [e]
@[simp] theorem irq_dq (i : Nat) (w : Work) : (irq i w).d.dq = w.d.dq := by
  obtain ⟨h, o, e⟩ := irq_frame i w; rw [e]
@[simp] theorem irq_dqShown (i : Nat) (w : Work) : (irq i w).d.dqShown = w.d.dqShown := by
  obtain ⟨h, o, e⟩ := irq_frame i w; rw [e]
@[simp] theorem irq_trl (i : Nat) (w : Work) : (irq i w).d.trl = w.d.trl := by
  obtain ⟨h, o, e⟩ := irq_frame i w; rw [e]
@[simp] theorem irq_egv (i : Nat) (w : Work) : (irq i w).d.egv = w.d.egv := by
  obtain ⟨h, o, e⟩ := irq_frame i w; rw [e]
@[simp] theorem irq_therm (i : Nat) (w : Work) : (irq i w).d.therm = w.d.therm := by
  obtain ⟨h, o, e⟩ := irq_frame i w; rw [e]
@[simp] theorem irq_tdu (i : Nat) (w : Work) : (irq i w).d.tdu = w.d.tdu := by
  obtain ⟨h, o, e⟩ := irq_frame i w; rw [e]
@[simp] theorem irq_grf (i : Nat) (w : Work) : (irq i w).d.grf = w.d.grf := by
  obtain ⟨h, o, e⟩ := irq_frame i w; rw [e]
@[simp] theorem irq_hdg (i : Nat) (w : Work) : (irq i w).d.hdg = w.d.hdg := by
  obtain ⟨h, o, e⟩ := irq_frame i w; rw [e]
@[simp] theorem irq_hvs (i : Nat) (w : Work) : (irq i w).d.hvs = w.d.hvs := by
  obtain ⟨h, o, e⟩ := irq_frame i w; rw [e]
@[simp] theorem irq_mem (i : Nat) (w : Work) : (irq i w).d.mem = w.d.mem := by
  obtain ⟨h, o, e⟩ := irq_frame i w; rw [e]
@[simp] theorem irq_mbx (i : Nat) (w : Work) : (irq i w).d.mbx = w.d.mbx := by
  obtain ⟨h, o, e⟩ := irq_frame i w; rw [e]
@[simp] theorem irq_boot (i : Nat) (w : Work) : (irq i w).d.boot = w.d.boot := by
  obtain ⟨h, o, e⟩ := irq_frame i w; rw [e]
@[simp] theorem irq_flash (i : Nat) (w : Work) : (irq i w).d.flash = w.d.flash := by
  obtain ⟨h, o, e⟩ := irq_frame i w; rw [e]
@[simp] theorem irq_age (i : Nat) (w : Work) : (irq i w).d.age = w.d.age := by
  obtain ⟨h, o, e⟩ := irq_frame i w; rw [e]
@[simp] theorem irq_ptm (i : Nat) (w : Work) : (irq i w).d.ptm = w.d.ptm := by
  obtain ⟨h, o, e⟩ := irq_frame i w; rw [e]
@[simp] theorem irq_freeCtr (i : Nat) (w : Work) : (irq i w).d.freeCtr = w.d.freeCtr := by
  obtain ⟨h, o, e⟩ := irq_frame i w; rw [e]

/-! Writes of bank words. -/

theorem crcPage_frame (p : Nat) (w : Work) : ∃ c, crcPage p w = { w with d.mem.pageCrc := c } := by
  unfold crcPage; split <;> exact ⟨_, rfl⟩

theorem wr_frame (a : Nat) (v : Word) (w : Work) :
    ∃ o e c, wr a v w = { w with ops := o, d.mem.ecc := e, d.mem.pageCrc := c } := by
  unfold wr; split
  · obtain ⟨c, h⟩ := crcPage_frame (a / 256)
      { w with ops := .word a v :: w.ops, d.mem.ecc := tabSet 0 w.d.mem.ecc a 0 }
    exact ⟨_, _, c, h⟩
  · exact ⟨w.ops, w.d.mem.ecc, w.d.mem.pageCrc, rfl⟩

theorem wrs_frame (vs : List Word) : ∀ (a : Nat) (w : Work),
    ∃ o e c, wrs a vs w = { w with ops := o, d.mem.ecc := e, d.mem.pageCrc := c } := by
  induction vs with
  | nil => intro a w; exact ⟨w.ops, w.d.mem.ecc, w.d.mem.pageCrc, rfl⟩
  | cons v r ih =>
    intro a w
    obtain ⟨o, e, c, h⟩ := wr_frame a v w
    obtain ⟨o', e', c', h'⟩ := ih (a + 1) (wr a v w)
    exact ⟨o', e', c', by show wrs (a + 1) r (wr a v w) = _; rw [h', h]⟩

@[simp] theorem crcPage_ops (p : Nat) (w : Work) : (crcPage p w).ops = w.ops := by
  obtain ⟨c, h⟩ := crcPage_frame p w; rw [h]
@[simp] theorem crcPage_base (p : Nat) (w : Work) : (crcPage p w).base = w.base := by
  obtain ⟨c, h⟩ := crcPage_frame p w; rw [h]

/-- What a word reads as after one write. -/
theorem rd_wr (a : Nat) (v : Word) (w : Work) (x : Nat) :
    rd x (wr a v w) = if x = a ∧ isBank a = true ∧ groupOn a w = true then v else rd x w := by
  unfold wr rd
  by_cases hg : groupOn a w = true
  · rw [if_pos hg]
    simp only [crcPage_ops, crcPage_base, opsRead]
    by_cases hx : x = a <;> by_cases hb : isBank a = true <;> simp [hx, hb, hg]
  · rw [if_neg hg, if_neg (fun h => hg h.2.2)]

@[simp] theorem groupOn_wr (a b : Nat) (v : Word) (w : Work) : groupOn a (wr b v w) = groupOn a w := by
  obtain ⟨o, e, c, h⟩ := wr_frame b v w; rw [h]; rfl

/-- What a word reads as after a run of writes: the word of the run that stands there, where the address is a bank word
of a group that is on, and otherwise what it read before. -/
theorem rd_wrs (vs : List Word) : ∀ (a : Nat) (w : Work) (x : Nat),
    rd x (wrs a vs w)
      = if a ≤ x ∧ x < a + vs.length ∧ isBank x = true ∧ groupOn x w = true then vs.getD (x - a) 0 else rd x w := by
  induction vs with
  | nil => intro a w x; rw [if_neg (by simp; omega)]; rfl
  | cons v r ih =>
    intro a w x
    show rd x (wrs (a + 1) r (wr a v w)) = _
    rw [ih, rd_wr, groupOn_wr, List.length_cons]
    by_cases hx : x = a
    · subst hx
      rw [if_neg (by omega)]
      by_cases hb : isBank x = true ∧ groupOn x w = true
      · rw [if_pos ⟨rfl, hb⟩, if_pos ⟨by omega, by omega, hb⟩]; simp
      · rw [if_neg (fun h => hb h.2), if_neg (fun h => hb h.2.2)]
    · by_cases h1 : a + 1 ≤ x ∧ x < a + 1 + r.length ∧ isBank x = true ∧ groupOn x w = true
      · rw [if_pos h1, if_pos ⟨by omega, by omega, h1.2.2⟩]
        have : x - a = (x - (a + 1)) + 1 := by omega
        rw [this, List.getD_cons_succ]
      · rw [if_neg h1, if_neg (fun h => hx h.1), if_neg (fun h => h1 ⟨by omega, by omega, h.2.2⟩)]

/-- Reading a word of the state a command ends in is reading it through the command's effects. -/
theorem memRead_commit (s : State) (w : Work) (h : w.base = s.mem) (a : Nat) : memRead (commit s w).mem a = rd a w := by
  rw [commit_mem, memRead_memApply, rd, h]

/-! The event log. -/

theorem logEvent_frame (b : Blk) (i c x : Nat) (w : Work) : ∃ o e k n r v h m f,
    logEvent b i c x w = { w with
      ops := o, d.mem.ecc := e, d.mem.pageCrc := k, d.cmd.evWr := n, d.cmd.evRd := r, d.cmd.evOvr := v, d.hif := h, d.out := m
      d.freeCtr := f } := by
  unfold logEvent ptStamp freeN
  dsimp only
  split
  · obtain ⟨h, o, e⟩ := irq_frame 6 _
    rw [e]
    obtain ⟨h, o, e⟩ := irq_frame 5 _
    rw [e]
    obtain ⟨o, e, k, h⟩ := wrs_frame _ _ _
    rw [h]
    exact ⟨_, _, _, _, _, _, _, _, _, rfl⟩
  · obtain ⟨h, o, e⟩ := irq_frame 5 _
    rw [e]
    obtain ⟨o, e, k, h⟩ := wrs_frame _ _ _
    rw [h]
    exact ⟨_, _, _, _, _, _, _, _, _, rfl⟩

@[simp] theorem logEvent_variant (b : Blk) (i c x : Nat) (w : Work) :
    (logEvent b i c x w).variant = w.variant := by
  obtain ⟨_, _, _, _, _, _, _, _, _, e⟩ := logEvent_frame b i c x w; rw [e]
@[simp] theorem logEvent_base (b : Blk) (i c x : Nat) (w : Work) :
    (logEvent b i c x w).base = w.base := by
  obtain ⟨_, _, _, _, _, _, _, _, _, e⟩ := logEvent_frame b i c x w; rw [e]
@[simp] theorem logEvent_sys (b : Blk) (i c x : Nat) (w : Work) :
    (logEvent b i c x w).d.sys = w.d.sys := by
  obtain ⟨_, _, _, _, _, _, _, _, _, e⟩ := logEvent_frame b i c x w; rw [e]
@[simp] theorem logEvent_phase (b : Blk) (i c x : Nat) (w : Work) :
    (logEvent b i c x w).d.phase = w.d.phase := by
  obtain ⟨_, _, _, _, _, _, _, _, _, e⟩ := logEvent_frame b i c x w; rw [e]
@[simp] theorem logEvent_pln (b : Blk) (i c x : Nat) (w : Work) :
    (logEvent b i c x w).d.pln = w.d.pln := by
  obtain ⟨_, _, _, _, _, _, _, _, _, e⟩ := logEvent_frame b i c x w; rw [e]
@[simp] theorem logEvent_ce (b : Blk) (i c x : Nat) (w : Work) :
    (logEvent b i c x w).d.ce = w.d.ce := by
  obtain ⟨_, _, _, _, _, _, _, _, _, e⟩ := logEvent_frame b i c x w; rw [e]
@[simp] theorem logEvent_fd (b : Blk) (i c x : Nat) (w : Work) :
    (logEvent b i c x w).d.fd = w.d.fd := by
  obtain ⟨_, _, _, _, _, _, _, _, _, e⟩ := logEvent_frame b i c x w; rw [e]
@[simp] theorem logEvent_stp (b : Blk) (i c x : Nat) (w : Work) :
    (logEvent b i c x w).d.stp = w.d.stp := by
  obtain ⟨_, _, _, _, _, _, _, _, _, e⟩ := logEvent_frame b i c x w; rw [e]
@[simp] theorem logEvent_fp (b : Blk) (i c x : Nat) (w : Work) :
    (logEvent b i c x w).d.fp = w.d.fp := by
  obtain ⟨_, _, _, _, _, _, _, _, _, e⟩ := logEvent_frame b i c x w; rw [e]
@[simp] theorem logEvent_dq (b : Blk) (i c x : Nat) (w : Work) :
    (logEvent b i c x w).d.dq = w.d.dq := by
  obtain ⟨_, _, _, _, _, _, _, _, _, e⟩ := logEvent_frame b i c x w; rw [e]
@[simp] theorem logEvent_dqShown (b : Blk) (i c x : Nat) (w : Work) :
    (logEvent b i c x w).d.dqShown = w.d.dqShown := by
  obtain ⟨_, _, _, _, _, _, _, _, _, e⟩ := logEvent_frame b i c x w; rw [e]
@[simp] theorem logEvent_trl (b : Blk) (i c x : Nat) (w : Work) :
    (logEvent b i c x w).d.trl = w.d.trl := by
  obtain ⟨_, _, _, _, _, _, _, _, _, e⟩ := logEvent_frame b i c x w; rw [e]
@[simp] theorem logEvent_egv (b : Blk) (i c x : Nat) (w : Work) :
    (logEvent b i c x w).d.egv = w.d.egv := by
  obtain ⟨_, _, _, _, _, _, _, _, _, e⟩ := logEvent_frame b i c x w; rw [e]
@[simp] theorem logEvent_therm (b : Blk) (i c x : Nat) (w : Work) :
    (logEvent b i c x w).d.therm = w.d.therm := by
  obtain ⟨_, _, _, _, _, _, _, _, _, e⟩ := logEvent_frame b i c x w; rw [e]
@[simp] theorem logEvent_tdu (b : Blk) (i c x : Nat) (w : Work) :
    (logEvent b i c x w).d.tdu = w.d.tdu := by
  obtain ⟨_, _, _, _, _, _, _, _, _, e⟩ := logEvent_frame b i c x w; rw [e]
@[simp] theorem logEvent_grf (b : Blk) (i c x : Nat) (w : Work) :
    (logEvent b i c x w).d.grf = w.d.grf := by
  obtain ⟨_, _, _, _, _, _, _, _, _, e⟩ := logEvent_frame b i c x w; rw [e]
@[simp] theorem logEvent_hdg (b : Blk) (i c x : Nat) (w : Work) :
    (logEvent b i c x w).d.hdg = w.d.hdg := by
  obtain ⟨_, _, _, _, _, _, _, _, _, e⟩ := logEvent_frame b i c x w; rw [e]
@[simp] theorem logEvent_hvs (b : Blk) (i c x : Nat) (w : Work) :
    (logEvent b i c x w).d.hvs = w.d.hvs := by
  obtain ⟨_, _, _, _, _, _, _, _, _, e⟩ := logEvent_frame b i c x w; rw [e]
@[simp] theorem logEvent_mbx (b : Blk) (i c x : Nat) (w : Work) :
    (logEvent b i c x w).d.mbx = w.d.mbx := by
  obtain ⟨_, _, _, _, _, _, _, _, _, e⟩ := logEvent_frame b i c x w; rw [e]
@[simp] theorem logEvent_boot (b : Blk) (i c x : Nat) (w : Work) :
    (logEvent b i c x w).d.boot = w.d.boot := by
  obtain ⟨_, _, _, _, _, _, _, _, _, e⟩ := logEvent_frame b i c x w; rw [e]
@[simp] theorem logEvent_flash (b : Blk) (i c x : Nat) (w : Work) :
    (logEvent b i c x w).d.flash = w.d.flash := by
  obtain ⟨_, _, _, _, _, _, _, _, _, e⟩ := logEvent_frame b i c x w; rw [e]
@[simp] theorem logEvent_age (b : Blk) (i c x : Nat) (w : Work) :
    (logEvent b i c x w).d.age = w.d.age := by
  obtain ⟨_, _, _, _, _, _, _, _, _, e⟩ := logEvent_frame b i c x w; rw [e]
@[simp] theorem logEvent_ptm (b : Blk) (i c x : Nat) (w : Work) :
    (logEvent b i c x w).d.ptm = w.d.ptm := by
  obtain ⟨_, _, _, _, _, _, _, _, _, e⟩ := logEvent_frame b i c x w; rw [e]
@[simp] theorem logEvent_sems (b : Blk) (i c x : Nat) (w : Work) :
    (logEvent b i c x w).d.mem.sems = w.d.mem.sems := by
  obtain ⟨_, _, _, _, _, _, _, _, _, e⟩ := logEvent_frame b i c x w; rw [e]
@[simp] theorem logEvent_queues (b : Blk) (i c x : Nat) (w : Work) :
    (logEvent b i c x w).d.cmd.queues = w.d.cmd.queues := by
  obtain ⟨_, _, _, _, _, _, _, _, _, e⟩ := logEvent_frame b i c x w; rw [e]

/-- Where the record of an event goes, and what its words 1 to 3 hold. -/
theorem logEvent_words (b : Blk) (i c x : Nat) (w : Work) : ∃ v0,
    ∀ a, rd a (logEvent b i c x w)
      = rd a (wrs (w.d.cmd.evBase + 4 * w.d.cmd.evWr) [v0, w.d.phase.ncc,
          wd (put 28 8 (blkCode b) + put 16 12 i + put 0 16 c), wd x] { w with d.freeCtr := w.d.freeCtr + 1 }) := by
  refine ⟨wd (ptStamp w).1.toNat, fun a => ?_⟩
  unfold logEvent rd
  have h : (ptStamp w).2 = { w with d.freeCtr := w.d.freeCtr + 1 } := rfl
  dsimp only
  rw [h]
  split <;> simp only [irq_ops, irq_base]

/-- The indices of the event log after an event. -/
theorem logEvent_index (b : Blk) (i c x : Nat) (w : Work) :
    (logEvent b i c x w).d.cmd.evWr = (w.d.cmd.evWr + 1) % evLength w
    ∧ (logEvent b i c x w).d.cmd.evRd = (if (w.d.cmd.evWr + 1) % evLength w = w.d.cmd.evRd
        then (w.d.cmd.evRd + 1) % evLength w else w.d.cmd.evRd)
    ∧ (logEvent b i c x w).d.cmd.evOvr
        = (w.d.cmd.evOvr || decide ((w.d.cmd.evWr + 1) % evLength w = w.d.cmd.evRd)) := by
  have h : ∀ vs a (w : Work), (wrs a vs w).d.cmd = w.d.cmd := fun vs a w => by
    obtain ⟨_, _, _, e⟩ := wrs_frame vs a w; rw [e]
  unfold logEvent ptStamp freeN evLength
  dsimp only
  by_cases hf : (w.d.cmd.evWr + 1) % (256 * 2 ^ min w.d.cmd.evLen 8) = w.d.cmd.evRd
  · simp only [h, hf, beq_self_eq_true, if_true, irq_cmd]
    simp
  · have hb : ((w.d.cmd.evWr + 1) % (256 * 2 ^ min w.d.cmd.evLen 8) == w.d.cmd.evRd) = false := by simp [hf]
    simp only [h, hb, hf, Bool.false_eq_true, if_false, irq_cmd]
    simp

end Sys2Proof.Machine
end

