-- ==== Sys2Proof/Tests/Slice0.lean ====
section
/-! SUPPORT. Tests of this model: one ill-formed command for each check of WellFormed, the spec's worked examples, and for each
statement concrete states and operands that meet its hypotheses, with the outcome the statement gives there. -/

set_option Elab.async false

namespace Sys2Proof.Tests

open Sys2Proof Sys2Proof.Machine Sys2Proof.Claims

/-- The state after reset with other units. -/
def at0 (f : Dev → Dev) : State := { State.reset with dev := f State.reset.dev }

/-- A command answers a next state that passes a check. -/
def ends (c : Instr) (s : State) (p : State → Bool) : Bool := match exec c s with | .next t => p t | _ => false

/-- A command answers this next state. -/
def gives (c : Instr) (s t : State) : Bool := ends c s (fun x => x == t)

/-! Ill-formed commands, one for each check. -/

theorem test_ill_ecc : wellFormed (.fdMov 0 (.single 2 8192)) = false := by decide
theorem test_ill_head : wellFormed (.nop { phase := 1 }) = false := by decide
theorem test_ill_bytes : wellFormed (.ringFrameReceived false false 0 [256] false) = false := by decide
theorem test_ill_write_back : wellFormed (.eccWriteBack 0) = false := by decide
theorem test_ill_static_find : wellFormed (.scrubSweep [.page 0 0] 0) = false := by decide
theorem test_ill_dynamic_find : wellFormed (.dynamicScrub [.single 0x800000]) = false := by decide
theorem test_ill_eye : wellFormed (.ledgerHour [] [(false, 127, false, 0, 0)]) = false := by decide
theorem test_ill_frame : wellFormed (.blackChannelFrame 0 [0]) = false := by decide
theorem test_ill_coord : wellFormed (.moveCoord {} 0 [0] 0) = false := by decide
theorem test_ill_points : wellFormed (.ioWrite {} []) = false := by decide
theorem test_ill_read_points : wellFormed (.ioRead {} (List.replicate 13 0)) = false := by decide
theorem test_ill_values : wellFormed (.paramWrite {} 0 0 []) = false := by decide
theorem test_ill_fetch : wellFormed (.entryFetch 0 true []) = false := by decide
theorem test_ill_clear_read : wellFormed (.rcRead 0 0) = false := by decide
theorem test_ill_register : wellFormed (.registerWrite 0 0x400000 0) = false := by decide
theorem test_ill_pcie_write : wellFormed (.pcieMemoryWrite true 0 []) = false := by decide
theorem test_ill_pcie_read : wellFormed (.pcieMemoryRead true 0x1FFFFFF 2) = false := by decide
theorem test_ill_spi : wellFormed (.spiWrite false 0x800000 [0] false) = false := by decide
theorem test_ill_spi_late : wellFormed (.spiRead 0x400000 1 4 [1]) = false := by decide
theorem test_ill_graft : wellFormed (.graftFrameReceived false true [256]) = false := by decide
theorem test_ill_step : wellFormed (.discoverStep (.enumerate (some 127) none)) = false := by decide
theorem test_ill_image : wellFormed (.cfgLoaded { rate := 4 }) = false := by decide
theorem test_well_formed : wellFormed (.semRead 31 63) = true := by decide

/-! Numbers the spec works out. -/

/-- CRC-32C of the nine digits, the check value of the polynomial that R464 of spec/14 names. -/
theorem test_crc : crc32 0x1EDC6F41 [0x31, 0x32, 0x33, 0x34, 0x35, 0x36, 0x37, 0x38, 0x39] = 0xE3069283 := by decide +kernel

/-- The frame check of the nine digits, as R316 of spec/10 gives it. -/
theorem test_fcs : fcs [0x31, 0x32, 0x33, 0x34, 0x35, 0x36, 0x37, 0x38, 0x39] = 0xCBF43926 := by decide +kernel

/-- The judge's limits at AGE_PPM = 0 (spec/18 R547): 2,484 and 2,636. -/
theorem test_judge_low : windowPasses 0 2484 ∧ ¬ windowPasses 0 2483 := by unfold windowPasses; decide
theorem test_judge_high : windowPasses 0 2636 ∧ ¬ windowPasses 0 2637 := by unfold windowPasses; decide

/-- The built-in current table at 66 and 190 (spec/08, the worked example at C + 80). -/
theorem test_sine : builtInT 66 = 103282 ∧ builtInT 190 = 240939 := by decide +kernel

/-! The machine as a whole. -/

theorem test_idle : step State.reset = .next (at0 fun d => { d with ptm := { d.ptm with frc := 1 } }) := rfl
theorem witness_empty_queue : State.reset.pending = [] := rfl
theorem witness_idle_stopped : ({ (at0 fun d => { d with boot := { d.boot with start := .held } }) with
    pending := [] } : State).pending = [] := rfl
theorem witness_inv : Safety.Inv State.reset ∧ step State.reset = .next (at0 fun d => { d with
    ptm := { d.ptm with frc := 1 } }) := by
  refine ⟨?_, test_idle⟩
  unfold Safety.Inv; decide +kernel
theorem test_front : step { State.reset with pending := [.semRead 3 5] } = exec (.semRead 3 5) State.reset := rfl
theorem witness_stopped : actsAnyway (.semRead 3 5) = false
    ∧ gives (.semRead 3 5) (at0 fun d => { d with boot := { d.boot with start := .held } })
        (at0 fun d => { d with boot := { d.boot with start := .held } }) = true := by decide +kernel
theorem witness_dead : actsAnyway .syncPoint = false
    ∧ gives .syncPoint (at0 fun d => { d with boot := { d.boot with dead := true } })
        (at0 fun d => { d with boot := { d.boot with dead := true } }) = true := by decide +kernel
theorem test_decode : decodeTableWord 32 7 = none := rfl

/-! Event log, semaphores, mailboxes. -/

theorem witness_log : logReady State.reset := by
  intro k hk; revert k; decide +kernel
theorem witness_sem_free : live State.reset = true ∧ holder 63 State.reset = none
    ∧ ends (.semRead 31 63) State.reset (fun t => holder 63 t == some 31) = true := by decide +kernel
theorem witness_sem_held : ends (.semRead 0 0) (withHolder 0 (some 0) State.reset) (fun t =>
    t.dev.out == [.readData [0]] && holder 0 t == some 0) = true := by decide +kernel
theorem witness_sem_release : live (withHolder 63 (some 31) State.reset) = true
    ∧ holder 63 (withHolder 63 (some 31) State.reset) = some 31
    ∧ ends (.semWrite 31 63) (withHolder 63 (some 31) State.reset) (fun t => holder 63 t == none) = true := by
  decide +kernel
theorem witness_sem_foreign : holder 0 State.reset ≠ some 5 ∧ live State.reset = true
    ∧ ends (.semWrite 5 0) State.reset (fun t => t.dev.mem.sems == [] && t.dev.cmd.evWr == 1) = true := by decide +kernel
theorem witness_sem_force : live (withHolder 63 (some 9) State.reset) = true
    ∧ holder ((127 : Word).toNat % 64) (withHolder 63 (some 9) State.reset) = some 9
    ∧ ends (.semForceWrite 1 127) (withHolder 63 (some 9) State.reset) (fun t => holder 63 t == none) = true := by
  decide +kernel
theorem witness_sem_force_other : (1 : Nat) < (2 : Fin 32).val
    ∧ gives (.semForceWrite 2 0) (withHolder 0 (some 9) State.reset) (withHolder 0 (some 9) State.reset) = true := by
  decide +kernel

/-- Channel 3 bound to MID 0 and MID 9, with messages from A to B. -/
def mail (q : List (List Word)) (lost : Nat) : State := at0 fun d => { d with mbx := { d.mbx with
  chans := [(3, { valid := true, midA := 0, midB := 9, a := { queue := q, slost := lost, sd := [1, 2, 3, 4, 5, 6, 7, 8] } })] } }

theorem witness_mail_side : SideIs 0 3 false (mail [] 0) ∧ SideIs 9 3 true (mail [] 0) := by
  unfold SideIs; decide +kernel
theorem witness_mail_send : ends (.mbxSend 0 3 8) (mail [] 0) (fun t =>
    (channel 3 t).a.queue == [[1, 2, 3, 4, 5, 6, 7, 8]]) = true := by decide +kernel
theorem witness_mail_full : ends (.mbxSend 0 3 1) (mail [[1, 2, 3, 4, 5, 6, 7, 8]] 65535) (fun t =>
    (channel 3 t).a.slost == 65535 && (channel 3 t).a.queue == [[1, 2, 3, 4, 5, 6, 7, 8]]) = true := by decide +kernel
theorem witness_mail_length : ends (.mbxSend 0 3 9) (mail [] 0) (fun t => channel 3 t == channel 3 (mail [] 0))
    && ends (.mbxSend 0 3 0) (mail [] 0) (fun t => channel 3 t == channel 3 (mail [] 0)) = true := by decide +kernel
theorem witness_mail_pop : ends (.mbxPop 9 3) (mail [[7], [8]] 0) (fun t => (channel 3 t).a.queue == [[8]])
    && ends (.mbxPop 9 3) (mail [] 0) (fun t => (channel 3 t).a.queue == []) = true := by decide +kernel
theorem witness_mail_lock : live State.reset = true ∧ ends (.mbxLock 1) State.reset (fun t => t.dev.mbx.lock) = true := by
  decide +kernel

/-! Feedback ports. -/

/-- Port 7 as given. -/
def fport (x : FpPort) : State := withPort 7 x State.reset

/-- Port 7 as given, with its first index latch behind it. -/
def later (x : FpPort) : State := fport { x with needFirst := false }

theorem witness_quad : (port 7 (fport { mode := 3, cnt := -1, dir := true })).mode = 3
    ∧ ends (.quadEdge 7 ⟨true, 1⟩ ⟨false, 1⟩) (fport { mode := 3, cnt := 0, dir := true }) (fun t => (port 7 t).cnt == -1) = true := by
  decide +kernel
/-- A leads B: 00, 10, 11, 01 counts upward (spec/09 R295). -/
theorem test_quad_up : ends (.quadEdge 7 ⟨true, 1⟩ ⟨false, 1⟩) (fport { mode := 2, cnt := -1 }) (fun t => (port 7 t).cnt == 0)
    && ends (.quadEdge 7 ⟨true, 1⟩ ⟨true, 1⟩) (fport { mode := 2, cnt := 5, la := true }) (fun t => (port 7 t).cnt == 6) = true := by
  decide +kernel
theorem witness_quad_illegal : (port 7 (fport { mode := 2, qill := 65533 })).ill2 = none ∧ (65533 + 1 < 65535)
    ∧ ends (.quadEdge 7 ⟨true, 1⟩ ⟨true, 1⟩) (fport { mode := 2, qill := 65533 }) (fun t =>
        (port 7 t).qill == 65534 && (port 7 t).qerr && (port 7 t).cnt == 0 && t.dev.cmd.evWr == 1) = true := by decide +kernel
/-- FILT 3 asks for four samples: three of A are an excursion, and B alone has changed (spec/09 R293). -/
theorem test_quad_filter : ends (.quadEdge 7 ⟨true, 3⟩ ⟨true, 4⟩) (fport { mode := 2, filt := 3, cnt := 7 }) (fun t =>
      !(port 7 t).la && (port 7 t).lb && (port 7 t).cnt == 6)
    && gives (.quadEdge 7 ⟨true, 3⟩ ⟨true, 3⟩) (fport { mode := 2, filt := 3, cnt := 7 }) (fport { mode := 2, filt := 3, cnt := 7 }) = true := by
  decide +kernel
theorem witness_quad_illegal_again : ends (.quadEdge 7 ⟨true, 9⟩ ⟨true, 9⟩) (fport { mode := 2, qerr := true }) (fun t =>
    t.dev.cmd.evWr == 0 && (port 7 t).qill == 1) = true := by decide +kernel
/-- Sector 3 is H3 H2 H1 = 110 (spec/09 Table 9.2); the next of 5 is 0. -/
theorem witness_hall : (port 7 (fport { mode := 1, sector := 5 })).sector < 6
    ∧ (afterHall (port 7 (fport { mode := 1, sector := 5 })) 1).herr = false
    ∧ ends (.hallChange 7 ⟨1, 1, 0, 0⟩) (fport { mode := 1, sector := 5 }) (fun t =>
        port 7 t == afterHall (port 7 (fport { mode := 1, sector := 5 })) 1 && (port 7 t).cnt == 1) = true := by decide +kernel
/-- H2 has been high for 255 samples of the 256 that HFILT 255 asks for; H1 for 256. -/
theorem witness_hall_filter : takenHall 255 256 255 0 0 3 = 1 ∧ takenHall 255 255 255 255 5 2 = 5
    ∧ gives (.hallChange 7 ⟨3, 255, 255, 255⟩) (fport { mode := 1, hfilt := 255 }) (fport { mode := 1, hfilt := 255 }) := by
  decide +kernel
theorem witness_hall_bad : (afterHall (port 7 (fport { mode := 1 })) 7).herr ≠ (port 7 (fport { mode := 1 })).herr
    ∧ ends (.hallChange 7 ⟨7, 1, 1, 1⟩) (fport { mode := 1 }) (fun t =>
        port 7 t == afterHall (port 7 (fport { mode := 1 })) 7 && t.dev.cmd.evWr == 1) = true := by decide +kernel
theorem witness_index_first : (port 7 (fport { mode := 2, needFirst := true, cnt := 40 })).lz = false
    ∧ ends (.indexEdge 7 ⟨true, 1⟩) (fport { mode := 2, needFirst := true, cnt := 40 }) (fun t =>
        port 7 t == { mode := 2, cnt := 40, lz := true, idxl := 40, idxNew := true, idxf := 40, firstOk := true,
                      needFirst := false }) = true := by decide +kernel
theorem witness_index_gate : ends (.indexEdge 7 ⟨true, 1⟩) (later { mode := 3, zgate := true, la := true, lb := true, cnt := 9 }) (fun t => (port 7 t).idxl == 9) = true := by decide +kernel
theorem witness_index_short : gives (.indexEdge 7 ⟨true, 3⟩) (fport { mode := 2, filt := 3, cnt := 9 }) (fport { mode := 2, filt := 3, cnt := 9 }) = true := by
  decide +kernel
/-- Half a revolution is taken as plus CPR ÷ 2 (spec/09 R302). -/
theorem witness_index_tie : ends (.indexEdge 7 ⟨true, 1⟩) (later { mode := 2, cpr := 100, cnt := 150, idxWin := 50 }) (fun t => (port 7 t).idxd == 50 && !(port 7 t).drift) = true := by decide +kernel
theorem witness_index_drift : ends (.indexEdge 7 ⟨true, 1⟩) (later { mode := 2, cpr := 100, cnt := 51, idxWin := 48 }) (fun t => (port 7 t).idxd == BitVec.ofInt 25 (-49) && (port 7 t).drift) = true := by decide +kernel
theorem witness_speed : ends (.speedWindowEnd 7) (fport { mode := 2, spw := 1, cnt := -1 }) (fun t =>
      (port 7 t).spd == fRat (-100000) && (port 7 t).spde == -1 && (port 7 t).winBase == -1)
    && gives (.speedWindowEnd 7) (fport { cnt := 4 }) (fport { cnt := 4 }) = true := by decide +kernel
theorem witness_count_write : ends (.fpnCntWrite 7 5) (fport {}) (fun t => (port 7 t).cnt == 5)
    && gives (.fpnCntWrite 7 5) (fport { mode := 1 }) (fport { mode := 1 }) = true := by decide +kernel
theorem witness_rearm : ends (.idxRearm 7) (fport { needFirst := false }) (fun t => (port 7 t).needFirst) = true := by
  decide +kernel
theorem witness_port_config : fpInUse 7 (begin_ (fport { mode := 1, hall := 5, hcps := 10 })) = false
    ∧ ends (.fpnCfgWrite 7 3) (fport { mode := 1, hall := 5, hcps := 10, sector := 5 }) (fun t =>
        (port 7 t).mode == 3 && (port 7 t).cnt == 50) = true := by decide +kernel
theorem witness_port_config_hall : ends (.fpnCfgWrite 7 1) (fport { mode := 0, hall := 7, cnt := 4 }) (fun t =>
    (port 7 t).herr && (port 7 t).cnt == 4 && (port 7 t).mode == 1) = true := by decide +kernel
theorem witness_port_config_bad : ends (.fpnCfgWrite 7 3) (fport { mode := 1, hall := 7, hcps := 10, cnt := 4 }) (fun t =>
    (port 7 t).cnt == 0 && (port 7 t).herr) = true := by decide +kernel
theorem witness_port_config_busy : let s := withDev (fport { mode := 2, cnt := 4 }) { (fport { mode := 2, cnt := 4 }).dev with
      phase := { State.reset.dev.phase with src := { kind := 1, port := 7, axis := 0 } } }
    fpInUse 7 (begin_ s) = true
      ∧ ends (.fpnCfgWrite 7 0) s (fun t => (port 7 t).mode == 2 && (port 7 t).cnt == 4) = true := by decide +kernel

/-! Queues and the log's registers. -/

/-- Queue 2 as given, alone, in CONFIG. -/
def q2 (x : Queue) : State := at0 fun d => { d with sys := { d.sys with st := .config }, cmd := { d.cmd with queues := [(2, x)] } }

theorem witness_tail : ends (.cmdqTailWrite 0 2 256) (q2 {}) (fun t => (queue 2 t).tail == 256)
    && ends (.cmdqTailWrite 0 2 257) (q2 {}) (fun t => (queue 2 t).tail == 0) = true := by decide +kernel
theorem witness_tail_port : (1 : Fin 32).val ≠ ownerOf 2 ∧ ends (.cmdqTailWrite 1 2 5) (q2 {}) (fun t =>
    (queue 2 t).tail == 0 && t.dev.cmd.evWr == 1) = true := by decide +kernel
theorem witness_release : (slot 2 255 (q2 { slots := [(255, { status := 0, released := false, gen := 9 })] })).status ≠ 1
    ∧ ends (.cmdqRelWrite 0 2 255) (q2 { slots := [(255, { status := 0, released := false, gen := 9 })] }) (fun t =>
        slot 2 255 t == { status := 1, gen := 9 }) = true := by decide +kernel
theorem witness_release_pending : (slot 2 0 (q2 { slots := [(0, { released := false })] })).status = 1
    ∧ ends (.cmdqRelWrite 0 2 0) (q2 { slots := [(0, { released := false })] }) (fun t =>
        !(slot 2 0 t).released && t.dev.cmd.evWr == 1) = true := by decide +kernel
theorem witness_queue_on : ends (.cmdqCtlWrite 2 7) (q2 { head := 3, tail := 4, slots := [(9, { status := 0, released := false })] }) (fun t =>
    (queue 2 t).en && (queue 2 t).loc && (queue 2 t).rmir && (queue 2 t).tail == 0 && (slot 2 9 t).released) = true := by
  decide +kernel
theorem witness_queue_off : ends (.cmdqCtlWrite 2 6) (q2 { en := true, head := 3, tail := 4 }) (fun t =>
    !(queue 2 t).en && !(queue 2 t).loc && (queue 2 t).tail == 4) = true := by decide +kernel
theorem witness_fetch : ends (.entryFetch 2 true (List.replicate 64 7)) (q2 { en := true, loc := true, tail := 1 }) (fun t =>
      (queue 2 t).fetched == some (List.replicate 64 7))
    && ends (.entryFetch 2 false []) (q2 { en := true, loc := true, tail := 1 }) (fun t => (queue 2 t).dmaErr && (queue 2 t).head == 0)
    && ends (.dmaErrClear 2) (q2 { dmaErr := true }) (fun t => !(queue 2 t).dmaErr) = true := by decide +kernel

/-- Queue 2 with a NOP of SEQ 5 in its entry 255, behind an earlier packet of the queue. -/
def waiting : State := { q2 { en := true, head := 255, tail := 256, baseL := 0x410000 } with
  mem := [(0x410000 + 64 * 255, 0x500)], dev := { (q2 {}).dev with cmd := { (q2 {}).dev.cmd with
    queues := [(2, { en := true, head := 255, tail := 256, baseL := 0x410000 })], dispatch := [{ q := 2 }] } } }

theorem witness_dequeue : ReadyAlone 2 waiting ∧ ends .dequeue waiting (fun t => (queue 2 t).head == 256
    && (slot 2 255 t).seq == 5 && (slot 2 255 t).gen == 1 && t.dev.cmd.dispatch.length == 2) = true := by
  unfold ReadyAlone; decide +kernel
theorem witness_log_read : ends (.cmdEvrdWrite 0xFFFF) State.reset (fun t => t.dev.cmd.evRd == 255) = true := by decide +kernel
theorem witness_log_config : ends (.eventLogConfigWrite true 8) (q2 {}) (fun t => t.dev.cmd.evLen == 8 && t.dev.cmd.evBase == 0x7C0000)
    && gives (.eventLogConfigWrite true 8) State.reset State.reset = true := by decide +kernel

/-! Command packets. -/

/-- One servo axis with every limit at one, an energy model and a page it may be enabled with; the axis disabled. -/
def servo0 : PlnAxis := { params := ([0x100, 0x101, 0x102, 0x103, 0x104, 0x105, 0x106, 0x107, 0x108, 0x110, 0x111, 0x115, 0x116].map (fun n => (n, 0x3F800000))) }

/-- RUN with the cycle timer on, one servo axis, queue 0 enabled and the governor off. -/
def run0 : State := { variant := .vx1284, pending := [], mem := [(0x400001, 1), (0x400002, 0x3F800000), (0x400003, 0xBF800000), (0x400009, 0x3F800000), (0x400029, 0x1011)], dev := { State.reset.dev with sys := { State.reset.dev.sys with st := .run, cycOn := true }, cmd := { State.reset.dev.cmd with queues := [(0, { en := true })] }, egv := { State.reset.dev.egv with on := false }, ce := { State.reset.dev.ce with imgBase := 0x400000 }, pln := { State.reset.dev.pln with axes := [(0, servo0)] } } }

/-- The same with other units. -/
def in0 (f : Dev → Dev) : State := { run0 with dev := f run0.dev }

/-- Axis 0 at standstill under power. -/
def on0 (f : Dev → Dev) : State := in0 fun d => f { d with pln := { d.pln with axes := [(0, { servo0 with kind := .hold })] }, ce := { d.ce with axes := [(0, { enabled := true })] } }

/-- The same with the governor on. -/
def gov0 (f : Dev → Dev) : State := on0 fun d => f { d with egv := { d.egv with on := true, peakW := 0x49742400, winJ := 0x49742400, winMs := 1 } }

/-- The slot of entry 0 of queue 0 shows a status and this number of result words. -/
def shows (status words : Nat) (t : State) : Bool := (slot 0 0 t).status == status && (slot 0 0 t).res.length == words

/-- One effect is admitted, for a time. -/
def awaits (op : Nat) (time : When) (t : State) : Bool := t.dev.cmd.effects.map (fun e => (e.op, e.time)) == [(op, time)]

/-- An output point 9 of node 5 and an input point 10. -/
def img0 : Image := { nodes := [{ id := 5, points := [{ index := 9, output := true, width := 4 }, { index := 10, width := 36 }] }] }

theorem witness_nop : Served 0x000 {} [] run0 ∧ Passes 0x000 {} [] run0
    ∧ ends (.nop {}) run0 (shows 0 0) ∧ ends (.nop { noResult := true }) run0 (fun t => (slot 0 0 t).released) := by
  unfold Served Passes; decide +kernel
theorem witness_status_read : Served 0x201 {} [] run0 ∧ Passes 0x201 {} [] run0 ∧ ends (.safeStatusRead {}) run0 (shows 0 8) := by
  unfold Served Passes; decide +kernel
theorem witness_ledger_read : Served 0x240 {} [0x400000, 1] run0 ∧ Passes 0x240 {} [0x400000, 1] run0
    ∧ ends (.ledgerRead {} 0x400000 1) run0 (fun t => (slot 0 0 t).status == 0) := by unfold Served Passes; decide +kernel
theorem witness_journal_read : Served 0x241 {} [0, 1] run0 ∧ Passes 0x241 {} [0, 1] run0
    ∧ ends (.journalRead {} 0 1) run0 (fun t => (slot 0 0 t).status == 0) := by unfold Served Passes; decide +kernel
theorem witness_param_read : Served 0x181 {} [1 <<< 32, 0x100, 2] run0 ∧ Passes 0x181 {} [1 <<< 32, 0x100, 2] run0
    ∧ nodeCmd 0x181 [1 <<< 32, 0x100, 2] = false ∧ ends (.paramRead {} (1 <<< 32) 0x100 2) run0 (fun t =>
      (slot 0 0 t).res == [0x3F800000, 0x3F800000]) := by unfold Served Passes; decide +kernel

/-- The same state with a map. -/
def map0 : State := in0 fun d => { d with trl := { d.trl with img := some img0 } }

theorem witness_io_read : Served 0x101 {} [10] map0 ∧ Passes 0x101 {} [10] map0
    ∧ ends (.ioRead {} [10]) map0 (shows 0 1) := by unfold Served Passes; decide +kernel
/-- The increment is added to the plant time and the result words are the counter (spec/20 R604). -/
theorem witness_pt_adjust : Served 0x003 {} [0, 5, 7] run0 ∧ Passes 0x003 {} [0, 5, 7] run0
    ∧ ends (.ptAdjust {} 0 5 7) run0 (fun t => shows 0 2 t && t.dev.ptm.ofs == 5 && t.dev.ptm.rate == 7) := by
  unfold Served Passes; decide +kernel

theorem witness_enable : Served 0x040 {} [0] run0 ∧ Passes 0x040 {} [0] run0 ∧ generalRoom 0x040 [0] (atAdmission 0x040 {} [0] run0) = true
    ∧ ends (.axisEnable {} 0) run0 (awaits 0x040 (.at 2)) := by unfold Served Passes; decide +kernel
theorem witness_disable : Passes 0x041 {} [0] (on0 id) ∧ ends (.axisDisable {} 0) (on0 id) (awaits 0x041 (.at 2)) := by
  unfold Passes; decide +kernel
theorem witness_fault_clear : Passes 0x048 {} [0] run0 ∧ ends (.faultClear {} 0) run0 (awaits 0x048 (.at 2)) := by
  unfold Passes; decide +kernel
theorem witness_load_class : Passes 0x049 {} [0, 7] run0 ∧ ends (.loadClass {} 0 7) run0 (awaits 0x049 (.at 2))
    ∧ ends (.loadClass {} 0 8) run0 (shows 0x11 0) := by unfold Passes; decide +kernel
theorem witness_gear : Passes 0x080 {} [1 <<< 32, 3 <<< 32, 0, 1, 0] (on0 id)
    ∧ slowOp 0x080 [1 <<< 32, 3 <<< 32, 0, 1, 0] = false
    ∧ ends (.gearEngage {} (1 <<< 32) (3 <<< 32) 0 1 0) (on0 id) (awaits 0x080 (.at 2)) := by unfold Passes; decide +kernel
theorem witness_gear_off : Passes 0x082 {} [1 <<< 32] (on0 id) ∧ ends (.gearDisengage {} (1 <<< 32)) (on0 id) (awaits 0x082 (.at 2)) := by
  unfold Passes; decide +kernel
theorem witness_disarm : Passes 0x1C1 {} [7] run0 ∧ ends (.harvestDisarm {} 7) run0 (awaits 0x1C1 (.at 2)) := by
  unfold Passes; decide +kernel
theorem witness_param_write : Passes 0x180 {} [1 <<< 32, 0x120, 0] run0 ∧ cmdCls [1 <<< 32, 0x120, 0] = some .a
    ∧ ends (.paramWrite {} (1 <<< 32) 0x120 [0]) run0 (awaits 0x180 (.at 2)) := by unfold Passes; decide +kernel

/-- COMMISSION. -/
def comm0 : State := in0 fun d => { d with sys := { d.sys with st := .commission }, egv := { d.egv with on := true } }

theorem witness_governor_off : Served 0x280 {} [0] comm0 ∧ Passes 0x280 {} [0] comm0
    ∧ ends (.egvMode {} 0) comm0 (awaits 0x280 (.at 2)) := by unfold Served Passes; decide +kernel
theorem witness_stops : Served 0x046 {} [0] (on0 id) ∧ Passes 0x046 {} [0] (on0 id) ∧ Passes 0x047 {} [0x3FF] (on0 id)
    ∧ ends (.stop {} 0) (on0 id) (awaits 0x046 (.at 2)) ∧ ends (.quickStop {} 0x3FF) (on0 id) (awaits 0x047 (.at 2)) := by
  unfold Served Passes; decide +kernel

/-- The stepper 1024, local, with limits of one. -/
def stp0 : StpAxis := { vmax := 0x3F800000, amax := 0x3F800000, dmax := 0x3F800000, jmax := 0x3F800000 }

/-- RUN with stepper 1024 as given. -/
def st0 (x : StpAxis) : State := in0 fun d => { d with stp := { d.stp with axes := [(1024, x)] } }

/-- Axis 0 under power and the virtual master running. -/
def ph0 (f : Dev → Dev) : State := on0 fun d => f { d with phase := { d.phase with vmRate := 1, vmInForce := 1 } }

/-- A harvest area at 0x420000, its set 7 with a descriptor of one signal and two samples. -/
def hv0 : State := { in0 (fun d => { d with hvs := { d.hvs with dbase := 0x420000, blen := 2 } }) with
  mem := [(0x420380, 0x800000000), (0x4203C0, 1), (0x4203C2, 2)] }

/-- One open bundle of queue 0 with these members. -/
def bun0 (l : List Effect) : State := ph0 fun d => { d with cmd := { d.cmd with bundles := [{ expected := 1, members := l }], nextBundle := 1 } }

/-- A member of the bundle, without a servo move. -/
def mem0 : Effect := { op := 0x049, ps := [0, 3], time := .bundle, bundle := some 0 }

theorem witness_step_enable : Passes 0x0C0 {} [1024, 1, 0] (st0 stp0) ∧ SlowIs 1 (st0 stp0) ∧ slowOp 0x0C0 [1024, 1, 0] = true
    ∧ ends (.stepEnable {} 1024 1 0) (st0 stp0) (awaits 0x0C0 (.at 2)) := by unfold Passes SlowIs; decide +kernel
theorem witness_step_move : Passes 0x0C1 {} [1024, 0, 0] (st0 { stp0 with pwr := true })
    ∧ ends (.stepMove {} 1024 0 0) (st0 { stp0 with pwr := true }) (awaits 0x0C1 (.at 2)) := by unfold Passes; decide +kernel
theorem witness_step_vel : Passes 0x0C2 {} [1024, 0, 0] (st0 { stp0 with pwr := true })
    ∧ ends (.stepVel {} 1024 0 0) (st0 { stp0 with pwr := true }) (awaits 0x0C2 (.at 2)) := by unfold Passes; decide +kernel
theorem witness_step_stop : Passes 0x0C3 {} [1024] (st0 stp0) ∧ ends (.stepStop {} 1024) (st0 stp0) (awaits 0x0C3 (.at 2)) := by
  unfold Passes; decide +kernel
theorem witness_io_write : Served 0x100 {} [9, 15] map0 ∧ Passes 0x100 {} [9, 15] map0
    ∧ ends (.ioWrite {} [(9, 15)]) map0 (awaits 0x100 (.at 2))
    ∧ ends (.ioWrite {} [(9, 16)]) map0 (shows 0x11 0) := by unfold Served Passes; decide +kernel
theorem witness_mask_load : Served 0x1C2 {} [0, 0, 0x400000, 1] run0 ∧ Passes 0x1C2 {} [0, 0, 0x400000, 1] run0
    ∧ ends (.maskLoad {} 0 0 0x400000 1) run0 (shows 0 0) := by unfold Served Passes; decide +kernel
theorem witness_arm : Served 0x1C0 {} [7, 0] hv0 ∧ Passes 0x1C0 {} [7, 0] hv0
    ∧ ends (.harvestArm {} 7 0) hv0 (awaits 0x1C0 (.at 2)) := by unfold Served Passes; decide +kernel
/-- MPH(k + 2) is 16 here: a phase at it is passed, the next is ahead (spec/04 R110). -/
theorem witness_phased : Served 0x041 { phased := true, phase := 17 } [0] (ph0 id)
    ∧ Passes 0x041 { phased := true, phase := 17 } [0] (ph0 id)
    ∧ phaseAhead false 17 (atAdmission 0x041 { phased := true, phase := 17 } [0] (ph0 id)) = true
    ∧ phaseAhead false 16 (atAdmission 0x041 { phased := true, phase := 16 } [0] (ph0 id)) = false
    ∧ ends (.axisDisable { phased := true, phase := 17 } 0) (ph0 id) (awaits 0x041 (.phase 17)) := by
  unfold Served Passes; decide +kernel
/-- A rest-to-rest move over no distance: its curve is empty, and the governor places it without delay. -/
theorem witness_move : Served 0x042 {} [0, 0, 0] (gov0 id) ∧ Passes 0x042 {} [0, 0, 0] (gov0 id) ∧ Passes 0x043 {} [0, 0, 0] (gov0 id)
    ∧ Passes 0x044 {} [0, 0, 0] (gov0 id) := by unfold Served Passes; decide +kernel
theorem witness_move_coord : let s := gov0 fun d => { d with pln := { d.pln with axes := [(0, { servo0 with kind := .hold }), (1, { servo0 with kind := .hold })] } }
    Served 0x045 {} [0x100000100, 0, 0, 0] s ∧ Passes 0x045 {} [0x100000100, 0, 0, 0] s := by unfold Served Passes; decide +kernel
theorem witness_move_placed : (match egvPlace (curveAt [(0x042, [0, 0, 0])] (cycleIn 2 (gov0 id)) (atAdmission 0x042 {} [0, 0, 0] (gov0 id)))
        (cycleIn 2 (gov0 id)) (slackCycles 0x042 [0, 0, 0] (atAdmission 0x042 {} [0, 0, 0] (gov0 id)))
        (atAdmission 0x042 {} [0, 0, 0] (gov0 id)) with | .inl d => d == 0 | .inr _ => false) = true := by decide +kernel
theorem witness_move_phased : let s := gov0 fun d => { d with phase := { d.phase with vmRate := 1, vmInForce := 1 } }
    let h : PktHead := { phased := true, phase := 1000 }
    Served 0x042 h [0, 0, 0] s ∧ Passes 0x042 h [0, 0, 0] s
      ∧ predictAt false 1000 (atAdmission 0x042 h [0, 0, 0] s) = some 125
      ∧ clusterRoom 1 0 1000 (atAdmission 0x042 h [0, 0, 0] s) = true := by unfold Served Passes; decide +kernel
theorem witness_bundle_open : Served 0x140 {} [1] run0 ∧ Passes 0x140 {} [1] run0 ∧ openBundle 0 (begin_ run0) = none
    ∧ ends (.bundleOpen {} (some 1)) run0 (fun t => shows 0 0 t && t.dev.cmd.bundles == [{ expected := 1 }]) := by
  unfold Served Passes; decide +kernel
theorem witness_bundle_member : Served 0x049 { inBundle := true } [0, 3] (bun0 [])
    ∧ Passes 0x049 { inBundle := true } [0, 3] (bun0 []) ∧ openBundle 0 (begin_ (bun0 [])) = some { expected := 1 }
    ∧ memberClash { expected := 1 } 0x049 [0, 3] (atAdmission 0x049 { inBundle := true } [0, 3] (bun0 [])) = none
    ∧ ends (.loadClass { inBundle := true } 0 3) (bun0 []) (fun t =>
        t.dev.cmd.bundles.map (fun b => b.members.length) == [1] && t.dev.cmd.effects == []) := by unfold Served Passes; decide +kernel
theorem witness_bundle_abort : Served 0x142 {} [] (bun0 [mem0]) ∧ Passes 0x142 {} [] (bun0 [mem0])
    ∧ ends (.bundleAbort {}) (bun0 [mem0]) (fun t => shows 0 0 t && t.dev.cmd.bundles == []) := by
  unfold Served Passes; decide +kernel
theorem witness_bundle_commit : let h : PktHead := { phased := true, phase := 100000 }
    let b : Bundle := { expected := 1, members := [mem0] }
    let w := atAdmission 0x141 h [] (bun0 [mem0])
    Served 0x141 h [] (bun0 [mem0]) ∧ Passes 0x141 h [] (bun0 [mem0]) ∧ openBundle 0 (begin_ (bun0 [mem0])) = some b
      ∧ commitAhead b 100000 w = true ∧ clusterRoom 0 0 100000 w = true ∧ stagingInTime b 100000 0 w = true
      ∧ ends (.bundleCommit h) (bun0 [mem0]) (fun t => t.dev.cmd.bundles.map (fun b => b.state) == [.staging]) := by
  unfold Served Passes; decide +kernel
theorem witness_test_state : let s := in0 fun d => { d with sys := { d.sys with st := .config } }
    Served 0x001 {} [9] s ∧ Passes 0x001 {} [9] s ∧ ends (.stateRequest {} 9) s (fun t => shows 0 0 t && t.dev.sys.st == .test) := by
  unfold Served Passes; decide +kernel
theorem witness_mode_switch : let s := in0 fun d => { d with trl := { d.trl with modes := [(1, { valid := true })] } }
    Served 0x002 {} [1, 8] s ∧ Passes 0x002 {} [1, 8] s
      ∧ ends (.modeSwitch {} 1 8) s (fun t => (t.dev.trl.prop.map (fun p => p.n)) == some 8) := by unfold Served Passes; decide +kernel
/-- A geared axis. -/
def geared0 : State := on0 fun d => { d with pln := { d.pln with axes := [(0, { servo0 with kind := .geared, params := servo0.params ++ [(0x10D, 0x40000000)], gear := some { master := { kind := 3 }, n := 1 } })] } }
/-- A MOVE_REL superposed on gearing carries no curve (spec/05 R178), governor on. -/
theorem witness_superposed : let s := { geared0 with dev := { geared0.dev with egv := { geared0.dev.egv with on := true, peakW := 0x49742400, winJ := 0x49742400, winMs := 1 } } }
    Served 0x043 {} [0, 5, 0] s ∧ Passes 0x043 {} [0, 5, 0] s ∧ Room 0x043 {} [0, 5, 0] s
      ∧ curvedMove 0x043 [0, 5, 0] (.at (cycleIn 2 s)) (atAdmission 0x043 {} [0, 5, 0] s) = false
      ∧ ends (.moveRel {} 0 5 0) s (awaits 0x043 (.at 2)) := by unfold Served Passes Room; decide +kernel
theorem witness_ratio : Served 0x081 {} [1 <<< 32, 1000, 1, 1, 0] geared0 ∧ Passes 0x081 {} [1 <<< 32, 1000, 1, 1, 0] geared0
    ∧ ratioSigma [1 <<< 32, 1000, 1, 1, 0] (atAdmission 0x081 {} [1 <<< 32, 1000, 1, 1, 0] geared0) ≠ 0
    ∧ ends (.gearRatioAt {} (1 <<< 32) 1000 1 1 0) geared0 (awaits 0x081 (.master 1000)) := by unfold Served Passes; decide +kernel
/-- Axis 0 with the brake of connection 5. -/
def brk0 : State := on0 fun d => { d with hdg := { d.hdg with hrstN := true, conns := [(5, { alive := true })] }, pln := { d.pln with axes := [(0, { servo0 with kind := .hold, params := servo0.params ++ [(0x120, 0x3F800000)] })] }, trl := { d.trl with img := some { img0 with brakes := [(true, 5, 0)] } } }
theorem witness_brake_request : Served 0x200 {} [0x100] brk0 ∧ Passes 0x200 {} [0x100] brk0
    ∧ ends (.brakeTestReq {} 0x100) brk0 (fun t => shows 2 0 t && (t.dev.hdg.btCmd.map (fun x => x.2)) == some 0) := by
  unfold Served Passes; decide +kernel
/-- Node 5 of ring A present, with an ACYC entry of four pairs in every cycle of mode 0. -/
def nod0 : State := { in0 (fun d => { d with trl := { d.trl with base := 0x430000, modes := [(0, { valid := true, count := 1 })], img := some img0 }, dq := [(0, { nodes := [(5, { present := true })] })] }) with
  mem := [(0x430000, 0x854400000), (0x430001, 0x4000)] }
theorem witness_node_read : Served 0x181 {} [4 <<< 32 ||| 5, 0x100, 1] nod0 ∧ Passes 0x181 {} [4 <<< 32 ||| 5, 0x100, 1] nod0
    ∧ nodeCmd 0x181 [4 <<< 32 ||| 5, 0x100, 1] = true
    ∧ ends (.paramRead {} (4 <<< 32 ||| 5) 0x100 1) nod0 (fun t => shows 2 0 t && t.dev.cmd.xfers.length == 1) := by
  unfold Served Passes; decide +kernel

/-! Resets, start-up, flash and clocks. -/

/-- A state with something in memory, queues and semaphores. -/
def used0 : State := withHolder 5 (some 0) { (in0 fun d => { d with boot := { d.boot with agePpm := 9 }, mem := { d.mem with ueValid := true, ueAddr := 77 }, cmd := { d.cmd with queues := [(0, { en := true }), (4, { en := true })] } }) with mem := [(0x400000, 3)] }

theorem witness_whole : keyed 0x5A0000001 ∧ ¬ keyed 0x5B0000001 ∧ ends (.sysRstWhole 0x5A0000001) used0 (fun t =>
      t.dev.sys.rstCause == 2 && t.dev.sys.prev == .run && t.dev.sys.st == .off && memRead t.mem 0x400000 == 0
        && t.dev.boot.agePpm == 9 && t.dev.mem.ueAddr == 77 && t.dev.mem.sems == [])
    ∧ gives (.sysRstWhole 0x5B0000001) used0 used0 := by unfold keyed; decide +kernel
theorem witness_power_on : ends .porstNLow used0 (fun t => t.dev.boot.start == .held && t.dev.boot.agePpm == 0)
    && ends .vddMonitor used0 (fun t => t.dev.boot.start == .settle && t.dev.sys.rstCause == 0) = true := by decide +kernel
theorem witness_trip : ends .thermalTrip used0 (fun t => t.dev.boot.start == .held && t.dev.boot.tripped && t.dev.sys.rstCause == 3) = true := by
  decide +kernel
theorem witness_perst : ends .perstNLow (withBoot { used0.dev.boot with perstWhole := true } used0) (fun t => t.dev.sys.rstCause == 1)
    && ends .perstNLow (withBoot { used0.dev.boot with perstWhole := false } used0) (fun t => t.dev.sys.st == .run && !(queue 0 t).en && (queue 4 t).en && holder 5 t == none) = true := by
  decide +kernel
theorem witness_side_reset : live used0 = true ∧ ends .pcieSideReset (withHolder 6 (some 1) used0) (fun t =>
    holder 6 t == some 1 && !t.dev.hif.msixEn) = true := by decide +kernel
theorem witness_unit_reset : let s := at0 fun d => { d with sys := { d.sys with st := .test }, dq := [(1, { found := 4 })], grf := { d.grf with cap := 4 } }
    ends (.sysRstUnit 0x5A0000010) s (fun t => t.dev.dq == [] && t.dev.grf.cap == 4)
      && gives (.sysRstUnit 0x590000010) s s && gives (.sysRstUnit 0x5A0000010) used0 used0 = true := by decide +kernel
theorem witness_stopped_clock : gives .xoFailure State.reset (withBoot { State.reset.dev.boot with dead := true } State.reset)
    && ends .refclkLoss (withBoot { used0.dev.boot with refsrc := true, refLock := true } used0) (fun t => t.dev.boot.refLost && !t.dev.boot.refLock)
    && ends .thermalTripEnd (withBoot { used0.dev.boot with tripped := true, start := .held } used0) (fun t => t.dev.boot.start == .settle) = true := by
  decide +kernel

/-- The device at a step of its start-up. -/
def starting (f : BootSt → BootSt) : State := at0 fun d => { d with sys := { d.sys with st := .off }, boot := f d.boot }

theorem witness_release_pin : ends (.porstNRelease 15 3) (starting fun b => { b with start := .held }) (fun t =>
    t.dev.boot.strapUnit == 15 && t.dev.boot.start == .settle) = true := by decide +kernel
/-- A thermal trip holds the device through a rise of PORST_N and the supply monitor (spec/01 R30). -/
theorem witness_trip_holds : let s := starting fun b => { b with start := .held, tripped := true }
    ends (.porstNRelease 1 0) s (fun t => t.dev.boot.start == .held && t.dev.boot.tripped)
      && ends .vddMonitor s (fun t => t.dev.boot.start == .held && t.dev.boot.tripped)
      && ends .porstNLow s (fun t => t.dev.boot.start == .held && t.dev.boot.tripLow)
      && ends .thermalTripEnd (starting fun b => { b with start := .held, tripped := true, tripLow := true }) (fun t => t.dev.boot.start == .held && !t.dev.boot.tripped) = true := by decide +kernel
theorem witness_settle : ends .rcSettleEnd (starting fun b => { b with start := .settle, passes := 3 }) (fun t =>
    t.dev.boot.passes == 0 && t.dev.boot.start == .judge) = true := by decide +kernel
theorem witness_judge_pass : windowPasses 0 2560 ∧ ends (.judgeWindow 2560) (starting fun b => { b with start := .judge, passes := 7, agePpm := 0 }) (fun t =>
    t.dev.boot.start == .locking) = true := by unfold windowPasses; decide +kernel
theorem witness_judge_fail : ¬ windowPasses 0 0 ∧ ends (.judgeWindow 0) (starting fun b => { b with start := .judge, fails := 6, passes := 7 }) (fun t =>
      t.dev.boot.fails == 7 && t.dev.boot.passes == 0)
    ∧ ends (.judgeWindow 0) (starting fun b => { b with start := .judge, fails := 7 }) (fun t =>
      t.dev.sys.st == .bootHold && t.dev.boot.holdStat == 3) := by unfold windowPasses; decide +kernel
theorem witness_locked : ends .pllLocked (starting fun b => { b with start := .locking }) (fun t =>
    t.dev.boot.start == .clearing && t.dev.mem.clrBusy == 0xFF) = true := by decide +kernel
/-- The last group to clear. -/
def clearing7 (m : Nat) : State := at0 fun d => { d with sys := { d.sys with st := .off }, boot := { d.boot with start := .clearing, strapMode := m }, mem := { d.mem with clrBusy := 0x80 } }
theorem witness_cleared : (∀ k : Fin 8, k ≠ 7 → (clearing7 1).dev.mem.clrBusy.getLsbD k = false)
    ∧ ends (.bankClearDone 7) (clearing7 1) (fun t => t.dev.sys.st == .boot && t.dev.boot.bootOk)
    ∧ ends (.bankClearDone 7) (clearing7 3) (fun t => t.dev.sys.st == .bootHold && t.dev.boot.holdStat == 7) := by decide +kernel

/-- BOOT with a boot mode. -/
def booting (m : Nat) (f : BootSt → BootSt) : State := at0 fun d => { d with boot := f { d.boot with bootMode := m, verified := false } }

theorem witness_image : ends (.bootImageCheck true) (booting 0 fun b => { b with img0Bad := true }) (fun t => t.dev.boot.verified && t.dev.boot.image)
    && ends (.bootImageCheck false) (booting 0 id) (fun t => t.dev.boot.img0Bad && t.dev.sys.st == .boot)
    && ends (.bootImageCheck false) (booting 1 fun b => { b with img0Bad := true }) (fun t => t.dev.sys.st == .bootHold)
    && ends (.bootImageCheck true) (booting 2 fun b => { b with go := true }) (fun t => t.dev.boot.verified)
    && ends (.bootImageCheck false) (booting 2 fun b => { b with go := true }) (fun t => t.dev.boot.holdStat == 7)
    && gives (.bootImageCheck true) (booting 2 id) (booting 2 id) = true := by decide +kernel
theorem witness_go : ends .go (booting 2 id) (fun t => t.dev.boot.go) && ends .goTimeout (booting 2 id) (fun t => t.dev.boot.holdStat == 7) = true := by
  decide +kernel
theorem witness_reload : ends (.reload 0x800000) (q2 {}) (fun t => t.dev.boot.cfgBusy) && gives (.reload 0) (q2 {}) (q2 {}) = true := by
  decide +kernel

/-- A flash whose last pointer entry names slot 0, where an image of no words lies. -/
def slotFlash : FlashSt := { cells := [(0x800004, 0)] ++ ((List.range 10).map (fun k => (0x900000 + k, if k == 4 then 9 else 0))) }
theorem witness_load : let s := at0 fun d => { d with sys := { d.sys with st := .config }, boot := { d.boot with cfgBusy := true, bgrp := 0xFF }, flash := slotFlash }
    (∀ j, j < 5 → tabGet 255 s.dev.flash.cells (0x800005 + j) = 255)
      ∧ ends (.cfgLoaded { useA := true }) s (fun t => !t.dev.boot.cfgBusy && t.dev.boot.cfgLen == 0 && t.dev.boot.cfgId == 9
          && t.dev.boot.slot == 0 && t.dev.trl.img == some { useA := true }) = true := by decide +kernel
/-- A load of no words after one of five leaves zeros behind it; the event goes to a group that is off. -/
theorem witness_load_tail : let s := at0 fun d => { d with sys := { d.sys with st := .config }, boot := { d.boot with cfgBusy := true, cfgLen := 5, bgrp := 0xFE }, flash := slotFlash }
    ends (.cfgLoaded {}) { s with mem := [(0x780004, 5)] } (fun t => memRead t.mem 0x780004 == 0 && t.dev.boot.cfgLen == 0) = true := by decide +kernel
theorem witness_first_load : let s := at0 fun d => { d with boot := { d.boot with cfgBusy := true, verified := true }, flash := slotFlash }
    s.dev.sys.st = .boot ∧ ends (.cfgLoaded {}) s (fun t => t.dev.sys.st == .config && t.dev.mbx.lock) = true := by decide +kernel
theorem witness_flash_command : ends (.flashRead 255 true) (q2 {}) (fun t => t.dev.flash.op == some (1, 0, 256) && t.dev.flash.busy)
    && ends (.flashProgram 0 false) (q2 {}) (fun t => t.dev.flash.op == some (2, 0, 1))
    && ends (.sectorErase false) (q2 {}) (fun t => t.dev.flash.op == some (3, 0, 0))
    && ends (.flashRead 0 false) State.reset (fun t => t.dev.flash.err && t.dev.flash.op == none) = true := by decide +kernel
/-- A read of two bytes at the end of a page goes on at its start. -/
theorem witness_flash_read : ends (.flashOperationDone false) (at0 fun d => { d with flash := { d.flash with busy := true, op := some (1, 255, 2), cells := [(0, 0x12), (255, 0x34)] } }) (fun t =>
    tabGet 0 t.dev.flash.buf 0 / 2 ^ 16 == 0x3412 && !t.dev.flash.busy) = true := by decide +kernel
theorem witness_flash_program : ends (.flashOperationDone false) (at0 fun d => { d with flash := { d.flash with busy := true, op := some (2, 255, 2), buf := [(0, 0x12340000)] } }) (fun t =>
    tabGet 255 t.dev.flash.cells 255 == 0x12 && tabGet 255 t.dev.flash.cells 0 == 0x34 && tabGet 255 t.dev.flash.cells 256 == 255)
    && ends (.flashOperationDone true) (at0 fun d => { d with flash := { d.flash with busy := true, op := some (3, 65536, 0), cells := [(5, 1)] } }) (fun t =>
    t.dev.flash.err && !t.dev.flash.busy) = true := by decide +kernel
theorem witness_erase : ends (.flashOperationDone false) (at0 fun d => { d with flash := { d.flash with busy := true, op := some (3, 65537, 0), cells := [(65535, 1), (65536, 2), (131071, 3), (131072, 4)] } }) (fun t =>
    t.dev.flash.cells == [(65535, 1), (131072, 4)]) = true := by decide +kernel
theorem witness_measure : ends (.measurementStart 0x812000064) State.reset (fun t => t.dev.boot.mBusy && t.dev.boot.nref == 100 && t.dev.boot.mref == 2)
    && gives (.measurementStart 5) (withBoot { used0.dev.boot with mBusy := true } used0) (withBoot { used0.dev.boot with mBusy := true } used0) = true := by
  decide +kernel
theorem witness_measured : (withBoot { used0.dev.boot with mBusy := true } used0).dev.boot.mBusy = true
    ∧ ends (.measurementDone 7) (withBoot { used0.dev.boot with mBusy := true, meas := 15, mref := 15 } used0) (fun t =>
      !t.dev.boot.mBusy && (xoMult 15 == none) && t.dev.boot.mcnt == 7) = true := by decide +kernel
theorem witness_gates : gives (.clkGateWrite false 0) State.reset State.reset
    && ends (.clkGateWrite false 0) (q2 {}) (fun t => t.dev.boot.gate == some 0 || t.dev.boot.prune)
    && ends (.clkGateWrite false 0x4000) (q2 {}) (fun t => t.dev.boot.prune && t.dev.cmd.evWr == 1) = true := by decide +kernel
theorem witness_groups : gives (.pwrBgrpWrite 0) State.reset State.reset
    && ends (.pwrBgrpWrite 0xFE) { (at0 fun d => { d with sys := { d.sys with st := .test }, boot := { d.boot with bgrp := 0xFF } }) with mem := [(0x400000, 5), (0x400004, 6)] } (fun t =>
      memRead t.mem 0x400000 == 0 && memRead t.mem 0x400004 == 6 && t.dev.boot.bgrp == 0xFE) = true := by decide +kernel

/-! Admission, dispatcher, thermal states, phase registers, memory, ledger. -/

/-- A packet of queue 0 that waits at place 1, behind one of queue 1. -/
def wait0 (ws : List Word) (d : List Packet) : State := in0 fun x => { x with cmd := { x.cmd with
  dispatch := d ++ [{ id := 7, words := ws }]
  queues := [(0, { en := true, slots := [(0, { owner := some 7, released := false })] })] } }

theorem witness_admission : ComesUp 1 { id := 7, words := packetWords 0x048 {} [0] } (wait0 (packetWords 0x048 {} [0]) [{ id := 3, q := 1 }])
    ∧ packetFails { id := 7, words := packetWords 0x048 {} [0] } (begin_ (wait0 (packetWords 0x048 {} [0]) [{ id := 3, q := 1 }])) = none
    ∧ ends (.admission 1) (wait0 (packetWords 0x048 {} [0]) [{ id := 3, q := 1 }]) (fun t =>
        awaits 0x048 (.at 2) t && t.dev.cmd.dispatch.map (fun p => p.id) == [3]) = true := by
  unfold ComesUp; decide +kernel
theorem witness_admission_bad : ComesUp 0 { id := 7, words := packetWords 0x048 {} [256] } (wait0 (packetWords 0x048 {} [256]) [])
    ∧ packetFails { id := 7, words := packetWords 0x048 {} [256] } (begin_ (wait0 (packetWords 0x048 {} [256]) [])) = some (0x11, 1)
    ∧ ends (.admission 0) (wait0 (packetWords 0x048 {} [256]) []) (fun t => shows 0x11 0 t && (slot 0 0 t).detail == 1) = true := by
  unfold ComesUp; decide +kernel
theorem witness_admission_behind : gives (.admission 1) (wait0 [] [{ id := 3 }]) (wait0 [] [{ id := 3 }]) = true := by decide +kernel

/-- Jobs of keys 1 and 2 at level 5, one of key 9 at level 7, in a thermal state. -/
def jobs0 (x : Therm) (a : BitVec 4) : State := at0 fun d => { d with therm := { d.therm with state := x }, tdu := { d.tdu with awake := a, lastCore := [(1, 4), (2, 1), (9, 3)], levels := [[], [], [], [], [], [{ key := 1 }, { key := 2 }], [], [{ key := 9 }]] } }

theorem witness_dispatch : givenTo 3 { key := 9 } (jobs0 .full 0xF) ∧ ends (.tduDispatch 3) (jobs0 .full 0xF) (fun t =>
    nth [] t.dev.tdu.levels 7 == []) = true := ⟨trivial, by decide +kernel⟩
/-- In LEAN core 3 is parked, so its job of key 1 is core 1's, and that of key 9 is core 0's. -/
theorem witness_dispatch_lean : givenTo 1 { key := 1 } (jobs0 .lean 3) ∧ ¬ givenTo 1 { key := 9 } (jobs0 .lean 3)
    ∧ ends (.tduDispatch 1) (jobs0 .lean 3) (fun t => nth [] t.dev.tdu.levels 5 == [{ key := 2 }] && tabGet 0 t.dev.tdu.lastCore 1 == 2)
    ∧ gives (.tduDispatch 3) (jobs0 .lean 3) (jobs0 .lean 3) :=
  ⟨show 1 = if (jobs0 .lean 3).dev.tdu.awake.getLsbD 3 = true then 3 else 3 % 2 by decide +kernel,
   show ¬ 1 = if (jobs0 .lean 3).dev.tdu.awake.getLsbD 2 = true then 2 else 2 % 2 by decide +kernel, by decide +kernel⟩

/-- Degrees as a sensor gives them. -/
def sensed (s : Therm) (t : BitVec 9) (p : State → Bool) : Bool :=
  ends (.thermalSample 0 t 5 1) (at0 fun d => { d with therm := { d.therm with state := s } }) p

theorem witness_thermal_up : nextThermal 0 112 = 3 ∧ sensed .full 112 (fun t => t.dev.therm.state == .hold && t.dev.tdu.awake == 1)
    ∧ sensed .full 94 (fun t => t.dev.therm.state == .full) ∧ sensed .full 95 (fun t => t.dev.therm.state == .trim) := by decide +kernel
theorem witness_thermal_down : nextThermal 3 20 = 2 ∧ sensed .hold 20 (fun t => t.dev.therm.state == .lean && t.dev.tdu.awake == 3)
    ∧ sensed .hold 107 (fun t => t.dev.therm.state == .hold) ∧ sensed .trim 89 (fun t => t.dev.therm.state == .full) := by decide +kernel

theorem witness_phase_source : ends (.sysPhsrcWrite 0x3FF9) (q2 {}) (fun t => t.dev.phase.srcNext == some { kind := 1, port := 7, axis := 255 })
    && gives (.sysPhsrcWrite 3) (q2 {}) (q2 {}) && gives (.sysPhsrcWrite 1) State.reset State.reset = true := by decide +kernel
theorem witness_phase_rate : ends (.sysVmrateWrite 5) (q2 {}) (fun t => t.dev.phase.vmNext == some 5 && t.dev.phase.vmDirect == [(3, 5)])
    && ends (.sysPhcpmWrite 0xFFFFFFFFF) (q2 {}) (fun t => t.dev.phase.cpmNext == some 0xFFFFFF) = true := by decide +kernel

/-- A state with its memory care as given. -/
def care0 (s : DevState) (f : MemSt → MemSt) : State := at0 fun d => { d with sys := { d.sys with st := s }, mem := f d.mem }

theorem witness_write_back : ends (.eccWriteBack 0x400000) (care0 .run fun m => { m with writeBack := [0x400000], ecc := [(0x400000, 1)] }) (fun t =>
      t.dev.mem.writeBack == [] && t.dev.mem.ecc == [])
    && gives (.eccWriteBack 0x400000) State.reset State.reset = true := by decide +kernel
theorem witness_static : ends (.scrubSweep [.single 0x400000] 5000) (care0 .run fun m => { m with static := [(0x4000, 1)], cerr := [(0, 0xFFFFFF)] }) (fun t =>
    t.dev.mem.sweepUs == 4095 && tabGet 0 t.dev.mem.cerr 0 == 0xFFFFFF && t.dev.mem.writeBack == [0x400000]) = true := by decide +kernel
theorem witness_static_dead : ends (.scrubSweep [.page 0x4000FF 0] 0) (care0 .run fun m => { m with static := [(0x4000, 1)] }) (fun t =>
      t.dev.sys.st == .off && t.dev.mem.ueKind == 1 && t.dev.mem.ueAddr == 0x400000)
    && ends (.scrubSweep [.double 0x4000FF] 0) (care0 .config fun m => { m with static := [(0x4000, 1)], pcrc := 65535 }) (fun t =>
      t.dev.sys.st == .config && t.dev.mem.pcrc == 65535) = true := by decide +kernel
/-- The page is all zeros, and its CRC as the sweep works it out is the stored one: it does not fail (spec/16 R520, R521). -/
theorem witness_static_right : ends (.scrubSweep [.page 0x4000FF 0xFCC39D65] 0) (care0 .run fun m => { m with static := [(0x4000, 1)] }) (fun t =>
    t.dev.sys.st == .run && t.dev.mem.pcrc == 0) = true := by decide +kernel
theorem witness_dynamic : ends (.dynamicScrub [.single 0x400021]) (care0 .run id) (fun t => tabGet 0 t.dev.mem.cerr 1 == 1 && t.dev.mem.writeBack == [0x400021])
    && ends (.dynamicScrub [.double 0x400021]) (care0 .run id) (fun t => tabGet 0 t.dev.mem.ecc 0x400021 == 2 && t.dev.cmd.evWr == 1) = true := by
  decide +kernel
/-- A word known to be uncorrectable is found as one. -/
theorem witness_known : ends (.dynamicScrub [.single 0x400021]) (care0 .run fun m => { m with ecc := [(0x400021, 2)] }) (fun t => t.dev.mem.writeBack == [] && t.dev.cmd.evWr == 1)
    && ends (.scrubSweep [.single 0x400021] 0) (care0 .config fun m => { m with static := [(0x4000, 1)], ecc := [(0x400021, 2)] }) (fun t => t.dev.mem.pcrc == 1) = true := by
  decide +kernel
theorem witness_ledger_base : Safety.Inv (at0 fun d => { d with sys := { d.sys with st := .config }, boot := { d.boot with bgrp := 0xFF } })
    ∧ isBank (0x6F0000 : Nat) = true ∧ gives (.ageBaseWrite 0x6F0000) State.reset State.reset = true := by
  unfold Safety.Inv; decide +kernel
theorem witness_hour : ends (.ledgerHour [] []) run0 (fun t => t.dev.age.seq == 1 && t.dev.age.secs == 3600 && t.dev.age.hours.length == 1)
    && gives (.ledgerHour [] []) State.reset State.reset = true := by decide +kernel
/-- A unit that sends mode 1 of an image with ring A, guard of ring A 8 units of 4 ns. -/
def sends1 (e : Nat) (f : Dev → Dev) : State := in0 fun d => f { d with sys := { d.sys with mode := 1 }, age := { d.age with guardA := 8, eSecA := e }, trl := { d.trl with modes := [(1, { valid := true })], img := some { img0 with useA := true } } }
theorem witness_guard : modeRuns (begin_ (sends1 4 id)) = true ∧ ends .guardCheck (sends1 4 id) (fun t =>
    t.dev.age.reqA == 8 && t.dev.age.eSecA == 0) = true := by decide +kernel
theorem witness_revision : let s := sends1 0 fun d => { d with age := { d.age with retry := some (9, 9) } }
    ends .reviseAgain s (fun t => (t.dev.trl.prop.map fun p => (p.mode, p.n)) == some (1, 8) && t.dev.age.retry == none)
      && (let b := sends1 0 fun d => { d with age := { d.age with retry := some (9, 9) }, trl := { d.trl with heal := some {} } }
          gives .reviseAgain b b) = true := by decide +kernel

/-! Furrow units. -/

/-- A form-A word: operands D1 and D2, or the immediate word, destination DD (spec/07 Table 7.6). -/
def formA (op dd x : Nat) (imm : Option Nat) : BitVec 72 := BitVec.ofNat 72 (2 ^ 70 + (if imm.isSome then 2 ^ 69 else 0)
  + op * 2 ^ 64 + dd * 2 ^ 59 + 1 * 2 ^ 54 + 2 * 2 ^ 49 + x * 2 ^ 37 + imm.getD 0)

/-- Unit 1 with this instruction at the PC of its job, and a and b in D1 and D2. -/
def fd0 (i : BitVec 72) (a b : Word) (f : FdUnit → FdUnit) : State := in0 fun d => { d with fd := [(1, f { pm := [(9, i)], d := [0, a, b] ++ List.replicate 13 0, job := some { pc := 9, budget := 100, xsz := 16, csz := 16, axis := 8, tap := 2, engine := 1 } })] }

/-- The unit after a command on it. -/
def after (c : Instr) (i : BitVec 72) (a b : Word) (p : FdUnit → Bool) : Bool := ends c (fd0 i a b id) (fun t => p (unitOf 1 t))

/-- D3 after a form-A operation on a and b. -/
def d3 (c : Instr) (op : Nat) (a b r : Word) : Bool := after c (formA op 3 0 none) a b (fun u => u.d.getD 3 9 == r)

theorem witness_issue : let s := fd0 (formA 1 3 0 none) 1 2 id
    live s = true ∧ fdClk 1 (begin_ s) = true ∧ (unitOf 1 s).job = some { pc := 9, budget := 100, xsz := 16, csz := 16, axis := 8, tap := 2, engine := 1 }
      ∧ (match fdDecode (formA 1 3 0 none) with
          | some i => fdLegal (unitOf 1 s) i && fdBounds (unitOf 1 s) { pc := 9, xsz := 16, csz := 16 } i && decide (max 4 (waitOn [] (fdNeeds (unitOf 1 s) i)) < 100)
          | none => false) = true := by decide +kernel
theorem test_fd_mov_add : d3 (.fdMov 1 .clean) 0 1 7 7 && d3 (.fdAdd 1 .clean) 1 0x7FFFFFFFF 1 0x7FFFFFFFF = true := by decide +kernel
theorem test_fd_sub_neg : d3 (.fdSub 1 .clean) 2 0x800000000 1 0x800000000 && d3 (.fdNeg 1 .clean) 3 0 0x800000000 0x7FFFFFFFF = true := by decide +kernel
theorem test_fd_abs_min : d3 (.fdAbs 1 .clean) 4 0 0xFFFFFFFFF 1 && d3 (.fdMin 1 .clean) 5 0xFFFFFFFFF 1 0xFFFFFFFFF = true := by decide +kernel
theorem test_fd_max_and : d3 (.fdMax 1 .clean) 6 0xFFFFFFFFF 1 1 && d3 (.fdAnd 1 .clean) 7 6 3 2 = true := by decide +kernel
theorem test_fd_or_xor : d3 (.fdOr 1 .clean) 8 6 3 7 && d3 (.fdXor 1 .clean) 9 6 3 5 = true := by decide +kernel
/-- A shift by 35 or more gives 0 or -1 (spec/07 Table 7.7). -/
theorem test_fd_asr : d3 (.fdAsr 1 .clean) 10 0x800000000 63 0xFFFFFFFFF && d3 (.fdAsr 1 .clean) 10 0xFFFFFFFFB 1 0xFFFFFFFFD = true := by decide +kernel
theorem test_fd_lsl : d3 (.fdLsl 1 .clean) 11 1 34 0x400000000 && d3 (.fdLsl 1 .clean) 11 1 35 0x7FFFFFFFF = true := by decide +kernel
/-- -1 times -1 is the one product that saturates; a product is taken downwards (R237). -/
theorem test_fd_mulq : d3 (.fdMulq 1 .clean) 12 0x800000000 0x800000000 0x7FFFFFFFF && d3 (.fdMulq 1 .clean) 12 0xFFFFFFFFF 1 0xFFFFFFFFF = true := by decide +kernel
theorem test_fd_keep : d3 (.fdKeep 1 .clean) 13 0 5 5 && d3 (.fdKeep 1 .clean) 13 0xFFFFFFFFF 5 0 = true := by decide +kernel
/-- The accumulator holds a word times 2^35, so SHR = 0 gives it back (R228). -/
theorem test_fd_ext : ends (.fdExt 1 .clean) (fd0 (BitVec.ofNat 72 (2 ^ 70 + 14 * 2 ^ 64 + 3 * 2 ^ 59 + 2 * 2 ^ 49)) 0 0 fun u => { u with acc := [BitVec.ofInt 80 (-5 * 2 ^ 35), 0, 0, 0] }) (fun t =>
    (unitOf 1 t).d.getD 3 0 == BitVec.ofInt 36 (-5)) = true := by decide +kernel
theorem test_fd_acc : after (.fdLda 1 .clean) (formA 15 3 0 none) 0 0xFFFFFFFFF (fun u => u.acc.getD 3 0 == BitVec.ofInt 80 (-2 ^ 35))
    && after (.fdAdda 1 .clean) (formA 16 0 0 (some 2)) 0 0 (fun u => u.acc.getD 0 0 == BitVec.ofInt 80 (2 * 2 ^ 35))
    && ends (.fdClra 1 .clean) (fd0 (formA 17 2 0 none) 0 0 fun u => { u with acc := [1, 1, 1, 1] }) (fun t => (unitOf 1 t).acc == [1, 1, 0, 1]) = true := by
  decide +kernel
theorem test_fd_rb : after (.fdSetrb 1 .clean) (formA 18 0 0 (some 31)) 0 0 (fun u => u.rb == 15)
    && ends (.fdGetrb 1 .clean) (fd0 (formA 19 3 0 none) 0 0 fun u => { u with rb := 15 }) (fun t => (unitOf 1 t).d.getD 3 0 == 15) = true := by
  decide +kernel
/-- MPY and MAC of the two fields, and the loads of X and Y memory with post-modifies (Tables 7.3 to 7.5): MAC0 loads A0
with D1 times D2, MAC1 subtracts D1 times D1 from A1, the X move loads D4 through P0 and steps it on, the Y move stores D2
through P1. -/
def formP : BitVec 72 := BitVec.ofNat 72 ((3 * 2 ^ 12 + 1 * 32 + 2) * 2 ^ 56 + (2 * 2 ^ 12 + 1 * 2 ^ 10 + 1 * 32 + 1) * 2 ^ 42
  + (1 * 2 ^ 10 + 1 * 32 + 4) * 2 ^ 30 + (2 * 2 ^ 10 + 1 * 2 ^ 7 + 2) * 2 ^ 18)
theorem witness_parallel : ends (.parallelInstruction 1 .clean) (fd0 formP 3 0xFFFFFFFFE fun u => { u with xm := [(0, 77)], ptr := [{}, { idx := 5 }] ++ List.replicate 6 {} }) (fun t =>
    let u := unitOf 1 t
    u.acc == [BitVec.ofInt 80 (-6), BitVec.ofInt 80 (-9), 0, 0] && u.d.getD 4 0 == 77 && (u.ptr.getD 0 {}).idx == 1
      && tabGet 0 u.ym 5 == 0xFFFFFFFFE && (u.job.map fun j => j.pc) == some 10 && !u.stop) = true := by decide +kernel

/-- A form-C word. -/
def formC (op rest : Nat) : BitVec 72 := BitVec.ofNat 72 (2 * 2 ^ 70 + op * 2 ^ 64 + rest)
theorem test_fd_branch : after (.fdBr 1 .clean) (formC 2 (3 * 2 ^ 61 + 1 * 2 ^ 56 + 40)) 0xFFFFFFFFF 0 (fun u => (u.job.map fun j => j.pc) == some 40)
    && after (.fdBr 1 .clean) (formC 2 (3 * 2 ^ 61 + 1 * 2 ^ 56 + 40)) 0 0 (fun u => (u.job.map fun j => j.pc) == some 10) = true := by decide +kernel
theorem test_fd_loop : after (.fdLoop 1 .clean) (formC 3 4096) 0 0 (fun u => u.loops == [(10, 4096)])
    && after (.fdLoop 1 .clean) (formC 3 4097) 0 0 (fun u => u.stop && u.lCause == 2) = true := by decide +kernel
/-- A loop-back of the last iteration but one starts the body again, the last one ends the loop (R245). -/
theorem witness_loop_back : ends (.fdMov 1 .clean) (fd0 (BitVec.ofNat 72 (2 ^ 70 + 2 ^ 36)) 0 0 fun u => { u with loops := [(4, 2)] }) (fun t =>
      (unitOf 1 t).loops == [(4, 1)] && ((unitOf 1 t).job.map fun j => j.pc) == some 4)
    && ends (.fdMov 1 .clean) (fd0 (BitVec.ofNat 72 (2 ^ 70 + 2 ^ 36)) 0 0 fun u => { u with loops := [(4, 1)] }) (fun t =>
      (unitOf 1 t).loops == [] && ((unitOf 1 t).job.map fun j => j.pc) == some 10) = true := by decide +kernel
theorem test_fd_setm : after (.fdSetm 1 .clean) (formC 4 (2 * 2 ^ 61 + 1 * 2 ^ 59 + 0x3FFF * 2 ^ 39 + 5 * 2 ^ 20 + 1 * 2 ^ 34 + 7)) 16380 0 (fun u =>
    u.ptr.getD 2 {} == { mode := 1, base := 1, len := 8, step := -1, idx := 0 }) = true := by decide +kernel
theorem test_fd_pointers : ends (.fdMovp 1 .clean) (fd0 (formC 5 (2 * 2 ^ 61 + 1 * 2 ^ 56 + 0x3FFF)) 0 0 fun u => { u with ptr := u.ptr.set 2 { mode := 1, len := 8, idx := 3 } }) (fun t =>
      ((unitOf 1 t).ptr.getD 2 {}).idx == 7)
    && ends (.fdMovd 1 .clean) (fd0 (formC 6 (2 * 2 ^ 61 + 3 * 2 ^ 56)) 0 0 fun u => { u with ptr := u.ptr.set 2 { idx := 3 } }) (fun t =>
      (unitOf 1 t).d.getD 3 0 == 3) = true := by decide +kernel
theorem test_fd_nop : after (.fdNop 1 .clean) (formC 0 0) 0 0 (fun u => (u.job.map fun j => (j.pc, j.t)) == some (10, 5)) = true := by decide +kernel
/-- A loop of one instruction at 9: its first pass fills the cache, and the next one runs what the cache holds, a MOV of D1 to
D3, although P memory now holds another word (spec/07 R247). -/
theorem test_loop_cache : let i := formA 0 3 0 none ||| BitVec.ofNat 72 (2 ^ 36)
    ends (.fdMov 1 .clean) (fd0 i 5 6 fun u => { u with loops := [(9, 3)], cacheLo := 9 }) (fun t =>
        (unitOf 1 t).cacheOn && (unitOf 1 t).cache == [i] && ((unitOf 1 t).job.map fun j => j.pc) == some 9)
      && ends (.fdMov 1 .clean) (fd0 0 5 6 fun u => { u with loops := [(9, 2)], cacheLo := 9, cache := [i], cacheOn := true }) (fun t =>
        (unitOf 1 t).d.getD 3 0 == 6 && (unitOf 1 t).loops == [(9, 1)]) = true := by decide +kernel
theorem witness_return : ends (.fdRet 1 .clean) (fd0 (formC 1 0) 0 0 id) (fun t => (unitOf 1 t).job == none && (unitOf 1 t).busyNow == 9)
    && ends (.fdRet 1 .clean) (fd0 (formC 1 0) 0 0 fun u => { u with job := some { pc := 9, budget := 8 } }) (fun t =>
      ((unitOf 1 t).job.map fun j => j.t) == some 8) = true := by decide +kernel
/-- An access beyond the job's windows: P0 at 16 with a window of 16 words. -/
theorem witness_bounds : ends (.fdMov 1 .clean) (fd0 (formA 0 3 (2 ^ 10) none) 0 0 fun u => { u with ptr := u.ptr.set 0 { idx := 16 } }) (fun t =>
      (unitOf 1 t).stop && (unitOf 1 t).lCause == 3 && (unitOf 1 t).lAxis == 8 && (unitOf 1 t).lPc == 9)
    && ends (.fdMov 1 (.double 0 5)) (fd0 (formA 0 3 (2 ^ 10) none) 0 0 fun u => { u with ptr := u.ptr.set 0 { idx := 5 } }) (fun t =>
      (unitOf 1 t).stop && (unitOf 1 t).lCause == 4 && (unitOf 1 t).ecc2) = true := by decide +kernel
/-- Engine 5 is slot 1 of unit 1 and has a call, engine 1 is slot 0 and has none. -/
theorem witness_call : ends (.furrowCallSelect 1) (in0 fun d => { d with ce := { d.ce with engines := [(5, { call := some { axis := 5, tap := 1, x1 := 3, x2 := 4, init := true, region := 7 } })] } }) (fun t =>
    ((unitOf 1 t).job.map fun j => (j.slot, j.engine, j.axis)) == some (1, 5, 5) && (unitOf 1 t).d.take 3 == [3, 4, 1 + 28 + 32 + 5 * 128]) = true := by
  decide +kernel
theorem witness_expiry : ends (.furrowBudgetExpiry 1) (fd0 (formC 0 0) 0 0 fun u => { u with job := some { pc := 9, t := 8, budget := 8 } }) (fun t =>
      (unitOf 1 t).stop && (unitOf 1 t).lCause == 1 && (unitOf 1 t).busyNow == 8)
    && gives (.furrowBudgetExpiry 1) (fd0 (formC 0 0) 0 0 id) (fd0 (formC 0 0) 0 0 id) = true := by decide +kernel
theorem witness_window : let s := at0 fun d => { d with sys := { d.sys with st := .test } }
    ends (.fdWindowWrite 3 0xFFFF 5) s (fun t => (unitOf 3 t).pm == [(8191, 5)])
      && ends (.fdWindowWrite 0 0x2000 5) s (fun t => (unitOf 0 t).cm == [(0, 5)])
      && ends (.fdWindowWrite 0 0x3FFF 5) State.reset (fun t => t.dev.fd == [] && t.dev.cmd.evWr == 1)
      && gives (.fdWindowWrite 0 0x1FFF 5) s s = true := by decide +kernel

/-! Registers and host ports. -/

/-- Every bank group on and bank memory right, start-up over. -/
def host0 (f : Dev → Dev) : State := at0 fun d => f { d with boot := { d.boot with bgrp := 0xFF, bootOk := true } }

theorem witness_base : ends (.registerWrite 31 0x40000 0xFFFFFFFFF) (q2 {}) (fun t => regWord 31 0x40000 (begin_ t) == 0x7E0000)
    && ends (.registerWrite 0 0xF4003 0x55FFFF) (q2 {}) (fun t => regWord 0 0xF4003 (begin_ t) == 0x540000)
    && gives (.registerWrite 31 0x40000 0x7FFFFF) State.reset State.reset = true := by decide +kernel
theorem witness_clears : ends (.registerWrite 0 0xFE000 0xFF0000001) (at0 fun d => { d with hif := { d.hif with istat := 0x80003 } }) (fun t => t.dev.hif.istat == 0x80002)
    && ends (.registerWrite 0 0x20104 1) (at0 fun d => { d with cmd := { d.cmd with evOvr := true } }) (fun t => !t.dev.cmd.evOvr)
    && ends (.registerWrite 0 0x20181 2) (at0 fun d => { d with cmd := { d.cmd with ovspd := true } }) (fun t => t.dev.cmd.ovspd)
    && gives (.registerWrite 0 0x100000 1) State.reset State.reset = true := by decide +kernel
theorem witness_rc : rcReg 0xF8004 = true ∧ ends (.rcRead 0 0xF8004) (at0 fun d => { d with mem := { d.mem with pcrc := 7 } }) (fun t =>
      t.dev.out == [.readData [7]] && t.dev.mem.pcrc == 0)
    ∧ ends (.rcRead 0 0x30017) (at0 fun d => { d with tdu := { d.tdu with peaks := [1, 1, 1, 1, 1, 1, 1, 9] } }) (fun t => t.dev.tdu.peaks == [1, 1, 1, 1, 1, 1, 1, 0])
    ∧ ends (.rcRead 0 0xF811F) (at0 fun d => { d with mem := { d.mem with cerr := [(0, 2), (31, 3)] } }) (fun t => t.dev.mem.cerr == [(0, 2)])
    ∧ gives (.rcRead 0 0xFFFFF) State.reset State.reset := by decide +kernel
theorem witness_conflict : live (care0 .run fun m => { m with conf := [(0, 2), (31, 3)] }) = true := by decide +kernel
/-- The counter is 2^36 + 5 and plant time 16 later: each MID keeps its own words (spec/20 R611). -/
theorem witness_latch : ends (.latchingRead 9 0) (at0 fun d => { d with ptm := { d.ptm with frc := 0x1000000005, ofs := 16 } }) (fun t =>
      t.dev.out == [.readData [5]] && t.dev.ptm.latch == [(9, { frch := 1 })])
    && ends (.latchingRead 9 2) (at0 fun d => { d with ptm := { d.ptm with sncc := 3, spt := 0x2000000007 } }) (fun t =>
      t.dev.out == [.readData [3]] && t.dev.ptm.latch == [(9, { sptl := 7, spth := 2 })]) = true := by decide +kernel
/-- Two slots from byte 8 × 0x3FFFFE on, least significant byte first; bits [63:36] of the second are ignored (spec/02 R34). -/
theorem witness_bus_write : BanksGood (host0 id) ∧ grouped 8 slotOf [4, 1, 0, 0, 0, 0, 0, 0, 5, 0, 0, 0, 0xF9, 0xFF, 0xFF, 0xFF] = [0x104, 0x900000005]
    ∧ ends (.pcieMemoryWrite true (8 * 0x3FFFFE) ([4, 1, 0, 0, 0, 0, 0, 0, 5, 0, 0, 0, 0xF9, 0xFF, 0xFF, 0xFF].map some)) (host0 id) (fun t =>
      memRead t.mem 0x7FFFFE == 0x104 && memRead t.mem 0x7FFFFF == 0x900000005) = true := by unfold BanksGood; decide +kernel
theorem witness_bus_partial : ends (.pcieMemoryWrite true 1 [some 7]) (host0 id) (fun t => t.dev.cmd.evWr == 1)
    && gives (.pcieMemoryWrite true 1 [none]) (host0 id) (host0 id)
    && gives (.pcieMemoryWrite true 0 [some 1]) (host0 fun d => { d with boot := { d.boot with bootOk := false } }) (host0 fun d => { d with boot := { d.boot with bootOk := false } }) = true := by
  decide +kernel
theorem witness_bus_read : ends (.pcieMemoryRead true (8 * 0x3FFFFF + 1) 7) { host0 id with mem := [(0x7FFFFF, 0xF00000209)] } (fun t =>
    t.dev.out == [.busData [2, 0, 0, 0xF, 0, 0, 0]]) = true := by
  decide +kernel
theorem witness_configuration : ends (.pcieConfigRequest (.vector 31 false)) (host0 id) (fun t => !t.dev.hif.vecMask.getLsbD 31 && t.dev.hif.vecMask.getLsbD 0)
    && ends (.pcieConfigRequest (.msix true false)) (host0 id) (fun t => t.dev.hif.msixEn)
    && ends (.pcieConfigRequest .other) (host0 fun d => { d with boot := { d.boot with bootOk := false } }) (fun t => t.dev.out == [.configRetry true])
    && ends (.linkTrained 3 4) (host0 id) (fun t => t.dev.hif.linkUp && t.dev.hif.speed == 3) = true := by decide +kernel
/-- Five bytes a word, the most significant first, the four pad bits ignored (spec/02 R36). -/
theorem witness_spi_write : ends (.spiWrite false 0x7FFFFF [0xF8, 0, 0, 0, 3] false) (host0 id) (fun t => memRead t.mem 0x7FFFFF == 0x800000003)
    && ends (.spiQwrite false 0x400000 [3] true) (host0 id) (fun t => t.dev.hif.partialWr)
    && ends (.spiWrite true 0x400000 [] false) (host0 id) (fun t => t.dev.hif.badCmd && t.dev.cmd.evWr == 1) = true := by decide +kernel
theorem witness_spi_read : ends (.spiRead 0x7FFFFE 2 0 [1]) { host0 id with mem := [(0x7FFFFF, 9)] } (fun t => t.dev.out == [.busData [0x5A, 0, 0, 0, 0, 0, 0, 0, 0, 0, 9]] && !t.dev.hif.under)
    && ends (.spiQread 0x7FFFFE 2 4 [1]) { host0 (fun d => { d with mem := { d.mem with arb := true } }) with mem := [(0x7FFFFF, 9)] } (fun t =>
      t.dev.out == [.busData [0x5A, 0, 0, 0, 0, 0, 0, 0, 0, 0, 0]] && t.dev.hif.under) = true := by decide +kernel
/-- Part 0x1284, manufacturer 0x51D of bits [11:1], bit 0 one (spec/22 R629). -/
theorem test_idcode : ends (.tapInstruction .idcode) State.reset (fun t => t.dev.out == [.readData [0x01284A3B]]) = true := by decide +kernel

/-- Nothing to move, the cycle timer on at 125 us, the virtual master at 5 with rate -1. -/
def calm0 : State := at0 fun d => { d with sys := { d.sys with st := .run, cycOn := true }, phase := { d.phase with ncc := 0xFFFFFFFFF, vm := 5, vmRate := 0xFFFFFFFFF, vmInForce := 0xFFFFFFFFF }, ptm := { d.ptm with frc := 31250 } }

/-! Reads that clear, dispatch, sync point: witnesses of the completion statement. -/

theorem witness_clear_engine : Readable 0x401F1 State.reset ∧ ends (.rcRead 3 0x401F1) (at0 fun d => { d with ce := { d.ce with engines := [(15, { peak := 7, late := true })] } }) (fun t =>
      t.dev.ce.engines == [(15, { late := true })] && t.dev.out == [.readData [7 * 2 ^ 17]]) = true := by unfold Readable; decide +kernel
theorem witness_clear_furrow : Readable 0x90004 State.reset ∧ Readable 0x90006 State.reset
    ∧ ends (.rcRead 0 0x90004) (at0 fun d => { d with fd := [(3, { pTj := 5, waitMax := 6 })] }) (fun t => t.dev.fd == [(3, { waitMax := 6 })])
    ∧ ends (.rcRead 0 0x90006) (at0 fun d => { d with fd := [(3, { pTj := 5, waitMax := 6 })] }) (fun t => t.dev.fd == [(3, { pTj := 5 })]) := by
  unfold Readable; decide +kernel
theorem witness_clear_stepper : Readable 0xB180F State.reset ∧ ends (.rcRead 0 0xB180F) (at0 fun d => { d with stp := { d.stp with axes := [(1031, { devPeak := 9, devShown := 0x90003 })] } }) (fun t =>
      t.dev.stp.axes == [(1031, { devShown := 3 })] && t.dev.out == [.readData [0x90003]]) = true := by unfold Readable; decide +kernel
theorem witness_clear_port : ends (.rcRead 0 0xC007A) (fport { idxNew := true, qill := 3 }) (fun t => port 7 t == { qill := 3 })
    && ends (.rcRead 0 0xC007B) (fport { idxNew := true, qill := 3 }) (fun t => port 7 t == { idxNew := true }) = true := by decide +kernel
theorem witness_clear_lost : Readable 0x28064 (mail [] 9) ∧ SideIs 0 3 false (mail [] 9) ∧ ends (.rcRead 0 0x28064) (mail [] 9) (fun t =>
      (channel 3 t).a.slost == 0) = true := by unfold Readable SideIs; decide +kernel
theorem witness_clear_ring : Readable 0xD8111 State.reset ∧ ends (.rcRead 0 0xD8111) (at0 fun d => { d with dq := [(1, { p0 := { rcrc := 4 }, p1 := { rcrc := 5 } })] }) (fun t =>
      t.dev.dq == [(1, { p0 := { rcrc := 4 } })]) = true := by unfold Readable; decide +kernel
theorem witness_clear_graft : Readable 0xE8004 State.reset ∧ Readable 0xE8005 State.reset
    ∧ ends (.rcRead 0 0xE8005) (at0 fun d => { d with grf := { d.grf with miss := 1, sizePeak := 2 } }) (fun t => t.dev.grf.miss == 1 && t.dev.grf.sizePeak == 0) := by
  unfold Readable; decide +kernel
theorem witness_clear_absent : let s := { State.reset with variant := .vx1264 }
    live s = true ∧ rcReg 0x401F1 = true ∧ regAbsent 0x401F1 (begin_ s) = true ∧ ends (.rcRead 0 0x401F1) s (fun t => t.dev.out == [.readData [0]]) := by
  decide +kernel
theorem witness_no_job : NoJob 3 (jobs0 .full 7) := Or.inl (by decide +kernel)
theorem witness_any_source : let s := { calm0 with dev := { calm0.dev with phase := { calm0.dev.phase with src := { kind := 1, port := 2 } } } }
    AtRest s ∧ SourceStays s ∧ ends .syncPoint s (fun t => t.dev.phase.ncc == 0 && t.dev.phase.vm == 0xFFFFFFFFD) = true := by
  unfold AtRest SourceStays; decide +kernel

/-! Sync point, engines, harvest. -/

theorem witness_sync_off : gives .syncPoint State.reset State.reset = true := by decide +kernel
theorem witness_calm : AtRest calm0 ∧ OnVirtualMaster calm0 ∧ ends .syncPoint calm0 (fun t => t.dev.phase.ncc == 0
    && t.dev.phase.mph == 0xFFFFFFFFD && t.dev.phase.frcSync == 31250) = true := by
  unfold AtRest OnVirtualMaster; decide +kernel

/-- Axis 0 in the order of the mode, as given, with a landed record and these words in its parameter page. -/
def ce0 (x : CeAxis) (page : Mem) : State := { in0 (fun d => { d with ce := { d.ce with stBase := 0x440000, order := [0], axes := [(0, x)] } }) with mem := page }
/-- A valid record: position 100, and VALID. -/
def record0 : List Word := [100, 0, 0, 0x800000000]

theorem witness_compute_off : CanStart 0 (ce0 { landed := some record0 } []) ∧ GoodRecord record0
    ∧ (pageAt 0 0x0B (ce0 { landed := some record0 } [])).toNat = 0
    ∧ ends (.axisCompute 0) (ce0 { landed := some record0 } []) (fun t => (servo 0 t).posUsed == some (100, 0)
        && ((servo 0 t).ready.map fun r => (r.tref, r.enable)) == some (0, false)) = true := by
  unfold CanStart NoneDue GoodRecord; decide +kernel
theorem witness_compute_tap : CanStart 0 (ce0 { landed := some record0, enabled := true } [(0x400010, 0x2000)])
    ∧ PagesApart 0 (ce0 { landed := some record0, enabled := true } [(0x400010, 0x2000)])
    ∧ (pageAt 0 0x10 (ce0 { landed := some record0, enabled := true } [(0x400010, 0x2000)])).getLsbD 13 = true := by
  unfold CanStart NoneDue PagesApart; decide +kernel
theorem witness_compute_plain : CanStart 0 (ce0 { landed := some record0, enabled := true } [])
    ∧ ∀ n, n < 4 → (pageAt 0 (0x10 + 4 * n) (ce0 { landed := some record0, enabled := true } [])).getLsbD 13 = false := by
  unfold CanStart NoneDue; decide +kernel
theorem witness_compute_early : gives (.axisCompute 0) (ce0 {} []) (ce0 {} []) && gives (.startDeadline 0) (ce0 { landed := some record0 } []) (ce0 { landed := some record0 } []) = true := by
  decide +kernel
theorem witness_miss : CanStart 0 (ce0 { posUsed := some (5, 0) } [(0x44001D, 16)])
    ∧ blockMisses 0 (ce0 { posUsed := some (5, 0) } [(0x44001D, 16)]) = 1
    ∧ ends (.startDeadline 0) (ce0 { posUsed := some (5, 0) } [(0x44001D, 16)]) (fun t =>
        (servo 0 t).missRun == 2 && (servo 0 t).missThis && (servo 0 t).ready.isSome) = true := by unfold CanStart NoneDue; decide +kernel
/-- Axis 0 is second at engine 0 behind axis 1, which has not been computed: it waits, and its record counts as missing. -/
theorem witness_miss_waits : let s := in0 fun d => { d with ce := { d.ce with order := [1, 2, 3, 4, 5, 6, 7, 8, 9, 10, 11, 12, 13, 14, 15, 16, 0] } }
    modeOn (begin_ s) = true ∧ ceTurn 0 (begin_ s) = false ∧ NoneDue s
      ∧ ends (.startDeadline 0) s (fun t => (servo 0 t).startDue && !(servo 0 t).started) = true := by unfold NoneDue; decide +kernel
theorem witness_late : ends (.resultDeadline 0) (ce0 { enabled := true } []) (fun t => (servo 0 t).fcode == 4 && (servo 0 t).fmask == 8
      && !(servo 0 t).enabled && (tabGet {} t.dev.ce.engines 0).late)
    && gives (.resultDeadline 0) (ce0 {} []) (ce0 {} []) = true := by decide +kernel

/-- Set 7 as given, at 0x420000, thermal state FULL, with a domain. -/
def hvset (f : Dev → Dev) (x : HvSet) : State := in0 fun d => f { d with sys := { d.sys with domain := true }, phase := { d.phase with ncc := 100, frcSync := 1000 }, boot := { d.boot with bgrp := 0xFF }, hvs := { d.hvs with dbase := 0x420000, calOk := true, domOn := true, s0 := some 36, tcomp := 5, xfilt := 2, sets := [(7, x)] } }
/-- A descriptor with a trigger of a kind on line 3, both edges, TBACK 2. -/
def trig (kind : Nat) : List Word := List.replicate 64 0 ++ [BitVec.ofNat 36 (1 + kind * 65536 + 3 * 2 ^ 19 + 3 * 2 ^ 22 + 2 * 2 ^ 30)]

theorem witness_edge : OnLine 7 1 3 true (hvset id { st := 1, desc := trig 1 }) ∧ Waits 7 (hvset id { st := 1, desc := trig 1 })
    ∧ ends (.xtrigEdge 3 ⟨true, 3⟩ 1000 1) (hvset id { st := 1, desc := trig 1 }) (fun t =>
        ((capture 7 t).waiting.map fun w => w.from_) == some 99)
    ∧ ends (.xtrigEdge 3 ⟨true, 3⟩ 1000 0) (hvset id { st := 1, desc := trig 1 }) (fun t =>
        ((capture 7 t).waiting.map fun w => w.from_) == some 98) := by unfold OnLine Waits; decide +kernel
/-- Two samples are too few for XFILT 2, and a level that is not new is no edge. -/
theorem witness_edge_held : ends (.xtrigEdge 3 ⟨false, 3⟩ 1000 0) (hvset (fun d => { d with hvs := { d.hvs with xlevel := 8 } }) { st := 4, desc := trig 1, events := 6 }) (fun t => (capture 7 t).events == 7)
    && ends (.xtrigEdge 2 ⟨true, 3⟩ 1000 0) (hvset id { st := 4, desc := trig 1, events := 6 }) (fun t => (capture 7 t).events == 6)
    && gives (.xtrigEdge 3 ⟨true, 2⟩ 1000 0) (hvset id { st := 4, desc := trig 1 }) (hvset id { st := 4, desc := trig 1 })
    && gives (.xtrigEdge 3 ⟨false, 9⟩ 1000 0) (hvset id { st := 4, desc := trig 1 }) (hvset id { st := 4, desc := trig 1 }) = true := by decide +kernel
/-- The transmission time of 5 ns is taken off; before S0 + 64 the master echoes a probe. -/
theorem witness_bus_edge : DomainTriggers (hvset id { st := 1, desc := trig 2 }) := ⟨by decide +kernel, by decide +kernel⟩
theorem witness_bus_edge_from : ends (.tbusEdge 3 true 1001 1) (hvset id { st := 1, desc := trig 2 }) (fun t =>
      ((capture 7 t).waiting.map fun w => (w.frc, w.fine, w.from_)) == some (1000, 0, 98))
    && gives (.tbusEdge 3 true 1001 1) (hvset (fun d => { d with hvs := { d.hvs with domOn := false } }) { st := 1, desc := trig 2 }) (hvset (fun d => { d with hvs := { d.hvs with domOn := false } }) { st := 1, desc := trig 2 }) = true := by decide +kernel
theorem witness_echo : EchoesProbe 0 true (hvset (fun d => { d with hvs := { d.hvs with domOn := false } }) {})
    ∧ ends (.tbusEdge 0 true 1001 1) (hvset (fun d => { d with hvs := { d.hvs with domOn := false } }) {}) (fun t => t.dev.out == [.tbus 0]) = true := by
  unfold EchoesProbe; decide +kernel
theorem witness_force : ends (.hvsForceWrite 0x80) (hvset (fun d => { d with ptm := { d.ptm with frc := 1000 } }) { st := 1, desc := trig 1 }) (fun t =>
      ((capture 7 t).waiting.map fun w => (w.kind, w.from_)) == some (5, 100))
    && ends (.hvsForceWrite 0x80) (hvset id { st := 4, desc := trig 1 }) (fun t => (capture 7 t).events == 0) = true := by decide +kernel
theorem witness_freeze : ends (.captureFreeze 7) (hvset id { st := 2, desc := trig 1, linked := true, tncc := 9, tpos := 3 }) (fun t =>
      (capture 7 t).st == 4 && memRead t.mem (recordOf 7 t + 1) == 9 && memRead t.mem (recordOf 7 t + 5) == 1000)
    && ends (.captureFreeze 7) (hvset id { st := 2, desc := trig 1, linked := true, maskFail := true }) (fun t => (capture 7 t).st == 3)
    && gives (.captureFreeze 7) (hvset id { st := 2, left := 1 }) (hvset id { st := 2, left := 1 }) = true := by decide +kernel
/-- A hold-off of 2 us is over 500 counts after the freeze. -/
theorem witness_hold_off : let x : HvSet := { st := 4, desc := trig 1 ++ List.replicate 5 0 ++ [2], capture := 5 }
    ends (.holdOffEnd 7) (hvset id { x with freezeFrc := some 500 }) (fun t => (capture 7 t).st == 1 && (capture 7 t).capture == 6)
      && gives (.holdOffEnd 7) (hvset id { x with freezeFrc := some 501 }) (hvset id { x with freezeFrc := some 501 }) = true := by decide +kernel
/-- c is within 60 ns, d from a round trip of 2,120 ns is 60. -/
theorem witness_calibration : let s := hvset (fun d => { d with hvs := { d.hvs with didx := 1 } }) {}
    ends (.domainCalibration true 1000 2120) s (fun t => t.dev.hvs.calOk && t.dev.hvs.dcomp == 60 && t.dev.hvs.tcomp == 60)
      && ends (.domainCalibration true 999 2120) s (fun t => !t.dev.hvs.calOk && t.dev.cmd.evWr == 1)
      && ends (.domainCalibration false 0 0) (hvset id {}) (fun t => t.dev.hvs.calOk && t.dev.hvs.tcomp == 0) = true := by decide +kernel

/-! Rings, decisions, DISCOVER and domains, phase links. -/

/-- A unit that sends ring A (as given) and ring B, in a state, mode 0 with an ACYC entry of four pairs at 0x430000. -/
def ring0 (st : DevState) (r : RingSt) (f : Dev → Dev) : State := { in0 (fun d => f { d with sys := { d.sys with st := st }, trl := { d.trl with base := 0x430000, modes := [(0, { valid := true, count := 1, hsrc := true })], img := some { img0 with useA := true, useB := true } }, dq := [(0, r)] }) with
  mem := [(0x430000, 0x814400000), (0x430001, 0x4000)] }

theorem witness_port_down : ends (.ringPortDown false true true) (ring0 .discover { p1 := { up := true, cgs := true } } id) (fun t =>
      !(ring false t).p1.up && (ring false t).p1.downSeen && (ring false t).p1.sig && t.dev.cmd.evWr == 1)
    && ends (.ringPortUp true ⟨false, true⟩) (ring0 .run {} id) (fun t => (ring true t).p0.up && t.dev.cmd.evWr == 1)
    && ends (.ringPortUp true ⟨false, false⟩) (ring0 .run {} id) (fun t => !(ring true t).p0.up && (ring true t).p0.cgs && t.dev.cmd.evWr == 0) = true := by decide +kernel
theorem witness_no_ring_b : ¬ HasRing true { (ring0 .run {} id) with variant := .vx1264 }
    ∧ gives (.ringPortUp true ⟨false, true⟩) { (ring0 .run {} id) with variant := .vx1264 } { (ring0 .run {} id) with variant := .vx1264 } = true := by
  unfold HasRing; decide +kernel
theorem witness_break_healed : ringsLive (ring0 .run {} id) ∧ TrellisQuiet (ring0 .run {} id) ∧ ringSends false (begin_ (ring0 .run {} id)) = true
    ∧ ends (.gatherReturnTimeout false) (ring0 .run {} id) (fun t => t.dev.trl.brkA && !t.dev.trl.brkB && t.dev.sys.st == .run
        && (ring false t).rescueTo == some 1) = true := by unfold ringsLive TrellisQuiet; decide +kernel
theorem witness_break_bare : let s := ring0 .run {} fun d => { d with trl := { d.trl with modes := [(0, { valid := true })] } }
    TrellisQuiet s ∧ ends (.gatherReturnTimeout false) s (fun t => t.dev.sys.st == .recovery && (ring false t).broken)
      ∧ gives (.gatherReturnTimeout false) (ring0 .run { gatherBack := true } id) (ring0 .run { gatherBack := true } id) = true := by
  unfold TrellisQuiet; decide +kernel
theorem witness_departure : let s := ring0 .run {} id
    entryDue 0 (begin_ s) = true ∧ pathOpen false false (begin_ s) = true ∧ ends (.frameDeparture false false 0) s (fun t =>
      (ring false t).sent.map (fun f => (f.pathW, f.cls, f.ncc)) == [(false, 5, 0)])
      ∧ gives (.frameDeparture false false 1) s s = true := by decide +kernel
/-- Ring A at a standby, with its part as a node as given. -/
def standing (n : NodePart) (r : RingSt) : State := ring0 .run { r with node := { n with lastSync := 1 } } fun d => { d with sys := { d.sys with role := .standby } }
theorem witness_standby_port : ends (.ringPortDown false true true) (ring0 .discover {} fun d => { d with sys := { d.sys with role := .standby } }) (fun t =>
      (ring false t).node.lost1 && !(ring false t).node.lost0) = true := by decide +kernel
/-- A looped frame of class 2 goes on out of the other port, and back where that one is out of use. -/
theorem witness_forward : forwards (begin_ (standing {} {})) = true ∧ ringClk false (begin_ (standing {} {})) = true ∧ refRuns (begin_ (standing {} {})) = true
    ∧ ends (.ringFrameReceived false true 0 (frameBytes [0x204010000, 7, 8, 9]) false) (standing {} {}) (fun t =>
        t.dev.out == [.ring false true (frameBytes [0x204010000, 7, 8, 9])])
    ∧ ends (.ringFrameReceived false true 0 (frameBytes [0x204010000, 7, 8, 9]) false) (standing { lost0 := true } {}) (fun t =>
        t.dev.out == [.ring false false (frameBytes [0x204010000, 7, 8, 9])]) := by decide +kernel
/-- ENUM with argument 125 on its first pass: the standby is at 126 (spec/10 R328). -/
theorem witness_enum : frameWords (frameBytes [0x500010000, 7, 0xFF3005000, 125]) = some [0x500010000, 7, 0xFF3005000, 125]
    ∧ ends (.ringFrameReceived false false 0 (frameBytes [0x500010000, 7, 0x7F3005000, 125]) false) (standing {} {}) (fun t =>
        (ring false t).node.pos == 126 && t.dev.out == [.ring false false (frameBytes [0x500010000, 7, 0xFF3005000, 126])]) := by decide +kernel
theorem witness_damaged : ends (.ringFrameReceived false true 0 [1] true) (ring0 .run { p1 := { rcrc := 0xFFFFFFFD } } id) (fun t =>
    (ring false t).p1.rcrc == 0xFFFFFFFE) = true := by decide +kernel
/-- A SYNC frame of one pair, epoch 0, that the unit has sent. -/
def syncFrame : List Word := [0x100010000, 0, 0, 0]
theorem witness_sync_back : frameWords (frameBytes syncFrame) = some syncFrame
    ∧ ends (.ringFrameReceived false true 0 (frameBytes syncFrame) false) (ring0 .run { sent := [{ cls := 1, words := syncFrame }] } id) (fun t =>
        (ring false t).sent == [] && (ring false t).goodNow) = true := by decide +kernel
theorem witness_no_class : frameWords (frameBytes [0x700010000, 0, 0, 0]) = some [0x700010000, 0, 0, 0]
    ∧ gives (.ringFrameReceived false true 0 (frameBytes [0x700010000, 0, 0, 0]) false) (ring0 .run {} id) (ring0 .run {} id) = true := by decide +kernel
/-- An ACYC entry of 127 pairs carries TIME on path E. -/
theorem witness_time : let s := { ring0 .run {} id with mem := [(0x430000, 0x814400000), (0x430001, 127 * 4096)] }
    (∀ x ∈ (ring false s).acyc, x.kind ≠ .time) ∧ ends .timeTransferPeriodic s (fun t =>
      (ring false t).acyc.map (fun x => (x.kind, x.pathW, x.rwords)) == [(.time, false, 252)] && (ring true t).acyc == []) = true := by decide +kernel
theorem witness_time_waits : ends .timeTransferPeriodic (ring0 .run {} fun d => { d with therm := { d.therm with state := .hold } }) (fun t => t.dev.trl.timeDue && (ring false t).acyc == []) = true := by decide +kernel
theorem witness_node_timeout : let s := in0 fun d => { d with cmd := { d.cmd with
      queues := [(4, { en := true, slots := [(255, { owner := some 7, status := 2, released := false })] })]
      xfers := [{ cmd := { id := 7, q := 4, entry := 255 } }], journal := [{ id := 7, status := 2 }] } }
    (slot 4 255 s).owner = some 7 ∧ ends (.nodeParamTimeout 4 255) s (fun t => (slot 4 255 t).status == 0x20 && (slot 4 255 t).detail == 2
      && t.dev.cmd.xfers == []) ∧ gives (.nodeParamTimeout 0 255) s s = true := by decide +kernel
theorem witness_phase_link : phaseCrc 0 = 0 ∧ ends (.phaseLinkFrame 7 0) (in0 fun d => { d with stp := { d.stp with drvFlt := 0x80, crcRun := [(7, 2)], axes := [(1031, { nodeFault := true, ref0 := 0x800000005 })] } }) (fun t =>
    t.dev.stp.drvFlt == 0 && t.dev.stp.crcRun == [] && !(tabGet {} t.dev.stp.axes 1031).nodeFault && t.dev.out.length == 1) = true := by decide +kernel
theorem witness_phase_link_bad : phaseCrc 1 ≠ 1 ∧ ends (.phaseLinkFrame 0 1) run0 (fun t => t.dev.stp.linkErr == 1 && t.dev.cmd.evWr == 1
      && t.dev.stp.crcRun == [(0, 1)])
    ∧ ends (.phaseLinkFrame 0 (0x40000000000 ||| BitVec.ofNat 48 (phaseCrc 0x40000000000))) (in0 fun d => { d with stp := { d.stp with axes := [(1024, { fcode := 5 })] } }) (fun t =>
      t.dev.stp.drvFlt == 1 && (tabGet {} t.dev.stp.axes 1024).nodeFault) := by decide +kernel

/-- A proposal of mode 1 for cycle 2, node 5 counted. -/
def prop0 (acked : Bool) : State := ring0 .run { nodes := [(5, { present := true, acked := acked })] } fun d => { d with trl := { d.trl with prop := some { mode := 1, n := 2 }, modes := d.trl.modes ++ [(1, { valid := true, rate := 3 })] } }
theorem witness_agreed : nodesIn (begin_ (prop0 true)) = [(false, 5)] ∧ ends .proposalDecision (prop0 true) (fun t =>
      t.dev.trl.prop == some { mode := 1, n := 2, agreed := true } && t.dev.phase.rateNext == some (2, 3))
    ∧ ends .proposalDecision (prop0 false) (fun t => t.dev.trl.prop == none && t.dev.trl.aborted && t.dev.cmd.evWr == 1)
    ∧ gives .proposalDecision run0 run0 := by decide +kernel
/-- A bundle at its phase 16, which MPH(k + 2) reaches; flags as given. -/
def stage0 (flags : Nat) (p : Word) : State := ph0 fun d => { d with cmd := { d.cmd with bundles := [{ state := .staging, phase := p, flags := flags, flagsAtSync := flags }] } }
/-- A member to be staged again for effects at C = 2 or after it does not stand in the way, one before it does (spec/04 R124). -/
theorem witness_staged_again : stagedFor { flagsAtSync := 31, redoAtSync := [2, 3] } 2 = true ∧ stagedFor { flagsAtSync := 31, redoAtSync := [1] } 2 = false := by
  decide +kernel
theorem witness_decision : bundleDue { state := .staging, phase := 16, flags := 31, flagsAtSync := 31 } (begin_ (stage0 31 16)) = some 2
    ∧ ends .bundleDecision (stage0 31 16) (fun t => t.dev.cmd.bundles.map (fun b => (b.state, b.c)) == [(.armed, 2)])
    ∧ ends .bundleDecision (stage0 30 16) (fun t => t.dev.cmd.bundles == [] && t.dev.cmd.decided)
    ∧ gives .bundleDecision (stage0 31 17) (stage0 31 17) := by decide +kernel
theorem witness_repropose : let s := in0 fun d => { d with sys := { d.sys with st := .plan }, trl := { d.trl with planOk := true, modes := [(5, { valid := true })] } }
    ends .planRepropose s (fun t => (t.dev.trl.prop.map fun p => (p.mode, p.n)) == some (5, 8) && t.dev.sys.trans)
      && gives .planRepropose run0 run0 = true := by decide +kernel
theorem witness_slots_written : let s := in0 fun d => { d with sys := { d.sys with st := .commission }, trl := { d.trl with runWait := some {} } }
    ends .slotEntriesWritten s (fun t => (t.dev.trl.prop.map fun p => (p.mode, p.n)) == some (0, 8) && t.dev.trl.runWait == none)
      && ends .slotEntriesWritten (in0 fun d => { d with sys := { d.sys with st := .commission } }) (fun t => t.dev.trl.slots0)
      && gives .slotEntriesWritten run0 run0 = true := by decide +kernel

/-- A unit 5 that listens. -/
def listen0 : State := at0 fun d => { d with sys := { d.sys with st := .discover }, trl := { d.trl with listening := true }, boot := { d.boot with unitId := 5 } }
theorem witness_listen : ends (.discoverListenEnd none) listen0 (fun t => t.dev.sys.role == .solo && t.dev.trl.builtIn && t.dev.trl.step == some 0 && t.dev.trl.epoch == 1)
    && ends (.discoverListenEnd (some 6)) listen0 (fun t => t.dev.sys.role == .active)
    && ends (.discoverListenEnd (some 4)) listen0 (fun t => t.dev.sys.role == .standby && (ring false t).passive)
    && ends (.discoverListenEnd (some 5)) listen0 (fun t => t.dev.trl.conflict) && gives (.discoverListenEnd none) run0 run0 = true := by decide +kernel
/-- DISCOVER under the built-in schedule at its first step. -/
def disc0 : State := ring0 .discover {} fun d => { d with trl := { d.trl with builtIn := true, step := some 0 } }
theorem witness_enumerate : ends (.discoverStep (.enumerate (some 3) (some 0))) disc0 (fun t => t.dev.trl.step == some 1 && (ring false t).found == 3)
    && ends (.discoverStep (.enumerate none (some 0))) disc0 (fun t => t.dev.trl.waiting && (ring false t).openSeen)
    && gives (.discoverStep (.enumerate none none)) run0 run0 = true := by decide +kernel
theorem witness_retry : ends .discoverRetry (ring0 .discover {} fun d => { d with trl := { d.trl with waiting := true } }) (fun t => !t.dev.trl.waiting)
    && gives .discoverRetry run0 run0 = true := by decide +kernel
/-- A member of a domain, master or follower, whose timer stands. -/
def dom0 (didx : Nat) (f : BootSt → BootSt) : State := at0 fun d => { d with sys := { d.sys with st := .discover }, boot := f { d.boot with domEn := true, dclkAt := some 0 }, hvs := { d.hvs with didx := didx }, ptm := { d.ptm with frc := 265625 } }
theorem witness_domain : ends .domainStart (dom0 0 id) (fun t => t.dev.sys.domain && t.dev.sys.cycOn && t.dev.phase.frcSync == 265625 && t.dev.out == [.dclk])
    && gives .domainStart (dom0 1 id) (dom0 1 id) = true := by decide +kernel
/-- An effect that waits for three cycles goes on waiting for three, and a port as the source keeps its phase. -/
theorem witness_domain_wait : let s := { dom0 0 id with dev := { (dom0 0 id).dev with
      phase := { (dom0 0 id).dev.phase with ncc := 100, mph := 6, src := { kind := 1 } }
      cmd := { (dom0 0 id).dev.cmd with effects := [{ op := 0x049, time := .at 103 }] } } }
    ends .domainStart s (fun t => t.dev.phase.ncc == 0 && t.dev.phase.mph == 6 && awaits 0x049 (.at 3) t) = true := by decide +kernel
/-- DCLK was quiet for 265,625 counts; one count less is not enough. -/
theorem witness_follower : ends .dclkRisingEdge (dom0 1 fun b => { b with domWait := true }) (fun t => t.dev.sys.cycOn && t.dev.hvs.s0 == some 0 && !t.dev.boot.domWait)
    && ends .dclkRisingEdge (dom0 1 fun b => { b with domWait := true, dclkAt := some 1 }) (fun t => !t.dev.sys.cycOn && t.dev.boot.dclkAt == some 265625) = true := by decide +kernel
theorem witness_dclk_loss : let s := dom0 1 id
    ends .dclkLoss { s with dev := { s.dev with sys := { s.dev.sys with domain := true } } } (fun t => !t.dev.sys.domain && t.dev.boot.domLoss && t.dev.cmd.evWr == 1)
      && gives .dclkLoss s s = true := by decide +kernel

/-! Graft redundancy and the timeline. -/

/-- A unit that uses its graft link, in a role, with lane 0 up, epoch 9. -/
def graft0 (r : Role) (g : GrfSt → GrfSt) : State := in0 fun d => { d with sys := { d.sys with role := r }, trl := { d.trl with epoch := 9 }, grf := g { d.grf with en := true, lane0 := true } }

theorem witness_graft_slot : graftRuns (begin_ (graft0 .standby id)) = true ∧ ends (.graftSlot 3 false) (graft0 .standby fun g => { g with last := 7 }) (fun t =>
      t.dev.out.length == 1) ∧ gives (.graftSlot 3 true) (graft0 .standby id) (graft0 .standby id) := by decide +kernel
theorem witness_graft_set : ends (.graftSlot 0 false) (graft0 .active fun g => { g with out := [[0x800100000, 5], [0x800100001, 6]], outNcc := 4 }) (fun t =>
    t.dev.out.length == 1) = true := by decide +kernel
theorem witness_set_frame : UsesGraft (graft0 .standby id) ∧ WholeOn false [0x1C0010009, 4, 5, 6] ∧ HeaderIs 1 6 9 0x1C0010009
    ∧ frameWords (frameBytes [0x1C0010009, 4, 5, 6]) = some [0x1C0010009, 4, 5, 6]
    ∧ ends (.graftFrameReceived false true (frameBytes [0x1C0010009, 4, 5, 6])) (graft0 .standby id) (fun t => t.dev.grf.rx == [(6, [5, 6])] && t.dev.grf.rxNcc == 4 && t.dev.grf.got == 64)
    ∧ gives (.graftFrameReceived false false (frameBytes [0x1C0010009, 4, 5, 6])) (graft0 .standby id) (graft0 .standby id) := by
  unfold UsesGraft WholeOn HeaderIs; decide +kernel
/-- A STATUS frame of unit 3, role STANDBY, stale. -/
theorem witness_status_frame : WholeOn false [0x200010009, 0, 0x3A0000009, 0] ∧ HeaderIs 2 0 9 0x200010009
    ∧ ends (.graftFrameReceived false true (frameBytes [0x200010009, 0, 0x3A0000009, 0])) (graft0 .active id) (fun t =>
        t.dev.grf.pUnit == 3 && t.dev.grf.pRole == 2 && t.dev.grf.pStale && t.dev.grf.gotStatus) := by
  unfold WholeOn HeaderIs; decide +kernel
theorem witness_missed : MissesSlot 3 (graft0 .standby id) ∧ ends (.graftSlotEnd 3) (graft0 .standby id) (fun t => t.dev.grf.miss == 1 && t.dev.grf.suspect && t.dev.grf.eligible)
    ∧ ends (.graftSlotEnd 3) (graft0 .standby fun g => { g with missRun := 1, eligible := true }) (fun t => t.dev.grf.missRun == 2 && t.dev.grf.decided == none)
    ∧ ends (.graftSlotEnd 3) (graft0 .standby fun g => { g with missRun := 2, eligible := true }) (fun t => t.dev.grf.decided == some 0)
    ∧ ends (.graftSlotEnd 3) (graft0 .standby fun g => { g with missRun := 2 }) (fun t => t.dev.grf.decided == none && t.dev.cmd.evWr == 1)
    ∧ gives (.graftSlotEnd 3) (graft0 .standby fun g => { g with got := 192 }) (graft0 .standby fun g => { g with got := 192 }) := by
  unfold MissesSlot; decide +kernel
theorem witness_apply : ends (.graftSetApply false true) (graft0 .standby fun g => { g with rx := [(0, [0x800100000, 5]), (2, [0]), (4, [0]), (6, [0])], rxNcc := 77, staticOk := true }) (fun t =>
      t.dev.grf.hedge == [5] && t.dev.grf.last == 77 && t.dev.grf.goodSets == 1 && t.dev.grf.rotOk)
    && ends (.graftSetApply false true) (graft0 .standby fun g => { g with rxBad := true, goodSets := 4 }) (fun t => t.dev.grf.goodSets == 0)
    && gives (.graftSetApply false true) (graft0 .active id) (graft0 .active id) = true := by decide +kernel
/-- 500 counts of 4 ns after the decision. -/
theorem witness_takeover : let s := graft0 .standby fun g => { g with decided := some 0, tkMode := 4, last := 77 }
    let at_ := fun (n : BitVec 64) => ({ s with dev := { s.dev with phase := { s.dev.phase with frcSync := n } } } : State)
    ends .takeover (at_ 500) (fun t => t.dev.sys.role == .active && t.dev.sys.mode == 4 && t.dev.trl.epoch == 10 && t.dev.grf.tkoL == 77)
      && gives .takeover (at_ 499) (at_ 499) = true := by decide +kernel
theorem witness_report : ends .takeoverReport (graft0 .active fun g => { g with reportDue := true }) (fun t => t.dev.cmd.tkoRdy && t.dev.cmd.evWr == 1)
    && ends .takeoverReport { graft0 .active (fun g => { g with reportDue := true, heirs := [4] }) with dev := { (graft0 .active fun g => { g with reportDue := true, heirs := [4] }).dev with cmd := { run0.dev.cmd with journal := [{ id := 3, tko := true }, { id := 4 }] } } } (fun t => t.dev.cmd.tkoCnt == 1)
    && gives .takeoverReport run0 run0 = true := by decide +kernel
theorem witness_graft_down : ends .graftDown (graft0 .active fun g => { g with noStatus := 3 }) (fun t => t.dev.sys.role == .solo && t.dev.cmd.evWr == 1)
    && gives .graftDown (graft0 .active fun g => { g with noStatus := 2 }) (graft0 .active fun g => { g with noStatus := 2 }) = true := by decide +kernel
theorem witness_lanes : ends (.graftLaneDown false) (graft0 .active id) (fun t => !t.dev.grf.lane0 && t.dev.cmd.evWr == 1)
    && ends (.graftLaneUp true) (graft0 .active id) (fun t => t.dev.grf.lane1)
    && gives (.graftLaneUp true) { (graft0 .active id) with variant := .vx1264n } { (graft0 .active id) with variant := .vx1264n } = true := by decide +kernel
theorem witness_rebuild : gives .timelineRebuild run0 run0 && (in0 fun d => { d with egv := { d.egv with rebuild := true } }).dev.egv.rebuild = true := by
  decide +kernel

/-! The Hedge island. -/

/-- The island out of reset, past its self test, both channels OPEN, 8 brake pairs and SADDR 0x1E, as given; channel 15
bound to SC0 and Hedge-P. -/
def hedge0 (f : HdgSt → HdgSt) : State := in0 fun d => { d with hdg := f { d.hdg with hrstN := true, pState := .open_, lState := .open_, swP := 0xE81E, swL := 0xE81E, hlkP := true, hlkL := true, hlkiP := true, hlkiL := true }, mbx := { d.mbx with chans := [(12, { valid := true, midA := 25, midB := 31 }), (13, { valid := true, midA := 26, midB := 31 }), (15, { valid := true, midA := 2, midB := 31 })] } }
/-- Messages queued at the sides of channel 15. -/
def talk (fromSc fromHedge : List (List Word)) (s : State) : State := withDev s { s.dev with mbx := { s.dev.mbx with chans := [(15, { valid := true, midA := 2, midB := 31, a := { queue := fromSc }, b := { queue := fromHedge } })] } }

theorem witness_island : HedgeRuns (hedge0 id) ∧ Channel15 true (hedge0 id) ∧ BothOpen (hedge0 id).dev.hdg := by
  unfold HedgeRuns HedgeUp HasHedge Channel15 SideIs BothOpen; decide +kernel
theorem witness_no_island : ¬ HasHedge { (hedge0 id) with variant := .vx1264n } ∧ hedgeCommand .hlkiLow = true
    ∧ gives .hlkiLow { (hedge0 id) with variant := .vx1264n } { (hedge0 id) with variant := .vx1264n } = true := by
  unfold HasHedge; decide +kernel
theorem witness_hedge_reset : ends .hrstNLow (withHolder 63 (some 31) (hedge0 id)) (fun t => t.dev.hdg.pState == .init && !t.dev.hdg.hrstN && t.dev.hdg.supply && holder 63 t == none)
    && ends .hedgeSupplyFault (hedge0 id) (fun t => t.dev.hdg.lState == .init && t.dev.hdg.hrstN && !t.dev.hdg.supply) = true := by decide +kernel
theorem witness_hedge_release : ends (.hrstNRelease 65535 65535) State.reset (fun t => t.dev.hdg.swP == 65535 && t.dev.hdg.hrstN)
    && ends (.hrstNRelease 65535 65534) State.reset (fun t => t.dev.hdg.fcode == 6 && t.dev.hdg.permanent && t.dev.hdg.lState == .locked)
    && ends (.hedgeSupplyRestored 0 0) (hedge0 fun h => { h with supply := false }) (fun t => t.dev.hdg.supply && t.dev.hdg.swP == 0) = true := by decide +kernel
theorem witness_self_test : let s := hedge0 fun h => { h with pState := .init, lState := .init, swP := 0x4000 }
    ends (.selfTestDone true true) s (fun t => t.dev.hdg.due == 3 && t.dev.hdg.pState == .open_ && t.dev.hdg.hlkP && t.dev.hdg.hlkL)
      && ends (.selfTestDone true false) s (fun t => t.dev.hdg.lState == .locked && t.dev.hdg.fcode == 9)
      && gives (.selfTestDone true true) (hedge0 id) (hedge0 id) = true := by decide +kernel
theorem witness_cross_link : ends (.crossLinkWord true) (hedge0 id) (fun t => t.dev.hdg.xOk && t.dev.hdg.lCount == 0 && t.dev.hdg.xCount == 1)
    && ends (.crossLinkWord true) (hedge0 fun h => { h with lCount := 3 }) (fun t => !t.dev.hdg.xOk && t.dev.hdg.lCount == 0)
    && ends .crossLinkLoss (hedge0 id) (fun t => t.dev.hdg.lState == .locked && t.dev.hdg.pState == .open_ && t.dev.hdg.fcode == 9) = true := by decide +kernel
theorem witness_heartbeat : queued false 15 (hedge0 id) = [] ∧ ends .hb (hedge0 fun h => { h with hbNext := 65535 }) (fun t =>
      t.dev.hdg.hbFresh && t.dev.hdg.hbCount == 65535 && t.dev.hdg.hbNext == 0 && t.dev.hdg.hbRole == 0)
    ∧ ends .heartbeatTimeout (hedge0 fun h => { h with hbFresh := true, brkP := 1 }) (fun t => !t.dev.hdg.hbFresh && t.dev.hdg.brkP == 0) := by decide +kernel
theorem witness_tko : let s := let x := hedge0 id; withDev x { x.dev with grf := { x.dev.grf with hedge := List.replicate 64 0xFFFE0005 } }
    queued false 15 s = [] ∧ ends (.tko 9) s (fun t => (conn 63 t.dev.hdg).nextTx == 0 && (conn 63 t.dev.hdg).nextRx == 5 && (conn 62 t.dev.hdg).nextTx == 0 && (conn 62 t.dev.hdg).nextRx == 0) = true := by decide +kernel
theorem witness_pulses : ends .testPulseFrame (hedge0 fun h => { h with pulseNow := [(4, 1)] }) (fun t => t.dev.hdg.pulsePrev == [(4, 1)] && t.dev.hdg.pulseNow == [])
    && ends (.pulseCheckSample 3 15 true true true) (hedge0 id) (fun t => tabGet 0 t.dev.hdg.pulseNow 75 == 1 && t.dev.hdg.si == 0x8000 && t.dev.hdg.pState == .open_)
    && ends (.pulseCheckSample 3 15 true true true) (hedge0 fun h => { h with pulsePrev := [(75, 1)] }) (fun t => t.dev.hdg.fcode == 2 && t.dev.hdg.siFault == 0x8000)
    && ends (.pulseCheckSample 0 15 true false true) (hedge0 fun h => { h with pulsePrev := [(76, 1)] }) (fun t => t.dev.hdg.fcode == 3)
    && ends (.pulseCheckSample 3 15 true false false) (hedge0 id) (fun t => t.dev.hdg.si == 0 && t.dev.hdg.pulseNow == []) = true := by decide +kernel
theorem witness_hedge_locks : ends (.discrepancyTimeout 63) (hedge0 fun h => { h with brkP := 3 }) (fun t => t.dev.hdg.fcode == 1 && t.dev.hdg.brkP == 0 && !t.dev.hdg.hlkP && !t.dev.hdg.hlkL)
    && ends .hlkiLow (hedge0 id) (fun t => t.dev.hdg.fcode == 8 && t.dev.hdg.hlkP)
    && ends .hlkiLow (hedge0 fun h => { h with relCheck := true }) (fun t => t.dev.hdg.pState == .open_ && !t.dev.hdg.hlkiP)
    && ends (.hlkiCheck false false) (hedge0 fun h => { h with relCheck := true }) (fun t => t.dev.hdg.fcode == 8 && !t.dev.hdg.relCheck)
    && ends (.hlkiCheck true false) (hedge0 fun h => { h with relCheck := true }) (fun t => t.dev.hdg.hlkiP && !t.dev.hdg.relCheck && t.dev.hdg.pState == .open_)
    && ends .holdsBlockedEnd (hedge0 fun h => { h with blocked := true }) (fun t => !t.dev.hdg.blocked) = true := by decide +kernel
/-- 500 ms at Hedge-P and 3,300 ms at Hedge-L are just enough; 499 ms is not. -/
theorem witness_acknowledge : let s := hedge0 fun h => { h with pState := .locked, lState := .locked, fcode := 1 }
    causePersists { s.dev.hdg with ackN := true } = false ∧ ends (.safeAckNRise 500 3300 true) s (fun t => t.dev.hdg.pState == .open_ && t.dev.hdg.blocked)
      ∧ ends (.safeAckNRise 499 3300 true) s (fun t => t.dev.hdg.pState == .locked && t.dev.hdg.lState == .open_)
      ∧ ends (.safeAckNRise 500 3300 false) s (fun t => t.dev.hdg.pState == .locked) := by decide +kernel

/-- The spec's own frame (spec/14, its example at connection 3 with SEQ 0x01A4). -/
theorem test_black_channel : hCid 0x881E 3 0 = 0xC71E0300 ∧ hCrc 0xC71E0300 [0x101A42001, 1] = crc32 0x1EDC6F41 [0xC7, 0x1E, 3, 0, 1, 1, 0xA4, 0x20, 1, 0, 0, 0, 0, 1] := by decide +kernel
theorem witness_send : queued true 12 (hedge0 id) = [] ∧ ends (.blackChannelSend 0) (hedge0 fun h => { h with conns := [(0, { nextTx := 65535 })] }) (fun t =>
    (conn 0 t.dev.hdg).nextTx == 0 && (queued true 12 t).length == 1) = true := by decide +kernel
/-- A frame of drive 5 with SEQ 3 and the drive's data words. -/
def frame5 (d1 : Word) : List Word :=
  let ws : List Word := [BitVec.ofNat 36 (2 ^ 32 + 3 * 2 ^ 16 + swTec 0xE81E * 2 ^ 13 + 2), d1, 9]
  ws ++ [BitVec.ofNat 36 (hCrc (hCid 0xE81E 5 1) ws)]
theorem witness_frame : frameValid 5 (frame5 8) { (hedge0 id).dev.hdg with hbRole := 1 } = true
    ∧ ends (.blackChannelFrame 5 (frame5 0)) (hedge0 fun h => { h with hbRole := 1 }) (fun t => (conn 5 t.dev.hdg).alive && (conn 5 t.dev.hdg).data == [0, 9] && (conn 5 t.dev.hdg).nextRx == 4)
    ∧ ends (.blackChannelFrame 5 (frame5 8)) (hedge0 fun h => { h with hbRole := 1, connMask := 32 }) (fun t => t.dev.hdg.fcode == 10 && t.dev.hdg.pState == .locked)
    ∧ gives (.blackChannelFrame 6 (frame5 8)) (hedge0 id) (hedge0 id) := by decide +kernel
theorem witness_connection_lost : ends (.connectionTimeout 5) (hedge0 fun h => { h with hbRole := 0, connMask := 32 }) (fun t => t.dev.hdg.fcode == 7)
    && ends (.connectionTimeout 5) (hedge0 fun h => { h with hbRole := 0, conns := [(5, { alive := true })] }) (fun t => !(conn 5 t.dev.hdg).alive && t.dev.hdg.pState == .open_)
    && ends (.connectionTimeout 5) (hedge0 fun h => { h with hbRole := 2, connMask := 32, conns := [(5, { alive := true })] }) (fun t => !(conn 5 t.dev.hdg).alive && t.dev.hdg.pState == .open_) = true := by decide +kernel
theorem witness_sframe : let s := let x := hedge0 id; withDev x { x.dev with mbx := { x.dev.mbx with chans := [(13, { valid := true, midA := 26, midB := 31, b := { queue := [[0x514000000, 1]] } })] } }
    SideIs 31 13 true s ∧ SideIs 26 13 false s ∧ ends (.sframe 1 false) s (fun t => t.dev.hdg.fromHedge == [(false, 5, [1])] && queued true 13 t == []) = true := by
  unfold SideIs; decide +kernel

theorem witness_test_begins : queued false 15 (talk [[0x200000001, 7]] [] (hedge0 id)) = [[0x200000001, 7]]
    ∧ ends .btest (talk [[0x200000001, 7]] [] (hedge0 id)) (fun t => (t.dev.hdg.test.map fun x => (x.remote, x.idx, x.conn)) == some (false, 7, 8)) := by decide +kernel
theorem witness_test_torque : let s := fun (v : Word) => talk [] [[0x300000001, v]] (withHedge { (hedge0 id).dev.hdg with btCmd := some ({}, 0) } brk0)
    Channel15 true (s 1) ∧ ends .btStep (s 1) (fun t => ((servo 0 t).bt.map fun b => b.tq) == some 0x3F800000)
      ∧ ends .btStep (s 2) (fun t => (servo 0 t).bt == none && queued true 15 t == []) := by
  unfold Channel15 SideIs; decide +kernel
/-- A test of the local brake 7 in a phase. -/
def testing (x : BTest) : State := hedge0 fun h => { h with due := 0xFF, test := some x, conns := [(8, { data := [0, 55] })] }
theorem witness_test_phases : ends .engageTimeEnd (testing { idx := 7, conn := 8 }) (fun t => (t.dev.hdg.test.map fun x => (x.phase, x.pRef)) == some (1, 55) && queued true 15 t == [[0x300000000, 1]])
    && ends .holdWindowEnd (testing { idx := 7, conn := 8, phase := 1, got := true }) (fun t => t.dev.hdg.due == 0x7F && t.dev.hdg.passed == 0x80 && t.dev.hdg.pass == some 7)
    && ends .holdWindowEnd (testing { idx := 7, conn := 8, phase := 1 }) (fun t => t.dev.hdg.fcode == 4 && t.dev.hdg.pState == .locked)
    && ends .brakeTestEnd (testing { idx := 7, conn := 8, phase := 2 }) (fun t => t.dev.hdg.test == none)
    && gives .brakeTestEnd (testing { idx := 7, conn := 8 }) (testing { idx := 7, conn := 8 }) = true := by decide +kernel
theorem witness_due : ends (.brakeDue false 7) (hedge0 id) (fun t => t.dev.hdg.due == 0x80)
    && gives (.brakeDue false 2) (hedge0 fun h => { h with swP := 0x4000 }) (hedge0 fun h => { h with swP := 0x4000 })
    && ends (.brakeOverdue false 7) (hedge0 fun h => { h with due := 0x80 }) (fun t => t.dev.hdg.fcode == 5 && t.dev.hdg.fIndex == 7)
    && gives (.brakeOverdue false 7) (hedge0 id) (hedge0 id)
    && ends (.hedgeLOverdue 7) (hedge0 id) (fun t => t.dev.hdg.lState == .locked && t.dev.hdg.lOverdue == 0x80)
    && gives (.hedgeLOverdue 7) (hedge0 fun h => { h with swL := 0xA81E }) (hedge0 fun h => { h with swL := 0xA81E }) = true := by decide +kernel
theorem witness_status_window : ends .statusWindowRefresh (withDev (hedge0 id) { (hedge0 id).dev with sys := { (hedge0 id).dev.sys with st := .boot } }) (fun t => bitsOf (t.dev.hdg.win.getD 0 0) 0 2 == 1)
    && ends .statusWindowRefresh (hedge0 fun h => { h with pState := .locked, fcode := 10 }) (fun t => bitsOf (t.dev.hdg.win.getD 0 0) 0 2 == 2 && t.dev.cmd.evWr == 1)
    && (let s := hedge0 fun h => { h with pState := .locked }
        ends .statusWindowRefresh (withDev s { s.dev with sys := { s.dev.sys with st := .boot, cycOn := false } }) (fun t => t.dev.sys.st == .safeLock && t.dev.sys.prev == .boot)) = true := by decide +kernel

end Sys2Proof.Tests
end

section
/-! SUPPORT. The sync point: what `syncPoint` does stage by stage on a device at rest, and what its last stages show. -/

namespace Sys2Proof.Machine

/-! The last stages of a sync point. -/

/-- A rise of a queue's condition shows in the interrupts and in what is sent. -/
theorem irqQueueStat_frame (w : Work) : ∃ h o, irqQueueStat w = { w with d.hif := h, d.out := o } := by
  unfold irqQueueStat
  dsimp only
  split
  · obtain ⟨h, o, e⟩ := irq_frame 7 _
    exact ⟨h, o, e⟩
  · exact ⟨_, _, rfl⟩

@[simp] theorem each_nil {α σ : Type} (f : α → σ → σ) (s : σ) : each [] f s = s := rfl

/-- A property that every step of `each` keeps holds at its end. -/
theorem each_keeps {α σ : Type} {P : σ → Prop} {f : α → σ → σ} (l : List α) (hf : ∀ a ∈ l, ∀ s, P s → P (f a s))
    {s : σ} (h : P s) : P (each l f s) := by
  induction l generalizing s with
  | nil => exact h
  | cons a l ih => exact ih (fun b hb => hf b (List.mem_cons_of_mem a hb)) (hf a List.mem_cons_self s h)

/-- Back-pressure is shown in the queues, JWAIT and the interrupts, and nowhere else. -/
theorem bpRefresh_frame (w : Work) :
    ∃ q j h o, bpRefresh w = { w with d.cmd.queues := q, d.cmd.jWait := j, d.hif := h, d.out := o } := by
  have hq : ∃ q, each (List.range 5) (fun q w => if (getQ q w).bp == bpNow q w then w else
      modQ q (fun x => { x with bp := bpNow q w }) w) w = { w with d.cmd.queues := q } := by
    refine each_keeps (P := fun v => ∃ q, v = { w with d.cmd.queues := q }) _ ?_ ⟨w.d.cmd.queues, rfl⟩
    rintro a - _ ⟨q, rfl⟩
    split <;> exact ⟨_, rfl⟩
  obtain ⟨q, hq⟩ := hq
  unfold bpRefresh
  rw [hq]
  obtain ⟨h, o, e⟩ := irqQueueStat_frame { w with
    d.cmd.queues := q, d.cmd.jWait := (List.range 5).any (fun n => journalWaits n { w with d.cmd.queues := q }) }
  exact ⟨_, _, h, o, e⟩

/-- Without a running cycle timer a sync point does nothing. -/
theorem syncPoint_off (w : Work) (h : w.d.sys.cycOn = false) : syncPoint w = w := by simp [syncPoint, h]

/-- With a running cycle timer a sync point ends by showing the registers of rings, harvest engine and graft. -/
theorem syncPoint_shows (w : Work) (h : w.d.sys.cycOn = true) :
    ∃ v, syncPoint w = bpRefresh (graftShow (hvsShow (ringShow v))) := by
  unfold syncPoint
  rw [if_neg (by simp [h])]
  exact ⟨_, rfl⟩

/-! A device at rest. -/

/-- A stepper axis that stands at zero, without a plan, gear or encoder, and exchanges nothing. -/
structure StillStepper (x : StpAxis) : Prop where
  gear : x.gear = none
  prof : x.prof = none
  hold : x.hold = 0
  p : x.p = 0
  travelEn : x.travelEn = false
  encEn : x.encEn = false
  exchanged : x.exchanged = false

/-- What every stage of a sync point keeps on a device with nothing to move: nothing waits for a sync point, no axis but
the local steppers is known, and memory and mode registers are those of s; f and p are the phase and the plant time. -/
structure Resting (s : State) (f : PhaseSt) (p : PtmSt) (w : Work) : Prop where
  base : w.base = s.mem
  reads : ∀ a, rd a w = memRead s.mem a
  sys : w.d.sys = s.dev.sys
  role : w.d.sys.role ≠ .standby
  stale : w.d.sys.stale = false
  phase : w.d.phase = f
  ptm : w.d.ptm = p
  effects : w.d.cmd.effects = []
  bundles : w.d.cmd.bundles = []
  planned : w.d.pln.axes = []
  computed : w.d.ce.axes = []
  engines : w.d.ce.engines = []
  order : w.d.ce.order = []
  furrow : w.d.fd = []
  steppers : ∀ a, StillStepper (getStp a w)
  staged : w.d.stp.staged = []
  stepBase : w.d.stp.stBase = 0
  isolAt : ∀ b, (getR b w).isolAt = none
  image : w.d.trl.img = none
  prop : w.d.trl.prop = none
  heal : w.d.trl.heal = none
  brkA : w.d.trl.brkA = false
  brkB : w.d.trl.brkB = false
  timeDue : w.d.trl.timeDue = false
  stopNext : w.d.trl.stopNext = none
  runWait : w.d.trl.runWait = none
  curves : w.d.egv.curves = []
  gears : w.d.egv.gears = []
  staticW : w.d.egv.staticW = 0
  tlBase : w.d.egv.tlBase = 0
  graft : w.d.grf.en = false
  ringAt : w.d.grf.ringAt = []
  island : islandUp w.d.hdg = false
  sets : w.d.hvs.sets = []

variable {s : State} {f g : PhaseSt} {p q : PtmSt} {w v : Work}

/-! The cycle that ends: no proposal, bundle, isolation or Hedge lock is decided in it. -/

theorem lockDecided_of_resting (h : Resting s f p w) : lockDecided w = false := by
  simp [lockDecided, windowLocked, hdgRead, h.island, fld]

theorem phaseCycleEnd_resting (h : Resting s f p w) (hs : f.sampled = true) (hr : f.refPending = false) :
    Resting s f p (phaseCycleEnd w) := by
  obtain rfl := h.phase
  have e : phaseCycleEnd w = { w with d.phase.refPending := false } := by simp [phaseCycleEnd, when_, phRefHold, hs, hr]
  rw [e, ← hr]
  exact h

theorem isolateDue_resting (h : Resting s f p w) : Resting s f p (isolateDue w) := by
  simpa [isolateDue, h.effects, h.bundles] using h

theorem cycleEnd_resting (h : Resting s f p w) (hs : f.sampled = true) (hr : f.refPending = false) :
    Resting s f p (cycleEnd w) := by
  have h1 := phaseCycleEnd_resting h hs hr
  have h2 : Resting s f p (isolateDue (phaseCycleEnd w)) := isolateDue_resting h1
  simpa [cycleEnd, lockDecided_of_resting h1, when_, proposalDecide, h1.prop, decideBundles, h1.bundles, runDelayed,
    h2.runWait] using h2

/-! The counters and the modes. -/

theorem shareSync_resting (h : Resting s f p w) : Resting s f p (shareSync w) := { h with }

theorem advance_resting (u : Nat) (h : Resting s f p w) :
    Resting s { f with ncc := f.ncc + 1, lastUnits := u, frcSync := p.frc } p (advance u w) := by
  obtain rfl := h.phase
  obtain rfl := h.ptm
  exact { h with phase := rfl, ptm := rfl }

theorem hvsSample_resting (o : Work) (h : Resting s f p w) : Resting s f p (hvsSample o w) := by
  refine each_keeps _ (fun k _ v hv => ?_) h
  have hx : (getSet k v).st = 0 := by simp [getSet, hv.sets, tabGet]
  simpa [hvsHeld, hvsTake, hx] using hv

/-- No ring has a change of mode, a heal, an isolation or a contention that falls at this sync point. -/
theorem modes_resting (h : Resting s f p w) :
    Resting s f p (nodesMode (isolPorts (healSwitch (switchMode (contendStop (timesHeld w)))))) := by
  have e : isolPorts w = w := by simp [isolPorts, each, h.isolAt]
  simpa [timesHeld, h.timeDue, contendStop, h.stopNext, switchMode, h.prop, healSwitch, h.heal, e, nodesMode, h.role] using h

theorem stateEntered_resting (hv : Resting s g q v) (h : Resting s f p w) : Resting s f p (stateEntered v.d.sys.st w) := by
  simpa [stateEntered, h.sys, hv.sys] using h

theorem axesSync_resting (h : Resting s f p w) : Resting s f p (axesSync w) := by
  simpa [axesSync, h.computed, h.engines, h.furrow] using h

theorem fpSync_resting (h : Resting s f p w) : Resting s f p (fpSync w) :=
  each_keeps _ (fun _ _ _ hv => { hv with }) h

/-! The phase. -/

/-- The phase of the sync point that ends a cycle of u units under the virtual master (R42, R47). -/
def masterPhase (u : Nat) (f : PhaseSt) : PhaseSt :=
  let vm := f.vm + wdI (f.vmInForce.toInt * u)
  { f with
    vmRate := f.vmNext.getD f.vmRate, vmNext := none, vm := vm, mph := vm, mphm := vm, hist := (vm :: f.hist).take 80
    sampled := true }

theorem phaseSync_resting (u : Nat) (h : Resting s f p w) (hk : f.src.kind = 0) (hd : f.vmDirect = []) :
    Resting s (masterPhase u f) p (phaseSync u w) := by
  obtain rfl := h.phase
  have e : phaseSync u w = { w with d.phase := masterPhase u w.d.phase } := by
    simp [phaseSync, masterPhase, hk, hd]
  rw [e]
  exact { h with phase := rfl }

/-- Without direct writes on their way, taking them off leaves the phase as it is. -/
theorem phase_noWrites (hs : f.srcNext = none) (hc : f.cpmNext = none) : { f with srcNext := none, cpmNext := none } = f := by
  cases f; cases hs; cases hc; rfl

theorem phaseDirect_resting (h : Resting s f p w) (hs : f.srcNext = none) (hc : f.cpmNext = none) :
    Resting s f p (phaseDirect w) := by
  obtain rfl := h.phase
  have e : phaseDirect w = { w with d.phase.srcNext := none, d.phase.cpmNext := none } := by
    simp [phaseDirect, phaseChange, hs, hc]
  rw [e]
  exact { h with phase := phase_noWrites hs hc }

theorem phaseShow_resting (h : Resting s f p w) : Resting s { f with mphmShown := f.mphm } p (phaseShow w) := by
  obtain rfl := h.phase
  exact { h with phase := rfl }

@[simp] theorem serveDue_nil (cap used : Nat) : serveDue cap used [] = ([], used, 0) := by simp [serveDue]

@[simp] theorem carriedOver_zero (w : Work) : carriedOver 0 w = w := rfl

theorem evalNetwork_resting (h : Resting s f p w) : Resting s f p (evalNetwork w) := by
  simp only [evalNetwork, h.effects, List.filter_nil, List.map_nil, serveDue_nil, carriedOver_zero, each_nil]
  exact { h with effects := rfl }

theorem evalSlow_resting (h : Resting s f p w) : Resting s f p (evalSlow w) := by
  refine each_keeps _ (fun c _ v hv => ?_) h
  simp only [hv.effects, List.filter_nil, List.map_nil, serveDue_nil, carriedOver_zero, each_nil]
  exact { hv with effects := rfl }

theorem phaseEval_resting (h : Resting s f p w) : Resting s f p (phaseEval w) := by
  have h2 := evalSlow_resting (evalNetwork_resting h)
  simpa [phaseEval, h.effects, evalVmRate] using h2

/-! The step generators: a still stepper finds no fault, and its references, written below the first bank word while the
base of the state blocks is 0, change nothing that reads. -/

@[simp] theorem getStp_setStp_same (a : Nat) (x : StpAxis) (w : Work) : getStp a (setStp a x w) = x := by
  simp [getStp, setStp]

theorem getStp_setStp_other {a b : Nat} (x : StpAxis) (w : Work) (h : b ≠ a) : getStp b (setStp a x w) = getStp b w := by
  simp [getStp, setStp, tabGet_tabSet_other _ _ _ _ _ h]

theorem setStp_resting {a : Nat} {x : StpAxis} (hx : StillStepper x) (h : Resting s f p w) :
    Resting s f p (setStp a x w) := by
  refine { h with steppers := fun b => ?_ }
  by_cases hb : b = a
  · rw [hb, getStp_setStp_same]; exact hx
  · rw [getStp_setStp_other x w hb]; exact h.steppers b

/-- The evaluation of a still stepper finds no fault and keeps it still. -/
theorem stpEvaluate_resting (a : Nat) (h : Resting s f p w) :
    (stpEvaluate a w).1 = 0 ∧ Resting s f p (stpEvaluate a w).2 := by
  have hx := h.steppers a
  by_cases ha : a < 1024
  · simpa [stpEvaluate, ha, hx.exchanged] using h
  · have e : stpEvaluate a w = (0, setStp a { getStp a w with missRun := 0, ret := none } w) := by
      simp [stpEvaluate, ha, hx.encEn, when_]
    rw [e]
    exact ⟨rfl, setStp_resting { hx with } h⟩

theorem stpSyncFaults_resting (h : Resting s f p w) : Resting s f p (stpSyncFaults w) := by
  have h1 : Resting s f p (stpSwap w) := by
    simp only [stpSwap, h.staged, List.filter_nil, each_nil]
    exact { h with staged := rfl }
  refine each_keeps _ (fun a _ v hv => ?_) h1
  obtain ⟨h0, h2⟩ := stpEvaluate_resting a hv
  simpa [h0] using h2

/-- Writes below the first bank word change nothing that reads. -/
theorem wrs_resting {a : Nat} {l : List Word} (ha : a + l.length ≤ bankLo) (h : Resting s f p w) :
    Resting s f p (wrs a l w) := by
  have hr (x : Nat) : rd x (wrs a l w) = memRead s.mem x := by
    rw [rd_wrs, if_neg ?_, h.reads]
    rintro ⟨-, hx, hb, -⟩
    simp only [isBank, Bool.and_eq_true, decide_eq_true_eq] at hb
    omega
  obtain ⟨o, e, c, hw⟩ := wrs_frame l a w
  rw [hw] at hr ⊢
  exact { h with reads := hr }

theorem stpState_resting {a : Nat} (ha : a < 1032) (h : Resting s f p w) : Resting s f p (stpState a w) := by
  have h1 := setStp_resting (a := a) (x := { getStp a w with
    statShown := stpStatWord (getStp a w), devShown := stpDevWord (getStp a w) }) { h.steppers a with } h
  refine wrs_resting ?_ h1
  simp only [h1.stepBase, bankLo, List.length]
  omega

theorem stpHoldStep_still {x : StpAxis} (hx : StillStepper x) : StillStepper (stpHoldStep false x) := { hx with }

theorem stpGear_still {x : StpAxis} (hx : StillStepper x) (w : Work) : stpGear x w = (x, none) := by
  simp [stpGear, hx.gear]

theorem stpTravel_still {a : Nat} (hx : StillStepper (getStp a w)) : stpTravel a w = w := by
  simp [stpTravel, hx.travelEn]

theorem stpPlanAt_still {x : StpAxis} (hx : StillStepper x) (t : ℚ) : stpPlanAt x t = {} := by
  simp [stpPlanAt, profPart, hx.gear, hx.prof, hx.hold]

theorem stpSettle_resting (a : Nat) (h : Resting s f p w) : Resting s f p (stpSettle a w) := by
  simpa [stpSettle, (h.steppers a).prof] using h

/-- The reference of a still stepper is zero, and the axis stays still. -/
theorem stpReference_resting {a : Nat} (ha : a < 1032) (h : Resting s f p w) : Resting s f p (stpReference a w) := by
  have hx := h.steppers a
  have h1 := setStp_resting (a := a) hx h
  have e : posWord ({} : PState).p = 0 := by decide +kernel
  have hb : decide (255 < |modDiff 0 0|) = false := by decide
  have hm : (({} : PState).v != 0) = false := by decide +kernel
  unfold stpReference
  simp only [stpGear_still hx, stpTravel_still (h1.steppers a), getStp_setStp_same, stpPlanAt_still hx, e, hx.p, hb, hm,
    Bool.false_and, Bool.false_eq_true, if_false, ite_self, Bool.false_or]
  have hn : StillStepper (stpHoldStep false { getStp a w with p := 0, pPrev := 0, pOld := (getStp a w).pPrev }) :=
    stpHoldStep_still { hx with p := rfl }
  exact stpSettle_resting a (stpState_resting ha (setStp_resting { hn with } (setStp_resting hn h1)))

/-- Stepper axes end at 1031 on every variant. -/
theorem lt_of_mem_stpServed {a : Nat} (ha : a ∈ stpServed w) : a < 1032 := by
  simp only [stpServed, List.mem_eraseDups, List.mem_filter, stpPresent, Bool.or_eq_true, Bool.and_eq_true,
    decide_eq_true_eq] at ha
  obtain ⟨-, hm | ⟨-, hl⟩⟩ := ha
  · have : stepMax w.variant ≤ 1024 := by cases w.variant <;> decide
    omega
  · exact hl

theorem withSteppers_resting (x : StpSt) (ha : x.axes = w.d.stp.axes) (hs : x.staged = w.d.stp.staged)
    (hb : x.stBase = w.d.stp.stBase) (h : Resting s f p w) : Resting s f p { w with d.stp := x } :=
  { h with
    steppers := fun a => by simpa [getStp, ha] using h.steppers a
    staged := hs.trans h.staged
    stepBase := hb.trans h.stepBase }

theorem stpSyncRefs_resting (h : Resting s f p w) : Resting s f p (stpSyncRefs w) := by
  have h1 : Resting s f p (each (stpServed w) stpReference w) :=
    each_keeps _ (fun a ha v hv => stpReference_resting (lt_of_mem_stpServed ha) hv) h
  unfold stpSyncRefs
  extract_lets w1 w2 x
  have h2 : Resting s f p w2 := by
    refine each_keeps _ (fun n _ v hv => ?_) h1
    simpa [(hv.steppers _).encEn] using hv
  clear_value w2
  exact withSteppers_resting _ rfl rfl rfl h2

/-! Effects, the planner and the governor: no effect, bundle, axis or curve is known. -/

theorem effectsNow_resting (b : Bool) (h : Resting s f p w) : Resting s f p (ratioChanges (effectsNow b w)) := by
  have h1 : Resting s f p (effectsNow b w) := by
    simp only [effectsNow, h.bundles, h.effects, each, List.filter_nil, List.foldl_nil]
    exact { h with effects := rfl, bundles := rfl }
  simpa [ratioChanges, h1.effects] using h1

theorem ceShow_resting (h : Resting s f p w) : Resting s f p (ceShow w) := by
  simpa [ceShow, h.computed, h.order] using h

theorem earlyParts_resting (b : Bool) (h : Resting s f p w) : Resting s f p (earlyParts b w) := by
  simp only [earlyParts, earlyList, h.bundles, h.effects, each_nil, List.foldl_nil]
  exact { h with effects := rfl, bundles := rfl }

theorem plnSync_resting (h : Resting s f p w) : Resting s f p (plnSync w) := by
  simpa [plnSync, plnKnown, h.planned] using h

theorem egvReconcile_resting (h : Resting s f p w) : Resting s f p (egvReconcile w) := by
  simpa [egvReconcile, plnKnown, h.planned] using h

theorem egvWrite_resting (h : Resting s f p w) : Resting s f p (egvWrite w) := by
  have ha : egvActive w = false := by simp [egvActive, h.curves, h.gears, h.staticW]
  have hb : isBank w.d.egv.tlBase = false := by rw [h.tlBase]; rfl
  simp only [egvWrite, ha, hb, Bool.or_self, Bool.false_eq_true, if_false, List.zipIdx_nil, each_nil]
  exact { h with }

theorem egvSync_resting (h : Resting s f p w) : Resting s f p (egvSync w) := by
  unfold egvSync
  dsimp only
  split
  · exact h
  · exact egvWrite_resting { h with curves := by simp [h.curves], gears := by simp [h.gears] }

/-! The graft, which is not in use, the shares, the rings without an image, and the harvest engine without a set. -/

theorem healMark_resting (h : Resting s f p w) : Resting s f p (healMark w) := by
  simpa [healMark, h.brkA, h.brkB] using h

theorem withGraft_resting (g : GrfSt) (hg : g.en = w.d.grf.en) (hr : g.ringAt = w.d.grf.ringAt) (h : Resting s f p w) :
    Resting s f p { w with d.grf := g } := { h with graft := hg.trans h.graft, ringAt := hr.trans h.ringAt }

theorem graftYield_resting (h : Resting s f p w) : Resting s f p (graftYield w) := by
  have e : ∀ n, graftUsed { w with d.trl.noGood := n } = false := fun n => by simp [graftUsed, h.graft]
  unfold graftYield
  dsimp only
  rw [e, if_pos (by rfl)]
  exact { h with }

theorem graftWhole_resting (h : Resting s f p w) : Resting s f p (graftWhole w) := by
  simp only [graftWhole, h.ringAt, List.filter_nil, each_nil]
  exact { h with ringAt := rfl }

theorem graftStale_resting (h : Resting s f p w) : Resting s f p (graftStale w) := by
  have e : graftStale w = { w with d.sys.stale := false } := by simp [graftStale, h.role]
  rw [e]
  exact { h with sys := by rw [← h.sys, ← h.stale], stale := rfl }

theorem graftSync_resting (h : Resting s f p w) : Resting s f p (graftSync w) :=
  have h1 := graftWhole_resting (graftYield_resting h)
  withGraft_resting _ rfl rfl (graftStale_resting (withGraft_resting _ rfl rfl (withGraft_resting _ rfl rfl h1)))

theorem stageBundles_resting (h : Resting s f p w) : Resting s f p (stageBundles w) := by
  simp only [stageBundles, h.bundles, List.filter_nil, List.mergeSort_nil, List.foldl_nil]
  exact { h with bundles := rfl }

theorem modR_resting {b : Bool} {r : RingSt → RingSt} (hr : ∀ x, (r x).isolAt = x.isolAt) (h : Resting s f p w) :
    Resting s f p (modR b r w) := by
  refine { h with isolAt := fun c => ?_ }
  by_cases hc : ringKey c = ringKey b
  · simpa [getR, modR, setR, hc, hr] using h.isolAt b
  · simpa [getR, modR, setR, tabGet_tabSet_other _ _ _ _ _ hc] using h.isolAt c

theorem pruneCycle_resting (h : Resting s f p w) : Resting s f p (pruneCycle w) := by
  unfold pruneCycle
  dsimp only
  refine each_keeps _ (fun b _ v hv => ?_) ?_
  · exact modR_resting (fun _ => rfl) hv
  · exact { h with }

theorem syncFrames_resting (h : Resting s f p w) : Resting s f p (syncFrames w) := by
  have e : ringsUsed w = [] := by simp [ringsUsed, ringUsed, imageOf, h.image]
  simpa [syncFrames, e] using h

theorem hvsAnchors_resting (h : Resting s f p w) : Resting s f p (hvsAnchors w) := by
  unfold hvsAnchors
  dsimp only
  refine each_keeps _ (fun k _ v hv => ?_) ?_
  · have hx : (getSet k v).st = 0 := by simp [getSet, hv.sets, tabGet]
    simpa only [hx, bne_self_eq_false, Bool.false_and, Bool.false_eq_true, if_false] using hv
  · exact { h with }

theorem hvsSnap_resting (h : Resting s f p w) : Resting s f p (hvsSnap w) := { h with }

theorem nodesInit_resting (h : Resting s f p w) : Resting s f p (nodesInit w) := by
  simpa [nodesInit, h.role] using h

theorem irq_resting (i : Nat) (h : Resting s f p w) : Resting s f p (irq i w) := by
  obtain ⟨x, o, e⟩ := irq_frame i w
  rw [e]
  exact { h with }

theorem ite_resting (c : Prop) [Decidable c] (hw : Resting s f p w) (hv : Resting s f p v) :
    Resting s f p (if c then w else v) := by
  split
  · exact hw
  · exact hv

theorem stampSync_resting (h : Resting s f p w) :
    Resting s f { p with sncc := f.ncc, spt := (ptStamp w).1 } (stampSync w) := by
  obtain rfl := h.phase
  obtain rfl := h.ptm
  have h1 : Resting s w.d.phase { w.d.ptm with sncc := w.d.phase.ncc, spt := (ptStamp w).1 } { w with
      d.freeCtr := w.d.freeCtr + 1, d.ptm.sncc := w.d.phase.ncc, d.ptm.spt := (ptStamp w).1 } :=
    { h with phase := rfl, ptm := rfl }
  have h2 (c : Prop) [Decidable c] := ite_resting c (irq_resting 9 h1) h1
  exact ite_resting _ { h2 _ with } (h2 _)

theorem graftBuild_resting (h : Resting s f p w) : Resting s f p (graftBuild w) := by
  simpa [graftBuild, graftRuns, graftUsed, h.graft] using h

theorem shows_resting (h : Resting s f p w) : Resting s f p (graftShow (hvsShow (ringShow w))) := { h with }

theorem bpRefresh_resting (h : Resting s f p w) : Resting s f p (bpRefresh w) := by
  obtain ⟨q, j, x, o, e⟩ := bpRefresh_frame w
  rw [e]
  exact { h with }

/-! The whole sync point. -/

/-- The virtual master is the source of the phase, and no change of it is on its way. -/
structure MasterSteady (f : PhaseSt) : Prop where
  kind : f.src.kind = 0
  srcNext : f.srcNext = none
  cpmNext : f.cpmNext = none
  sampled : f.sampled = true
  refPending : f.refPending = false
  vmDirect : f.vmDirect = []

/-- The phase after a sync point at counter value c that ends a cycle of u units: the counters advance, then the virtual
master, and SYS_MPHM shows it. -/
def phaseAfter (u : Nat) (c : BitVec 64) (f : PhaseSt) : PhaseSt :=
  let g := masterPhase u { f with ncc := f.ncc + 1, lastUnits := u, frcSync := c }
  { g with mphmShown := g.mphm }

theorem when_resting {c : Bool} {k : Work → Work} (hk : c = true → Resting s f p (k w)) (h : Resting s f p w) :
    Resting s f p (when_ c k w) := by
  cases c
  · exact h
  · exact hk rfl

/-- A device at rest under the virtual master stays at rest over a sync point: its phase advances, plant time keeps the
stamp of the sync point, and mode registers and memory stay. -/
theorem syncPoint_resting (h : Resting s f p w) (hf : MasterSteady f) (hc : w.d.sys.cycOn = true) :
    ∃ c, Resting s (phaseAfter (unitsOf s.dev.sys.rate) p.frc f) { p with sncc := f.ncc + 1, spt := c } (syncPoint w) := by
  unfold syncPoint
  rw [if_neg (by simp [hc])]
  extract_lets w1 o u was w2 w3 w4 w5 lock w6 slowNow w7 w8 w9 w10 w11 w12 w13 w14 w15 w16 w17
  have h1 : Resting s f p w1 := cycleEnd_resting h hf.sampled hf.refPending
  have hu : u = unitsOf s.dev.sys.rate := congrArg (fun y => unitsOf y.rate) h1.sys
  have h4 : Resting s _ p w4 := modes_resting (shareSync_resting (hvsSample_resting o (advance_resting u h1)))
  have h5 : Resting s _ p w5 := stateEntered_resting h1 h4
  have hl : lock = false := lockDecided_of_resting h5
  have h6 : Resting s _ p w6 :=
    phaseDirect_resting (phaseSync_resting u (fpSync_resting (axesSync_resting h5)) hf.kind hf.vmDirect)
      hf.srcNext hf.cpmNext
  have h7 : Resting s _ p w7 := when_resting (fun _ => stpSyncFaults_resting h6) h6
  have h9 : Resting s _ p w9 := earlyParts_resting _ (ceShow_resting (effectsNow_resting _ h7))
  have h10 : Resting s _ p w10 := when_resting (by simp [hl]) h9
  have h11 : Resting s _ p w11 := when_resting (fun _ => phaseEval_resting h10) h10
  have h12 : Resting s _ p w12 := when_resting (fun _ => stpSyncRefs_resting h11) h11
  have h13 : Resting s _ p w13 :=
    phaseShow_resting (egvSync_resting (egvReconcile_resting (plnSync_resting h12)))
  have h15 : Resting s _ p w15 := pruneCycle_resting (stageBundles_resting (graftSync_resting (healMark_resting h13)))
  have h16 : Resting s _ p w16 := hvsSnap_resting (hvsAnchors_resting (syncFrames_resting h15))
  have h17 : Resting s _ _ w17 := graftBuild_resting (stampSync_resting (nodesInit_resting h16))
  rw [← hu]
  exact ⟨_, bpRefresh_resting (shows_resting h17)⟩

end Sys2Proof.Machine

namespace Sys2Proof.Claims

open Sys2Proof.Machine

/-- A device with nothing to move rests before the sync point. -/
theorem AtRest.resting {s : State} (h : AtRest s) : Resting s s.dev.phase s.dev.ptm (begin_ s) := by
  obtain ⟨hd, -, hr, hs⟩ := h
  have hstp : s.dev.stp.axes = [] := congrArg (·.stp.axes) hd
  have hdq : s.dev.dq = [] := congrArg (·.dq) hd
  exact {
    base := rfl
    reads := fun _ => rfl
    sys := rfl
    role := hr
    stale := hs
    phase := rfl
    ptm := rfl
    effects := congrArg (·.cmd.effects) hd
    bundles := congrArg (·.cmd.bundles) hd
    planned := congrArg (·.pln.axes) hd
    computed := congrArg (·.ce.axes) hd
    engines := congrArg (·.ce.engines) hd
    order := congrArg (·.ce.order) hd
    furrow := congrArg (·.fd) hd
    staged := congrArg (·.stp.staged) hd
    stepBase := congrArg (·.stp.stBase) hd
    image := congrArg (·.trl.img) hd
    prop := congrArg (·.trl.prop) hd
    heal := congrArg (·.trl.heal) hd
    brkA := congrArg (·.trl.brkA) hd
    brkB := congrArg (·.trl.brkB) hd
    timeDue := congrArg (·.trl.timeDue) hd
    stopNext := congrArg (·.trl.stopNext) hd
    runWait := congrArg (·.trl.runWait) hd
    curves := congrArg (·.egv.curves) hd
    gears := congrArg (·.egv.gears) hd
    staticW := congrArg (·.egv.staticW) hd
    tlBase := congrArg (·.egv.tlBase) hd
    graft := congrArg (·.grf.en) hd
    ringAt := congrArg (·.grf.ringAt) hd
    sets := congrArg (·.hvs.sets) hd
    island := congrArg (fun d => islandUp d.hdg) hd
    steppers := fun a => by
      have e : getStp a (begin_ s) = {} := by simp [getStp, hstp, tabGet]
      rw [e]
      exact ⟨rfl, rfl, rfl, rfl, rfl, rfl, rfl⟩
    isolAt := fun b => by simp [getR, hdq, tabGet] }

theorem OnVirtualMaster.steady {s : State} (h : OnVirtualMaster s) : MasterSteady s.dev.phase := by
  obtain ⟨hk, hs, hc, -, hp, hr, -, hd, -⟩ := h
  exact ⟨hk, hs, hc, hp, hr, hd⟩

/-- A network cycle lasts 8, 4, 2 or 1 units by its rate code (R42). -/
theorem unitsOf_eq_rateUnits (r : Nat) : (unitsOf r : Int) = rateUnits r := by
  match r with
  | 0 | 1 | 2 | 3 => rfl
  | _ + 4 => rfl

/-- SYNC_POINT on a running device is `syncPoint` on its working copy. -/
theorem ends_syncPoint {s : State} (hl : live s = true) {P : State → Prop} (h : P (commit s (syncPoint (begin_ s)))) :
    Ends .syncPoint s P := ⟨_, run_live syncPoint s hl, h⟩

end Sys2Proof.Claims

namespace Sys2Proof.Proofs

open Sys2Proof.Machine Sys2Proof.Claims

/-- Settles O42: the last stages of `syncPoint` show the registers, and a device at rest meets `Resting` through every
stage, in which the virtual master alone advances. -/
theorem syncPoint : Obligations.SyncPoint := by
  intro s hl
  refine ⟨fun hc => ?_, fun hc => ends_syncPoint hl ?_, fun hc hr hv => ends_syncPoint hl ?_⟩
  · show run Machine.syncPoint s = .next s
    rw [run_live _ s hl, syncPoint_off _ hc, commit_begin]
  · obtain ⟨v, hv⟩ := syncPoint_shows (begin_ s) hc
    obtain ⟨q, j, h, o, hb⟩ := bpRefresh_frame (graftShow (hvsShow (ringShow v)))
    rw [hv, hb]
    exact ⟨rfl, rfl, rfl⟩
  · obtain ⟨c, h⟩ := syncPoint_resting hr.resting hv.steady hc
    have hm (a : Nat) : memRead (commit s (Machine.syncPoint (begin_ s))).mem a = memRead s.mem a := by
      rw [memRead_commit s _ h.base, h.reads]
    dsimp only
    rw [commit_dev, h.phase, h.ptm, h.sys, ← unitsOf_eq_rateUnits]
    exact ⟨rfl, rfl, rfl, rfl, rfl, rfl, hm⟩

end Sys2Proof.Proofs
end

section
/-! SUPPORT. The direct writes of the phase registers: the states in which they act, and what each of them leaves. -/

namespace Sys2Proof.Machine

/-- The states from CONFIG on are all but OFF, BOOT_HOLD and BOOT (spec/01 Table 1.7). -/
theorem fromConfig_iff (x : DevState) : fromConfig x = true ↔ x ≠ .boot ∧ x ≠ .bootHold ∧ x ≠ .off := by
  cases x <;> decide

theorem fld_eq_div_mod (v : Word) (lo n : Nat) : fld v lo n = v.toNat / 2 ^ lo % 2 ^ n := by
  simp [fld, Nat.shiftRight_eq_div_pow]

/-- The fields of SYS_PHSRC by their places in the word (spec/02 Table 2.2). -/
theorem phSrcOf_eq (v : Word) :
    phSrcOf v = { kind := v.toNat % 8, port := v.toNat / 8 % 8, axis := v.toNat / 64 % 256 } := by
  simp [phSrcOf, fld_eq_div_mod]

/-! The values of VM_RATE on their way. -/

theorem vmPush_frame (j v : Word) (w : Work) :
    vmPush j v w = { w with d.phase.vmDirect := (vmPush j v w).d.phase.vmDirect } := rfl

/-- The new value is put between those due up to its sync point and those due later, and none of them is lost (R44). -/
theorem mem_vmPush (j v : Word) (w : Work) (e : Word × Word) :
    e ∈ (vmPush j v w).d.phase.vmDirect ↔ e = (j, v) ∨ e ∈ w.d.phase.vmDirect := by
  have hsplit : modDiff e.1 j ≤ 0 ∨ 0 < modDiff e.1 j := le_or_gt _ _
  simp only [vmPush, List.mem_append, List.mem_filter, List.mem_singleton, decide_eq_true_eq]
  tauto

/-! The writes, before CONFIG and from CONFIG on. -/

section
variable {w : Work}

theorem phsrcWrite_before (v : Word) (h : fromConfig w.d.sys.st = false) : phsrcWrite v w = w := by
  simp [phsrcWrite, h]

theorem phcpmWrite_before (v : Word) (h : fromConfig w.d.sys.st = false) : phcpmWrite v w = w := by
  simp [phcpmWrite, h]

theorem vmrateWrite_before (v : Word) (h : fromConfig w.d.sys.st = false) : vmrateWrite v w = w := by
  simp [vmrateWrite, h]

theorem phsrcWrite_reserved {v : Word} (hv : 2 < v.toNat % 8) : phsrcWrite v w = w := by
  have hk : 2 < fld v 0 3 := by simpa [fld_eq_div_mod] using hv
  simp [phsrcWrite, hk]

theorem phsrcWrite_kind {v : Word} (h : fromConfig w.d.sys.st = true) (hv : v.toNat % 8 ≤ 2) :
    phsrcWrite v w = { w with d.phase.srcNext := some (phSrcOf v) } := by
  have hk : fld v 0 3 ≤ 2 := by simpa [fld_eq_div_mod] using hv
  simp [phsrcWrite, h, hk]

theorem phcpmWrite_from (v : Word) (h : fromConfig w.d.sys.st = true) :
    phcpmWrite v w = { w with d.phase.cpmNext := some (v.toNat % 2 ^ 24) } := by
  simp [phcpmWrite, h, fld_eq_div_mod]

theorem vmrateWrite_from (v : Word) (h : fromConfig w.d.sys.st = true) :
    vmrateWrite v w = vmPush (nccPlus 3 w) v { w with d.phase.vmNext := some v } := by
  simp [vmrateWrite, h]

end

/-- A meaning that leaves the working copy as it is changes nothing. -/
theorem run_unchanged {f : Work → Work} {s : State} (hl : live s = true) (h : f (begin_ s) = begin_ s) :
    run f s = .next s := by
  rw [run_live f s hl, h, commit_begin]

end Sys2Proof.Machine

namespace Sys2Proof.Claims

open Sys2Proof.Machine

/-! The commands on a running device. -/

section
variable {s : State} (hl : live s = true)
include hl

theorem phaseWrites_before (v : Word) (h : fromConfig s.dev.sys.st = false) :
    exec (.sysPhsrcWrite v) s = .next s ∧ exec (.sysPhcpmWrite v) s = .next s ∧ exec (.sysVmrateWrite v) s = .next s :=
  ⟨run_unchanged hl (phsrcWrite_before v h), run_unchanged hl (phcpmWrite_before v h),
    run_unchanged hl (vmrateWrite_before v h)⟩

theorem exec_sysPhsrcWrite_kind {v : Word} (h : fromConfig s.dev.sys.st = true) (hv : v.toNat % 8 ≤ 2) :
    exec (.sysPhsrcWrite v) s = .next (withDev s { s.dev with phase := { s.dev.phase with
      srcNext := some { kind := v.toNat % 8, port := v.toNat / 8 % 8, axis := v.toNat / 64 % 256 } } }) := by
  show run (phsrcWrite v) s = _
  rw [run_live _ s hl, phsrcWrite_kind h hv, phSrcOf_eq]
  rfl

theorem exec_sysPhcpmWrite (v : Word) (h : fromConfig s.dev.sys.st = true) :
    exec (.sysPhcpmWrite v) s = .next (withDev s { s.dev with phase := { s.dev.phase with
      cpmNext := some (v.toNat % 2 ^ 24) } }) := by
  show run (phcpmWrite v) s = _
  rw [run_live _ s hl, phcpmWrite_from v h]
  rfl

theorem ends_sysVmrateWrite (v : Word) (h : fromConfig s.dev.sys.st = true) :
    Ends (.sysVmrateWrite v) s fun t =>
      t = withDev s { s.dev with phase := { s.dev.phase with vmNext := some v, vmDirect := t.dev.phase.vmDirect } }
        ∧ ∀ e, e ∈ t.dev.phase.vmDirect ↔ e = (cycleIn 3 s, v) ∨ e ∈ s.dev.phase.vmDirect := by
  refine ⟨_, run_live (vmrateWrite v) s hl, ?_⟩
  rw [vmrateWrite_from (w := begin_ s) v h]
  exact ⟨congrArg (commit s) (vmPush_frame _ v _), mem_vmPush _ v _⟩

end

end Sys2Proof.Claims

namespace Sys2Proof.Proofs

open Sys2Proof.Machine Sys2Proof.Claims

/-- Settles O31: before CONFIG no write acts; from CONFIG on a reserved KIND is ignored, a source or a CPM becomes the
waiting one, and a rate joins those on their way, of which none is lost. -/
theorem phaseRegisterWrites : Obligations.PhaseRegisterWrites := by
  intro v s hl
  refine ⟨fun hst => ?_, fun hb hh ho => ?_⟩
  · have hf : fromConfig s.dev.sys.st = false := by rcases hst with h | h | h <;> rw [h] <;> rfl
    exact phaseWrites_before hl v hf
  · have hf : fromConfig s.dev.sys.st = true := (fromConfig_iff _).2 ⟨hb, hh, ho⟩
    exact ⟨fun hv => run_unchanged hl (phsrcWrite_reserved hv), exec_sysPhsrcWrite_kind hl hf,
      exec_sysPhcpmWrite hl v hf, ends_sysVmrateWrite hl v hf⟩

end Sys2Proof.Proofs
end

section
/-! SUPPORT. The command queues: what a queue and a slot read as after each shared operation, and what an event leaves in
the log. -/

namespace Sys2Proof.Machine

/-! Queues and slots of the working copy. -/

theorem getQ_setQ (k q : Nat) (x : Queue) (w : Work) : getQ k (setQ q x w) = if k = q then x else getQ k w :=
  tabGet_tabSet _ _ _ _ _

theorem getQ_modQ (k q : Nat) (f : Queue → Queue) (w : Work) :
    getQ k (modQ q f w) = if k = q then f (getQ q w) else getQ k w := getQ_setQ _ _ _ _

/-- A run of memory writes, one for each element, leaves everything but the words, their codes and the page CRCs. -/
theorem eachWr_frame {α : Type} (a : α → Nat) (v : α → Word) (l : List α) (w : Work) :
    ∃ o e c, each l (fun j w => wr (a j) (v j) w) w = { w with ops := o, d.mem.ecc := e, d.mem.pageCrc := c } := by
  refine each_keeps (P := fun u => ∃ o e c, u = { w with ops := o, d.mem.ecc := e, d.mem.pageCrc := c }) l ?_
    ⟨w.ops, w.d.mem.ecc, w.d.mem.pageCrc, rfl⟩
  rintro j - _ ⟨o, e, c, rfl⟩
  obtain ⟨o', e', c', h⟩ := wr_frame (a j) (v j) { w with ops := o, d.mem.ecc := e, d.mem.pageCrc := c }
  exact ⟨o', e', c', h⟩

theorem mirrorWords_frame (a : Nat) (ws : List Word) (w : Work) : ∃ m, mirrorWords a ws w = { w with d.out := m } := by
  refine each_keeps (P := fun u => ∃ m, u = { w with d.out := m }) _ ?_ ⟨w.d.out, rfl⟩
  rintro j - _ ⟨m, rfl⟩
  exact ⟨_, rfl⟩

/-- The queue with one slot stored. -/
def withSlot (e : Nat) (x : Slot) (k : Queue) : Queue := { k with slots := tabSet {} k.slots e x }

/-- Storing a slot changes its record in the queue; the rest of what it does is memory words and host messages. -/
theorem putSlot_frame (q e : Nat) (x : Slot) (w : Work) : ∃ o ec c m, putSlot q e x w =
    { modQ q (withSlot e x) w with ops := o, d.mem.ecc := ec, d.mem.pageCrc := c, d.out := m } := by
  unfold putSlot
  extract_lets w1 k w2
  obtain ⟨o, ec, c, h⟩ := eachWr_frame (fun j => k.rslt + 16 * e + j) (fun j => nth 0 (slotWords x) j) slotOrder w1
  have h2 : w2 = { w1 with ops := o, d.mem.ecc := ec, d.mem.pageCrc := c } := h
  split
  · obtain ⟨m, hm⟩ := mirrorWords_frame ((k.mirH * 2 ^ 32 + k.mirL) + 128 * e) (slotWords x) w2
    exact ⟨o, ec, c, m, by rw [hm, h2]; rfl⟩
  · exact ⟨o, ec, c, w1.d.out, h2⟩

theorem getQ_putSlot (k q e : Nat) (x : Slot) (w : Work) :
    getQ k (putSlot q e x w) = if k = q then withSlot e x (getQ q w) else getQ k w := by
  obtain ⟨_, _, _, _, h⟩ := putSlot_frame q e x w
  rw [h]
  exact getQ_modQ k q _ w

theorem getSlot_putSlot (k j q e : Nat) (x : Slot) (w : Work) :
    getSlot k j (putSlot q e x w) = if k = q ∧ j = e then x else getSlot k j w := by
  unfold getSlot
  rw [getQ_putSlot]
  by_cases hk : k = q
  · subst hk
    simp [withSlot, tabGet_tabSet]
  · simp [hk]

@[simp] theorem getQ_irqQueueStat (k : Nat) (w : Work) : getQ k (irqQueueStat w) = getQ k w := by
  obtain ⟨_, _, h⟩ := irqQueueStat_frame w
  rw [h]; rfl

@[simp] theorem getQ_logEvent (k : Nat) (b : Blk) (i c x : Nat) (w : Work) : getQ k (logEvent b i c x w) = getQ k w := by
  simp [getQ]

/-- Back-pressure is all that its refresh shows in a queue. -/
theorem getQ_bpRefresh (k : Nat) (w : Work) : ∃ b, getQ k (bpRefresh w) = { getQ k w with bp := b } := by
  have h : ∃ b, getQ k (each (List.range 5) (fun q w => if (getQ q w).bp == bpNow q w then w else
      modQ q (fun x => { x with bp := bpNow q w }) w) w) = { getQ k w with bp := b } := by
    refine each_keeps (P := fun v => ∃ b, getQ k v = { getQ k w with bp := b }) _ ?_ ⟨(getQ k w).bp, rfl⟩
    rintro q - v ⟨b, hb⟩
    split
    · exact ⟨b, hb⟩
    · rw [getQ_modQ]
      split
      · next h => subst h; exact ⟨_, by rw [hb]⟩
      · exact ⟨b, hb⟩
  unfold bpRefresh
  generalize each (List.range 5) _ w = v at h ⊢
  rw [getQ_irqQueueStat]
  exact h

@[simp] theorem getSlot_bpRefresh (k e : Nat) (w : Work) : getSlot k e (bpRefresh w) = getSlot k e w := by
  obtain ⟨b, h⟩ := getQ_bpRefresh k w
  unfold getSlot
  rw [h]

/-- Of the command system, the refresh of back-pressure changes the queues and JWAIT. -/
theorem bpRefresh_cmd (w : Work) : ∃ q j, (bpRefresh w).d.cmd = { w.d.cmd with queues := q, jWait := j } := by
  obtain ⟨q, j, _, _, h⟩ := bpRefresh_frame w
  exact ⟨q, j, by rw [h]⟩

@[simp] theorem bpRefresh_dispatch (w : Work) : (bpRefresh w).d.cmd.dispatch = w.d.cmd.dispatch := by
  obtain ⟨_, _, h⟩ := bpRefresh_cmd w
  rw [h]

/-- A step of `each` at an element brings a property that every step keeps. -/
theorem each_reaches {α σ : Type} {P : σ → Prop} {f : α → σ → σ} {a : α} (hset : ∀ s, P (f a s))
    (hkeep : ∀ b s, P s → P (f b s)) {l : List α} (ha : a ∈ l) (s : σ) : P (each l f s) := by
  induction l generalizing s with
  | nil => cases ha
  | cons b l ih =>
    rcases List.mem_cons.1 ha with rfl | h
    · exact each_keeps l (fun c _ v hv => hkeep c v hv) (hset s)
    · exact ih h (f b s)

end Sys2Proof.Machine

namespace Sys2Proof.Claims

open Sys2Proof.Machine

/-- A command that is a meaning of the main device, on a running device. -/
theorem ends_run {c : Instr} {s : State} {f : Work → Work} {P : State → Prop} (hc : exec c s = run f s)
    (hl : live s = true) (h : P (commit s (f (begin_ s)))) : Ends c s P := ⟨_, hc.trans (run_live f s hl), h⟩

@[simp] theorem queue_commit (k : Nat) (s : State) (w : Work) : queue k (commit s w) = getQ k w := rfl
@[simp] theorem slot_commit (k e : Nat) (s : State) (w : Work) : slot k e (commit s w) = getSlot k e w := rfl
@[simp] theorem getQ_begin (k : Nat) (s : State) : getQ k (begin_ s) = queue k s := rfl
@[simp] theorem getSlot_begin (k e : Nat) (s : State) : getSlot k e (begin_ s) = slot k e s := rfl

/-- The record of an event in a log whose next record lies in memory (R92, R93). -/
theorem eventLogged_logEvent (b : Blk) {i c : Nat} (x : Nat) {s : State} (hr : logReady s) (hi : i < 4096)
    (hc : c < 65536) : EventLogged (blkCode b) i c x s (commit s (logEvent b i c x (begin_ s))) := by
  obtain ⟨hw, hrd, hov⟩ := logEvent_index b i c x (begin_ s)
  obtain ⟨v0, hm⟩ := logEvent_words b i c x (begin_ s)
  have hb : blkCode b < 256 := by cases b <;> decide
  have read (a : Nat) : memRead (commit s (logEvent b i c x (begin_ s))).mem a = _ :=
    (memRead_commit s _ (logEvent_base b i c x (begin_ s)) a).trans ((hm a).trans (rd_wrs _ _ _ a))
  have word (k : Nat) (hk : k < 4) : memRead (commit s (logEvent b i c x (begin_ s))).mem (nextRecord s + k) =
      [v0, s.dev.phase.ncc, wd (put 28 8 (blkCode b) + put 16 12 i + put 0 16 c), wd x].getD k 0 := by
    obtain ⟨hbank, hon⟩ := hr k hk
    rw [read, if_pos ⟨Nat.le_add_right _ _, Nat.add_lt_add_left hk _, hbank, hon⟩, begin_d]
    exact congrArg (List.getD _ · 0) (Nat.add_sub_cancel_left (nextRecord s) k)
  have hput : put 28 8 (blkCode b) + put 16 12 i + put 0 16 c = blkCode b * 2 ^ 28 + i * 2 ^ 16 + c := by
    simp only [put, Nat.shiftLeft_eq]
    omega
  refine ⟨hw, hrd, hov, word 1 (by omega), ?_, word 3 (by omega), fun a ha => ?_⟩
  · rw [word 2 (by omega), ← hput]; rfl
  · rw [read, if_neg]
    · rfl
    · rintro ⟨h1, h2, -⟩
      change nextRecord s ≤ a at h1
      change a < nextRecord s + 4 at h2
      omega

end Sys2Proof.Claims
end

section
/-! SUPPORT. The writes of the queue registers and of the event log's registers (spec/03 R57, R87, R94, R96, R645). -/

namespace Sys2Proof.Machine

open Sys2Proof.Claims

/-- The owning port is the one the rules name (R56). -/
theorem queueOwner_eq (q : Nat) : queueOwner q = ownerOf q := by simp [queueOwner, ownerOf]

theorem owned_own {mid q : Nat} (f : Work → Work) (w : Work) (h : mid = ownerOf q) : owned mid q f w = f w := by
  simp [owned, queueOwner_eq, h]

theorem owned_other {mid q : Nat} (f : Work → Work) (w : Work) (h : mid ≠ ownerOf q) :
    owned mid q f w = logEvent .cmd q 5 0 w := by
  simp [owned, queueOwner_eq, h]

/-! Release of a slot (R87). -/

/-- A slot as its release leaves it: OPCODE, GEN and SEQ stay. -/
def releasedSlot (x : Slot) : Slot := { x with status := 1, rlen := 0, res := [], owner := none, released := true }

theorem relWrite_pending {mid q : Nat} {v : Word} {w : Work} (hm : mid = ownerOf q)
    (h : (getSlot q (v.toNat % 256) w).status = 1) : relWrite mid q v w = logEvent .cmd q 3 0 w := by
  simp [relWrite, owned_own _ w hm, fld_eq_div_mod, h, stPending]

/-- A release stores the released slot, and takes the queue's SLOT_WAIT back where the slot is the one at HEAD. -/
theorem getQ_relWrite {mid q : Nat} {v : Word} {w : Work} (hm : mid = ownerOf q)
    (h : (getSlot q (v.toNat % 256) w).status ≠ 1) (k : Nat) :
    ∃ b, getQ k (relWrite mid q v w) = if k = q then
      { withSlot (v.toNat % 256) (releasedSlot (getSlot q (v.toNat % 256) w)) (getQ q w) with slotWait := b }
      else getQ k w := by
  have e : relWrite mid q v w = irqQueueStat
      (let u := putSlot q (v.toNat % 256) (releasedSlot (getSlot q (v.toNat % 256) w)) w
       if (getQ q u).head % 256 == v.toNat % 256 then modQ q (fun y => { y with slotWait := false }) u else u) := by
    simp [relWrite, owned_own _ w hm, fld_eq_div_mod, h, stPending, releasedSlot]
  rw [e, getQ_irqQueueStat]
  dsimp only
  split
  · refine ⟨false, ?_⟩
    rw [getQ_modQ, getQ_putSlot, getQ_putSlot]
    by_cases hk : k = q <;> simp [hk]
  · refine ⟨(getQ q w).slotWait, ?_⟩
    rw [getQ_putSlot]
    rfl

/-! CMDq_CTL (Table 3.11). -/

/-- A slot as the enabling of its queue leaves it. -/
def FreshSlot (x : Slot) : Prop := x.released = true ∧ x.gen = 0 ∧ x.status = 1

/-- Enabling a queue clears HEAD and TAIL, takes LOC and RMIR, frees every slot, and leaves the other queues. -/
theorem queueEnable_spec (q : Nat) (loc rmir : Bool) (w : Work) :
    (∀ k, k ≠ q → getQ k (queueEnable q loc rmir w) = getQ k w)
      ∧ (let y := getQ q (queueEnable q loc rmir w)
         y.en = true ∧ y.loc = loc ∧ y.rmir = rmir ∧ y.head = 0 ∧ y.tail = 0)
      ∧ ∀ e, e < 256 → FreshSlot (getSlot q e (queueEnable q loc rmir w)) := by
  unfold queueEnable
  extract_lets w1
  refine ⟨fun k hk => ?_, ?_, fun e he => ?_⟩
  · refine each_keeps (P := fun v => getQ k v = getQ k w) _ (fun e _ v hv => ?_) ?_
    · rw [getQ_putSlot, if_neg hk, hv]
    · exact (getQ_modQ _ _ _ _).trans (if_neg hk)
  · refine each_keeps (P := fun v => let y := getQ q v
      y.en = true ∧ y.loc = loc ∧ y.rmir = rmir ∧ y.head = 0 ∧ y.tail = 0) _ (fun e _ v hv => ?_) ?_
    · dsimp only
      rw [getQ_putSlot, if_pos rfl]
      exact hv
    · dsimp only [w1]
      rw [getQ_modQ, if_pos rfl]
      exact ⟨rfl, rfl, rfl, rfl, rfl⟩
  · refine each_reaches (P := fun v => FreshSlot (getSlot q e v)) (fun v => ?_) (fun j v hv => ?_) (List.mem_range.2 he) w1
    · rw [getSlot_putSlot, if_pos ⟨rfl, rfl⟩]
      exact ⟨rfl, rfl, rfl⟩
    · rw [getSlot_putSlot]
      split
      · exact ⟨rfl, rfl, rfl⟩
      · exact hv

/-- What a write of CMDq_CTL that gives EN the value on leaves of the queue x as y (Table 3.11). -/
structure CtlWritten (on loc rmir : Bool) (x y : Queue) : Prop where
  en : y.en = on
  taken : x.en = false → y.loc = loc ∧ y.rmir = rmir
  kept : x.en = true → y.loc = x.loc ∧ y.rmir = x.rmir ∧ y.head = x.head ∧ y.tail = x.tail ∧ y.slots = x.slots
  fresh : x.en = false → on = true → y.head = 0 ∧ y.tail = 0 ∧ ∀ e, e < 256 → FreshSlot (tabGet {} y.slots e)

theorem CtlWritten.refreshed {on loc rmir : Bool} {x y : Queue} (h : CtlWritten on loc rmir x y) (b : Bool) :
    CtlWritten on loc rmir x { y with bp := b } := ⟨h.en, h.taken, h.kept, h.fresh⟩

/-- CMDq_CTL before its refresh of back-pressure: EN rises, stays low, falls or stays high. -/
theorem ctlWrite_beforeRefresh (q : Nat) (v : Word) (w : Work) :
    ∃ u, ctlWrite q v w = bpRefresh u ∧ (∀ k, k ≠ q → getQ k u = getQ k w)
      ∧ CtlWritten (bit v 0) (bit v 1 && q != 4) (bit v 2 && q != 4) (getQ q w) (getQ q u) := by
  unfold ctlWrite
  extract_lets x loc rmir u
  refine ⟨u, rfl, ?_⟩
  have other (f : Queue → Queue) (k : Nat) (hk : k ≠ q) : getQ k (modQ q f w) = getQ k w :=
    (getQ_modQ k q f w).trans (if_neg hk)
  have own (f : Queue → Queue) : getQ q (modQ q f w) = f (getQ q w) := (getQ_modQ q q f w).trans (if_pos rfl)
  cases hx : (getQ q w).en <;> cases hv : bit v 0
  case false.false =>
    have hu : u = modQ q (fun x => { x with loc := loc, rmir := rmir }) w := by simp [u, x, hx, hv]
    rw [hu, own]
    exact ⟨other _, hx, fun _ => ⟨rfl, rfl⟩, fun h => by simp [hx] at h, fun _ h => by cases h⟩
  case false.true =>
    have hu : u = queueEnable q loc rmir w := by simp [u, x, hx, hv]
    obtain ⟨ho, ⟨he, hl, hr, hh, ht⟩, hs⟩ := queueEnable_spec q loc rmir w
    rw [hu]
    exact ⟨ho, he, fun _ => ⟨hl, hr⟩, fun h => by simp [hx] at h, fun _ _ => ⟨hh, ht, hs⟩⟩
  case true.false =>
    have hu : u = modQ q (fun x => { x with en := false }) w := by simp [u, x, hx, hv]
    rw [hu, own]
    exact ⟨other _, rfl, fun h => by simp [hx] at h, fun _ => ⟨rfl, rfl, rfl, rfl, rfl⟩, fun _ h => by cases h⟩
  case true.true =>
    have hu : u = w := by simp [u, x, hx, hv]
    rw [hu]
    exact ⟨fun _ _ => rfl, hx, fun h => by simp [hx] at h, fun _ => ⟨rfl, rfl, rfl, rfl, rfl⟩, fun h => by simp [hx] at h⟩

/-- A write of CMDq_CTL acts on its queue, and shows back-pressure in the others; Q4 has neither LOC nor RMIR. -/
theorem getQ_ctlWrite (q : Nat) (v : Word) (w : Work) :
    (∀ k, k ≠ q → ∃ b, getQ k (ctlWrite q v w) = { getQ k w with bp := b })
      ∧ CtlWritten (bit v 0) (bit v 1 && decide (q ≠ 4)) (bit v 2 && decide (q ≠ 4)) (getQ q w)
        (getQ q (ctlWrite q v w)) := by
  obtain ⟨u, hu, ho, hc⟩ := ctlWrite_beforeRefresh q v w
  have hq : (q != 4) = decide (q ≠ 4) := by rw [Bool.eq_iff_iff]; simp
  rw [hq] at hc
  rw [hu]
  refine ⟨fun k hk => ?_, ?_⟩
  · rw [← ho k hk]
    exact getQ_bpRefresh k u
  · obtain ⟨b, hb⟩ := getQ_bpRefresh q u
    rw [hb]
    exact hc.refreshed b

/-! The event log's registers (R94, R645, R615). -/

/-- In CONFIG a write of CMD_EVBASE or CMD_EVLEN aligns the base to the length and clears both indices (R94, R615). -/
theorem evConfigWrite_config (len : Bool) (v : Word) {w : Work} (h : w.d.sys.st = .config) :
    let n := if len then v.toNat % 16 else w.d.cmd.evLen
    let b := if len then w.d.cmd.evBase else v.toNat % 2 ^ 23
    evConfigWrite len v w = { w with
      d.cmd.evLen := n, d.cmd.evWr := 0, d.cmd.evRd := 0
      d.cmd.evBase := b / (1024 * 2 ^ min n 8) * (1024 * 2 ^ min n 8) } := by
  have h4 (k : Nat) : 4 * (256 * k) = 1024 * k := by omega
  cases len <;> simp [evConfigWrite, h, evLength, fld_eq_div_mod, h4]

end Sys2Proof.Machine

namespace Sys2Proof.Claims

open Sys2Proof.Machine

/-- Back-pressure apart, a command that changes one queue and then refreshes it leaves the rest of the command system and
the memory. -/
theorem queuesBecome_modQ (q : Nat) (g : Queue → Queue) (s : State) :
    QueuesBecome (fun k => if k = q then g (queue q s) else queue k s) s
      (commit s (bpRefresh (modQ q g (begin_ s)))) := by
  obtain ⟨_, _, _, _, h⟩ := bpRefresh_frame (modQ q g (begin_ s))
  refine ⟨fun k _ => ?_, fun a => ?_, ?_, ?_, ?_⟩
  · obtain ⟨b, hb⟩ := getQ_bpRefresh k (modQ q g (begin_ s))
    rw [queue_commit, hb, getQ_modQ]
    rfl
  all_goals rw [h]; rfl

theorem queuesBecome_refl (s : State) : QueuesBecome (fun k => queue k s) s s :=
  ⟨fun _ _ => rfl, fun _ => rfl, rfl, rfl, rfl⟩

theorem tailWrite_own {mid q : Nat} {v : Word} {s : State} (hm : mid = ownerOf q) :
    QueuesBecome (fun k => if k = q ∧ (v.toNat % 512 + 512 - (queue q s).head) % 512 ≤ 256
      then { queue k s with tail := v.toNat % 512 } else queue k s) s (commit s (tailWrite mid q v (begin_ s))) := by
  have hf : fld v 0 9 = v.toNat % 512 := by simp [fld_eq_div_mod]
  unfold tailWrite
  rw [owned_own _ _ hm]
  dsimp only
  rw [hf, getQ_begin]
  by_cases hfull : 256 < (v.toNat % 512 + 512 - (queue q s).head) % 512
  · simp only [if_pos hfull, Nat.not_le.2 hfull, and_false, if_false, commit_begin]
    exact queuesBecome_refl s
  · rw [if_neg hfull]
    convert queuesBecome_modQ q (fun x => { x with tail := v.toNat % 512 }) s using 2 with k
    by_cases hk : k = q <;> simp [hk, Nat.not_lt.1 hfull]

theorem tailWrite_other {mid q : Nat} {v : Word} {s : State} (hm : mid ≠ ownerOf q) (hq : q < 4096) (hr : logReady s) :
    let t := commit s (tailWrite mid q v (begin_ s))
    t.dev.cmd.queues = s.dev.cmd.queues ∧ EventLogged 4 q 5 0 s t := by
  unfold tailWrite
  rw [owned_other _ _ hm]
  exact ⟨logEvent_queues .cmd q 5 0 (begin_ s), eventLogged_logEvent .cmd 0 hr hq (by omega)⟩

theorem relWrite_held {mid q : Nat} {v : Word} {s : State} (hm : mid = ownerOf q)
    (h : (slot q (v.toNat % 256) s).status = 1) (hq : q < 4096) (hr : logReady s) :
    let t := commit s (relWrite mid q v (begin_ s))
    t.dev.cmd.queues = s.dev.cmd.queues ∧ EventLogged 4 q 3 0 s t := by
  rw [relWrite_pending (w := begin_ s) hm h]
  exact ⟨logEvent_queues .cmd q 3 0 (begin_ s), eventLogged_logEvent .cmd 0 hr hq (by omega)⟩

theorem relWrite_releases {mid q : Nat} {v : Word} {s : State} (hm : mid = ownerOf q)
    (h : (slot q (v.toNat % 256) s).status ≠ 1) :
    let e := v.toNat % 256
    let t := commit s (relWrite mid q v (begin_ s))
    slot q e t = releasedSlot (slot q e s) ∧ (∀ k j, k ≠ q ∨ j ≠ e → slot k j t = slot k j s)
      ∧ (queue q t).head = (queue q s).head ∧ (queue q t).tail = (queue q s).tail := by
  obtain ⟨b, hb⟩ := getQ_relWrite (w := begin_ s) hm h q
  rw [if_pos rfl] at hb
  refine ⟨?_, fun k j hkj => ?_, ?_, ?_⟩
  · rw [slot_commit, getSlot, hb]
    exact tabGet_tabSet_same _ _ _ _
  · by_cases hk : k = q
    · subst hk
      rw [slot_commit, getSlot, hb]
      exact tabGet_tabSet_other _ _ _ _ _ (by simpa using hkj)
    · obtain ⟨c, hc⟩ := getQ_relWrite (w := begin_ s) hm h k
      rw [slot_commit, getSlot, hc, if_neg hk]
      rfl
  · rw [queue_commit, hb]; rfl
  · rw [queue_commit, hb]; rfl

end Sys2Proof.Claims

namespace Sys2Proof.Proofs

open Sys2Proof.Machine Sys2Proof.Claims

/-- Settles O16: both writes are plain updates of the log's registers. -/
theorem eventLogRegisters : Obligations.EventLogRegisters := by
  refine ⟨fun v s hl => run_live (evrdWrite v) s hl, fun len v s hl => ⟨fun hst => ?_, fun hst => ends_run rfl hl ?_⟩⟩
  · exact run_unchanged hl (by simp [evConfigWrite, hst])
  · rw [evConfigWrite_config (w := begin_ s) len v hst]
    rfl

/-- Settles O14: another port's write is logged, a release stores the released slot, and a write of CMDq_CTL is taken
apart by EN before and after it. -/
theorem queueRegisterWrites : Obligations.QueueRegisterWrites := by
  refine ⟨fun mid q v s hl => ⟨fun hm => ?_, fun hm hr => ?_⟩, fun mid q v s hl hm => ⟨fun h => ?_, fun h hr => ?_⟩,
    fun q v s hl => ?_⟩
  · exact ends_run rfl hl (tailWrite_own hm)
  · exact ends_run rfl hl (tailWrite_other hm (by omega) hr)
  · exact ends_run rfl hl (relWrite_releases hm h)
  · exact ends_run rfl hl (relWrite_held hm h (by omega) hr)
  · refine ends_run rfl hl ?_
    obtain ⟨ho, hen, htaken, hkept, hfresh⟩ := getQ_ctlWrite q v (begin_ s)
    simp only [queue_commit, slot_commit, getSlot]
    refine ⟨hen, htaken, hkept, hfresh, fun k _ hk => ?_⟩
    obtain ⟨b, hb⟩ := ho k hk
    rw [hb]
    rfl

end Sys2Proof.Proofs
end

section
/-! SUPPORT. How a packet is taken from its queue: the fetch of its words, the queue served next, and the slot and the job it
gets (spec/03 R61 to R66, R89). -/

namespace Sys2Proof.Machine

/-! The fetch of an entry (R65). -/

/-- An enabled queue of host memory wants the entry at HEAD, which is neither at hand nor lost to a DMA error. -/
structure FetchDue (x : Queue) : Prop where
  en : x.en = true
  loc : x.loc = true
  fill : queueFill x ≠ 0
  fetched : x.fetched = none
  dmaErr : x.dmaErr = false

theorem queueFill_ne_zero {x : Queue} (h : x.head ≠ x.tail) (hh : x.head < 512) (ht : x.tail < 512) : queueFill x ≠ 0 := by
  unfold queueFill
  omega

theorem entryFetch_good {q : Nat} (ws : List Word) {w : Work} (h : FetchDue (getQ q w)) :
    entryFetch q true ws w = bpRefresh (modQ q (fun x => { x with fetched := some ws }) w) := by
  simp [entryFetch, h.en, h.loc, h.fill, h.fetched, h.dmaErr]

theorem getQ_entryFetch_bad {q : Nat} (ws : List Word) {w : Work} (h : FetchDue (getQ q w)) (k : Nat) :
    getQ k (entryFetch q false ws w) = if k = q then { getQ q w with dmaErr := true } else getQ k w := by
  have e : entryFetch q false ws w = irqQueueStat (logEvent .hif 0 2 q (logEvent .cmd q 2 0
      { modQ q (fun x => { x with dmaErr := true }) w with d.hif.cto := true })) := by
    simp [entryFetch, h.en, h.loc, h.fill, h.fetched, h.dmaErr]
  rw [e, getQ_irqQueueStat, getQ_logEvent, getQ_logEvent]
  exact getQ_modQ k q (fun x => { x with dmaErr := true }) w

/-! The slot and the job of a packet (R61, R89). -/

/-- A slot as a command that takes it finds it. -/
def claimedSlot (id : Nat) (h : Word) (x : Slot) : Slot := { x with
  opcode := hOpcode h, gen := (x.gen + 1) % 64, seq := hSeq h, status := stPending, rlen := 0, effKnown := false
  detail := 0, delay := 0, res := [], owner := some id, released := false }

theorem claimSlot_eq (q e id : Nat) (h : Word) (w : Work) :
    claimSlot q e id h w = putSlot q e (claimedSlot id h (getSlot q e w)) w := rfl

/-- The working copy when a packet has its job and its slot. -/
def claimed (q e : Nat) (ws : List Word) (w : Work) : Work :=
  let f := freeN 4096 w
  let u := (tduEnqueue (pktLevel (nth 0 ws 0)) { key := f.1, packet := freshId w } f.2).2
  claimSlot q e (freshId w) (nth 0 ws 0) { u with d.cmd.nextId := freshId w + 1 }

/-- The packet that the words of an entry make. -/
def takenPacket (q e : Nat) (ws : List Word) (w : Work) : Packet := { id := freshId w, q := q, entry := e, words := ws }

/-- A packet with its job and its slot waits behind an earlier packet of its queue, else its admission is tried. -/
def enterDispatch (p : Packet) (u : Work) : Bool × Work :=
  if u.d.cmd.dispatch.any (fun x => x.q == p.q) then (true, { u with d.cmd.dispatch := u.d.cmd.dispatch ++ [p] })
  else
    match tryAdmit p u with
    | (none, v) => (true, tduDone p.id v)
    | (some p, v) => (true, { v with d.cmd.dispatch := v.d.cmd.dispatch ++ [p] })

theorem tduFull_pktLevel {w : Work} (h : tduBusy w = false) (x : Word) : tduFull (pktLevel x) w = false := by
  simp only [tduBusy, List.any_cons, List.any_nil, Bool.or_false, Bool.or_eq_false_iff] at h
  obtain ⟨h5, h6, h7⟩ := h
  unfold pktLevel
  split
  · exact h7
  · split
    · exact h6
    · exact h5

/-- A job that is not refused changes the dispatcher alone. -/
theorem tduEnqueue_room {n : Nat} (j : Job) {w : Work} (h : tduFull n w = false) :
    ∃ t, tduEnqueue n j w = (true, { w with d.tdu := t }) := by
  unfold tduEnqueue
  rw [if_neg (by simp [h])]
  exact ⟨_, rfl⟩

/-- Taking a packet stores the claimed slot; before that it moves the dispatcher and the counters of identities and free
values alone. -/
theorem claimed_eq (q e : Nat) (ws : List Word) {w : Work} (h : tduBusy w = false) : ∃ t,
    claimed q e ws w = putSlot q e (claimedSlot (freshId w) (nth 0 ws 0) (getSlot q e w))
      { w with d.tdu := t, d.freeCtr := w.d.freeCtr + 1, d.cmd.nextId := freshId w + 1 } := by
  obtain ⟨t, ht⟩ := tduEnqueue_room { key := (freeN 4096 w).1, packet := freshId w } (w := (freeN 4096 w).2)
    (tduFull_pktLevel h (nth 0 ws 0))
  refine ⟨t, ?_⟩
  unfold claimed
  dsimp only
  rw [ht]
  rfl

/-- What taking a packet leaves: all but the queues and the identities in the command system, and the units that decide about
it. -/
theorem claimed_keeps (q e : Nat) (ws : List Word) {w : Work} (h : tduBusy w = false) :
    let u := claimed q e ws w
    u.d.phase = w.d.phase ∧ u.d.sys = w.d.sys ∧ u.d.trl = w.d.trl
      ∧ u.d.cmd = { w.d.cmd with queues := u.d.cmd.queues, nextId := freshId w + 1 } := by
  obtain ⟨t, hc⟩ := claimed_eq q e ws h
  obtain ⟨_, _, _, _, hp⟩ := putSlot_frame q e (claimedSlot (freshId w) (nth 0 ws 0) (getSlot q e w))
    { w with d.tdu := t, d.freeCtr := w.d.freeCtr + 1, d.cmd.nextId := freshId w + 1 }
  rw [hc, hp]
  exact ⟨rfl, rfl, rfl, rfl⟩

theorem getQ_claimed (q e : Nat) (ws : List Word) {w : Work} (h : tduBusy w = false) (k : Nat) :
    getQ k (claimed q e ws w) = if k = q then
      withSlot e (claimedSlot (freshId w) (nth 0 ws 0) (getSlot q e w)) (getQ q w) else getQ k w := by
  obtain ⟨t, hc⟩ := claimed_eq q e ws h
  rw [hc, getQ_putSlot]
  rfl

theorem getSlot_claimed (q e : Nat) (ws : List Word) {w : Work} (h : tduBusy w = false) :
    getSlot q e (claimed q e ws w) = claimedSlot (freshId w) (nth 0 ws 0) (getSlot q e w) := by
  obtain ⟨t, hc⟩ := claimed_eq q e ws h
  rw [hc, getSlot_putSlot, if_pos ⟨rfl, rfl⟩]

section
variable {q e : Nat} {ws : List Word} {w : Work} (h : tduBusy w = false)
include h

theorem dispatch_claimed : (claimed q e ws w).d.cmd.dispatch = w.d.cmd.dispatch := by
  obtain ⟨-, -, -, hc⟩ := claimed_keeps q e ws h
  exact congrArg (·.dispatch) hc

/-- A packet that is taken gets its job and its slot and enters the dispatch list. -/
theorem takePacket_eq : takePacket q e ws w = enterDispatch (takenPacket q e ws w) (claimed q e ws w) := by
  obtain ⟨t, ht⟩ := tduEnqueue_room { key := (freeN 4096 w).1, packet := freshId w } (w := (freeN 4096 w).2)
    (tduFull_pktLevel h (nth 0 ws 0))
  unfold takePacket claimed
  dsimp only
  rw [ht]
  rfl

theorem takePacket_behind (hb : w.d.cmd.dispatch.any (fun x => x.q == q) = true) :
    takePacket q e ws w = (true, { claimed q e ws w with
      d.cmd.dispatch := w.d.cmd.dispatch ++ [takenPacket q e ws w] }) := by
  rw [takePacket_eq h, enterDispatch, dispatch_claimed h]
  exact if_pos hb

theorem takePacket_admitted {v : Work} (hn : w.d.cmd.dispatch.any (fun x => x.q == q) = false)
    (ha : tryAdmit (takenPacket q e ws w) (claimed q e ws w) = (none, v)) :
    takePacket q e ws w = (true, tduDone (freshId w) v) := by
  rw [takePacket_eq h, enterDispatch, dispatch_claimed h, ha]
  exact if_neg (ne_true_of_eq_false hn)

end

end Sys2Proof.Machine
end

section
/-! SUPPORT. The dequeue of a queue that alone is ready (spec/03 R61 to R66), and the fetch of its entry. -/

namespace Sys2Proof.Machine

open Sys2Proof.Claims

/-- Every turn of the round robin comes to each queue once. -/
theorem filter_turnOrder (rr : Nat) {q : Nat} (hq : q < 5) : (turnOrder rr).filter (· == q) = [q] := by
  have small : ∀ r < 5, ∀ q < 5, (turnOrder r).filter (· == q) = [q] := by decide
  have e : turnOrder rr = turnOrder (rr % 5) := by simp [turnOrder]
  rw [e]
  exact small _ (Nat.mod_lt _ (by omega)) q hq

theorem lt_of_mem_turnOrder {rr k : Nat} (h : k ∈ turnOrder rr) : k < 5 := by
  obtain ⟨j, -, rfl⟩ := List.mem_map.1 h
  exact Nat.mod_lt _ (by omega)

/-- The only queue whose head packet may be dequeued is served next, urgent or not. -/
theorem pickQueue_alone {q : Nat} {ws : List Word} {w : Work} (hq : q < 5) (h : headReady q w = some ws)
    (ho : ∀ k < 5, k ≠ q → headReady k w = none) : pickQueue w = some (q, ws) := by
  have hready : (turnOrder w.d.cmd.rr).filterMap (fun k => (headReady k w).map (fun ws => (k, ws))) = [(q, ws)] := by
    have e : (turnOrder w.d.cmd.rr).filterMap (fun k => (headReady k w).map (fun ws => (k, ws)))
        = ((turnOrder w.d.cmd.rr).filter (· == q)).filterMap (fun k => (headReady k w).map (fun ws => (k, ws))) := by
      rw [List.filterMap_filter]
      refine List.filterMap_congr fun k hk => ?_
      by_cases hkq : k = q
      · simp [hkq]
      · simp [hkq, ho k (lt_of_mem_turnOrder hk) hkq]
    rw [e, filter_turnOrder _ hq]
    simp [h]
  unfold pickQueue
  simp only [hready]
  cases hu : hUrgent (nth 0 ws 0) <;> simp only [List.filter, hu, List.head?, List.foldl]

theorem headReady_disabled {k : Nat} {w : Work} (h : (getQ k w).en = false) : headReady k w = none := by
  simp [headReady, h]

/-- The queue of ReadyAlone offers the words of its entry. -/
theorem headReady_local {q : Nat} {w : Work} (he : (getQ q w).en = true) (hl : (getQ q w).loc = false)
    (hf : queueFill (getQ q w) ≠ 0) (hd : (getQ q w).dmaErr = false)
    (hr : (getSlot q ((getQ q w).head % 256) w).released = true)
    (ho : hOpcode (nth 0 (rds ((getQ q w).baseL % 2 ^ 23 + 64 * ((getQ q w).head % 256)) 64 w) 0) ≠ 0x140) :
    headReady q w = some (rds ((getQ q w).baseL % 2 ^ 23 + 64 * ((getQ q w).head % 256)) 64 w) := by
  have hb : (hOpcode (nth 0 (rds ((getQ q w).baseL % 2 ^ 23 + 64 * ((getQ q w).head % 256)) 64 w) 0) == 0x140) = false :=
    beq_eq_false_iff_ne.2 ho
  have hg : (!((getQ q w).en && queueFill (getQ q w) != 0 && !(getQ q w).dmaErr
      && (getSlot q ((getQ q w).head % 256) w).released)) = false := by simp [he, hf, hd, hr]
  unfold headReady headWords
  simp only [hg, hl, hb, Bool.false_and, Bool.false_eq_true, if_false]

/-- No queue stalls: a queue with a packet finds the slot at HEAD released. -/
theorem slotStalls_none {w : Work} (h : ∀ k < 5, (getQ k w).en = true →
    (getSlot k ((getQ k w).head % 256) w).released = true) :
    each (List.range 5) (fun q w => let x := getQ q w
      if x.en && queueFill x != 0 && !(getSlot q (x.head % 256) w).released then slotStall q w else w) w = w := by
  refine each_keeps (P := fun v => v = w) _ (fun k hk v hv => ?_) rfl
  subst hv
  dsimp only
  rw [if_neg]
  intro hc
  simp only [Bool.and_eq_true, Bool.not_eq_true'] at hc
  obtain ⟨⟨he, -⟩, hs⟩ := hc
  rw [h k (List.mem_range.1 hk) he] at hs
  cases hs

/-- A queue whose HEAD moves on by one. -/
def headMoved (x : Queue) : Queue := { x with head := (x.head + 1) % 512, fetched := none, slotWait := false }

/-- DEQUEUE of a picked packet that is taken moves HEAD of its queue; the dispatch list is what taking the packet makes it. -/
theorem dequeue_taken {q : Nat} {ws : List Word} {w u : Work} (hs : fromConfig w.d.sys.st = true)
    (hn : ∀ k < 5, (getQ k w).en = true → (getSlot k ((getQ k w).head % 256) w).released = true)
    (hp : pickQueue w = some (q, ws)) (hh : headsHeld w = false)
    (ht : takePacket q ((getQ q w).head % 256) ws w = (true, u)) :
    (∃ b, getQ q (dequeue w) = { headMoved (getQ q u) with bp := b })
      ∧ (dequeue w).d.cmd.dispatch = u.d.cmd.dispatch := by
  have e : ∃ r, dequeue w = bpRefresh { modQ q headMoved u with d.cmd.rr := r } := by
    unfold dequeue
    rw [if_neg (by simp [hs]), slotStalls_none hn]
    dsimp only
    rw [hp]
    dsimp only
    rw [hh, if_neg (by simp), ht]
    dsimp only
    split
    · exact ⟨_, rfl⟩
    · exact ⟨_, rfl⟩
  obtain ⟨r, hr⟩ := e
  obtain ⟨b, hb⟩ := getQ_bpRefresh q { modQ q headMoved u with d.cmd.rr := r }
  have hq : getQ q { modQ q headMoved u with d.cmd.rr := r } = headMoved (getQ q u) :=
    (getQ_modQ q q headMoved u).trans (if_pos rfl)
  rw [hq] at hb
  rw [hr]
  exact ⟨⟨b, hb⟩, bpRefresh_dispatch _⟩

end Sys2Proof.Machine

namespace Sys2Proof.Claims

open Sys2Proof.Machine

theorem hOpcode_eq (h : Word) : hOpcode h = h.toNat / 2 ^ 26 := by
  have := h.isLt
  unfold hOpcode
  rw [fld_eq_div_mod]
  omega

theorem hSeq_eq (h : Word) : hSeq h = h.toNat / 256 % 4096 := fld_eq_div_mod h 8 12

/-- DEQUEUE of the only ready queue: HEAD moves, its slot is claimed, and the packet joins the dispatch list. -/
theorem dequeue_readyAlone {q : Nat} {s : State} (hq : q < 5) (h : ReadyAlone q s) :
    let e := (queue q s).head % 256
    let ws := (List.range 64).map (fun k => memRead s.mem ((queue q s).baseL % 2 ^ 23 + 64 * e + k))
    let t := commit s (dequeue (begin_ s))
    (queue q t).head = ((queue q s).head + 1) % 512
      ∧ slot q e t = claimedSlot (freshId (begin_ s)) (nth 0 ws 0) (slot q e s)
      ∧ t.dev.cmd.dispatch = s.dev.cmd.dispatch ++ [takenPacket q e ws (begin_ s)] := by
  obtain ⟨hst, hen, hloc, hne, hh, ht, hde, hrel, hoff, hroom, hearlier, hbusy, hop⟩ := h
  intro e ws
  have hready : headReady q (begin_ s) = some ws :=
    headReady_local (w := begin_ s) hen hloc (queueFill_ne_zero hne hh ht) hde hrel (by rw [hOpcode_eq]; exact hop)
  have hpick : pickQueue (begin_ s) = some (q, ws) :=
    pickQueue_alone hq hready fun k hk hkq => headReady_disabled (hoff k hk hkq)
  have hstall : ∀ k < 5, (getQ k (begin_ s)).en = true →
      (getSlot k ((getQ k (begin_ s)).head % 256) (begin_ s)).released = true := by
    intro k hk hke
    by_cases hkq : k = q
    · subst hkq; exact hrel
    · rw [getQ_begin, hoff k hk hkq] at hke
      cases hke
  have hheld : headsHeld (begin_ s) = false := by
    simp [headsHeld, hbusy, Nat.not_le.2 hroom]
  have htake := takePacket_behind (e := e) (ws := ws) hbusy hearlier
  obtain ⟨⟨b, hb⟩, hd⟩ := dequeue_taken hst hstall hpick hheld htake
  have hq : getQ q (claimed q e ws (begin_ s)) = _ := (getQ_claimed q e ws hbusy q).trans (if_pos rfl)
  change getQ q (dequeue (begin_ s)) = { headMoved (getQ q (claimed q e ws (begin_ s))) with bp := b } at hb
  rw [hq] at hb
  refine ⟨?_, ?_, hd⟩
  · rw [queue_commit, hb]
    rfl
  · rw [slot_commit, getSlot, hb]
    exact tabGet_tabSet_same _ _ _ _

end Sys2Proof.Claims

namespace Sys2Proof.Proofs

open Sys2Proof.Machine Sys2Proof.Claims

/-- Settles O15: a fetch that is due brings the words or the error; the only queue that is ready is picked, and its packet
joins the dispatch list behind the earlier one. -/
theorem entryFetchAndDequeue : Obligations.EntryFetchAndDequeue := by
  refine ⟨⟨?_, fun q s hl => ends_run rfl hl (queuesBecome_modQ q (fun x => { x with
    dmaErr := false, fetched := if x.dmaErr then none else x.fetched }) s)⟩, fun q s hl hr => ?_⟩
  · intro q ok ws s hl x hen hloc hne hh ht hf hd
    have due : FetchDue (getQ q (begin_ s)) := ⟨hen, hloc, queueFill_ne_zero hne hh ht, hf, hd⟩
    refine ends_run rfl hl ⟨fun hok => ?_, fun hok => ?_⟩
    · subst hok
      rw [entryFetch_good ws due]
      exact queuesBecome_modQ q (fun x => { x with fetched := some ws }) s
    · subst hok
      have hq := getQ_entryFetch_bad ws due
      refine ⟨?_, ?_, ?_, fun k hk => (hq k).trans (if_neg hk)⟩
      all_goals rw [queue_commit, hq, if_pos rfl]
      · rfl
      · exact hf
  · intro x e a h
    obtain ⟨hhead, hslot, hdisp⟩ := dequeue_readyAlone q.isLt hr
    refine ends_run rfl hl ⟨hhead, ?_, ?_, ?_, ?_, _, hdisp, rfl, rfl, rfl⟩
    all_goals rw [hslot]
    · rfl
    · rfl
    · exact hOpcode_eq h
    · exact hSeq_eq h

end Sys2Proof.Proofs
end

section
/-! SUPPORT. A packet by itself, from its words to the verdict of its admission (spec/03 R58, R61 to R67, Table 3.1). -/

namespace Sys2Proof.Machine

open Sys2Proof.Claims

/-! The header word (Table 3.1). -/

/-- A bit is read from its place in the number. -/
theorem bit_of_field {w : Word} {k : Nat} {b : Bool} (h : w.toNat / 2 ^ k % 2 = b.toNat) : bit w k = b := by
  have e : bit w k = decide (w.toNat / 2 ^ k % 2 = 1) := Nat.testBit_eq_decide_div_mod_eq
  rw [e, h]
  cases b <;> rfl

/-- A field of a number that is put together from fields. -/
theorem div_mod_of_fields {x hi mid lo m n : Nat} (hx : x = (hi * n + mid) * m + lo) (hlo : lo < m) (hmid : mid < n) :
    x / m % n = mid := by
  rw [hx, Nat.mul_comm, Nat.mul_add_div (by omega), Nat.div_eq_of_lt hlo, Nat.add_zero, Nat.mul_comm,
    Nat.mul_add_mod, Nat.mod_eq_of_lt hmid]

theorem putB_eq (k : Nat) (b : Bool) : putB k b = b.toNat * 2 ^ k := by cases b <;> simp [putB]

theorem put_eq {lo n v : Nat} (h : v < 2 ^ n) : put lo n v = v * 2 ^ lo := by
  rw [put, Nat.mod_eq_of_lt h, Nat.shiftLeft_eq]

/-- The flags of a header word as one number. -/
def flagBits (h : PktHead) : Nat := h.urgent.toNat * 8 + h.noResult.toNat * 4 + h.inBundle.toNat * 2 + h.phased.toNat

theorem flagBits_lt (h : PktHead) : flagBits h < 16 := by
  have hu := h.urgent.toNat_le
  have hr := h.noResult.toNat_le
  have hi := h.inBundle.toNat_le
  have hp := h.phased.toNat_le
  unfold flagBits
  generalize h.urgent.toNat = a, h.noResult.toNat = b, h.inBundle.toNat = c, h.phased.toNat = d at *
  omega

section
variable {op n : Nat} {h : PktHead} (hop : op < 1024) (hn : n + h.phased.toNat < 64)
include hop hn

/-- The fields of a header word do not overlap. -/
theorem headerWord_toNat :
    (headerWord op n h).toNat = ((op * 64 + (n + h.phased.toNat)) * 4096 + h.seq.toNat) * 256 + flagBits h := by
  have hs := h.seq.isLt
  have hf := flagBits_lt h
  have hp : (if h.phased then 1 else 0) = h.phased.toNat := by cases h.phased <;> rfl
  rw [headerWord, hp, put_eq hop, put_eq hn, put_eq hs, putB_eq, putB_eq, putB_eq, putB_eq, wd, BitVec.toNat_ofNat,
    Nat.mod_eq_of_lt]
  all_goals
    unfold flagBits at *
    generalize h.urgent.toNat = a, h.noResult.toNat = b, h.inBundle.toNat = c, h.phased.toNat = d at *
    omega

theorem hOpcode_headerWord : hOpcode (headerWord op n h) = op := by
  have hs := h.seq.isLt
  have hf := flagBits_lt h
  rw [hOpcode, fld_eq_div_mod]
  refine div_mod_of_fields (hi := 0) (lo := ((n + h.phased.toNat) * 4096 + h.seq.toNat) * 256 + flagBits h) ?_ (by omega) hop
  rw [headerWord_toNat hop hn]
  omega

theorem hLen_headerWord : hLen (headerWord op n h) = n + h.phased.toNat := by
  have hs := h.seq.isLt
  have hf := flagBits_lt h
  rw [hLen, fld_eq_div_mod]
  refine div_mod_of_fields (hi := op) (lo := h.seq.toNat * 256 + flagBits h) ?_ (by omega) hn
  rw [headerWord_toNat hop hn]
  omega

theorem hSeq_headerWord : hSeq (headerWord op n h) = h.seq.toNat := by
  have hf := flagBits_lt h
  rw [hSeq, fld_eq_div_mod]
  exact div_mod_of_fields (headerWord_toNat hop hn) (by omega) h.seq.isLt

theorem hInBundle_headerWord : hInBundle (headerWord op n h) = h.inBundle := by
  have hp := h.phased.toNat_lt
  refine bit_of_field (div_mod_of_fields (lo := h.phased.toNat)
    (hi := ((op * 64 + (n + h.phased.toNat)) * 4096 + h.seq.toNat) * 64 + h.urgent.toNat * 2 + h.noResult.toNat)
    ?_ hp h.inBundle.toNat_lt)
  rw [headerWord_toNat hop hn, flagBits]
  omega

theorem hPhased_headerWord : hPhased (headerWord op n h) = h.phased := by
  refine bit_of_field (div_mod_of_fields (lo := 0)
    (hi := ((op * 64 + (n + h.phased.toNat)) * 4096 + h.seq.toNat) * 128 + h.urgent.toNat * 4 + h.noResult.toNat * 2
      + h.inBundle.toNat) ?_ (by omega) h.phased.toNat_lt)
  rw [headerWord_toNat hop hn, flagBits]
  omega

end

/-! The words of a packet (R58). -/

/-- A packet's parts are those of its row. -/
structure Reads (o : Nat) (h : PktHead) (l : List Word) (p : Packet) : Prop where
  op : pOp p = o
  ps : pPs p = l
  phased : pPhased p = h.phased
  phase : h.phased = true → pPhase p = h.phase
  member : hInBundle (pHdr p) = h.inBundle
  seq : hSeq (pHdr p) = h.seq.toNat

theorem pHdr_packetOf (op : Nat) (h : PktHead) (ps : List Word) (s : State) :
    pHdr (packetOf op h ps s) = headerWord op ps.length h := rfl

theorem reads_packetOf {op : Nat} {h : PktHead} {ps : List Word} (s : State) (hop : op < 1024)
    (hn : ps.length + h.phased.toNat < 64) : Reads op h ps (packetOf op h ps s) := by
  have hp : pPhased (packetOf op h ps s) = h.phased := by
    rw [pPhased, pHdr_packetOf]
    exact hPhased_headerWord hop hn
  have hall : pAll (packetOf op h ps s) = (if h.phased then [h.phase] else []) ++ ps := by
    unfold pAll
    rw [pHdr_packetOf, hLen_headerWord hop hn]
    refine List.take_left' ?_
    cases hx : h.phased <;> simp [packetOf, packetWords, hx]
  constructor
  case op => rw [pOp, pHdr_packetOf, hOpcode_headerWord hop hn]
  case ps =>
    rw [pPs, hp, hall]
    cases h.phased <;> rfl
  case phased => exact hp
  case phase =>
    intro h1
    rw [pPhase, hp, hall, h1]
    rfl
  case member => rw [pHdr_packetOf, hInBundle_headerWord hop hn]
  case seq => rw [pHdr_packetOf, hSeq_headerWord hop hn]

/-! The verdict on a packet by itself (spec/04 R101, R102). -/

/-- A packet that is no bundle's and passes its checks is admitted as a single command. -/
theorem verdict_single {p : Packet} {w : Work} (hb : hInBundle (pHdr p) = false) (hc : pOp p ≠ 0x141)
    (hf : packetFails p w = none) (ha : armCheck p w = none) (hx : faultBad (pOp p) (pPs p) w = none)
    (hh : holdBad (pOp p) w = false) : verdict p w = admitSingle p w := by
  have hc' : (pOp p == 0x141) = false := beq_eq_false_iff_ne.2 hc
  have hd : doomedBy p w = none := by
    unfold doomedBy ofBundle
    rw [hb, hc']
    split <;> rfl
  unfold verdict
  simp only [hd, hf, ha, hx, hh, hb, hc', Option.map_none, Option.orElse_none, Bool.false_eq_true, if_false]

/-- An admission that is tried in a cycle without a decision, with room in the journal and a sample where one is needed. -/
theorem tryAdmit_take {p : Packet} {w v : Work} (hj : jFull p.q w = false) (hd : decisionCycle w = false)
    (hs : sampleWaits p w = false) (hr : journalRoom p w = true) (hv : verdict p w = .take v) :
    tryAdmit p w = (none, v) := by
  simp [tryAdmit, hj, hd, hs, hr, hv]

/-- The commands of Table 3.3 with a later effect of their own, without the servo moves and GEAR_RATIO_AT. -/
def laterOps : List Nat :=
  [0x040, 0x041, 0x046, 0x047, 0x048, 0x049, 0x080, 0x082, 0x0C0, 0x0C1, 0x0C2, 0x0C3, 0x100, 0x1C0, 0x1C1, 0x280, 0x180]

theorem laterOps_spec : ∀ op ∈ laterOps,
    op < 1024 ∧ op ≠ 0x140 ∧ op ≠ 0x141 ∧ op ≠ 0x081 ∧ servoMove op = false := by decide

/-- A PARAM_WRITE with a later effect: none to a node, and not of class D (R80, R651). -/
def WriteLater (op : Nat) (ps : List Word) : Prop := op = 0x180 → nodeCmd 0x180 ps = false ∧ cmdCls ps ≠ some .d

theorem admitAtOnce_later {p : Packet} (w : Work) (h : pOp p ∈ laterOps) (hw : WriteLater (pOp p) (pPs p)) :
    admitAtOnce p w = none := by
  by_cases h180 : pOp p = 0x180
  · obtain ⟨hn, hd⟩ := hw h180
    unfold admitAtOnce
    simp [h180, hn, hd]
  · unfold admitAtOnce
    generalize pOp p = op at h h180
    simp only [laterOps, List.mem_cons, List.not_mem_nil, or_false] at h
    rcases h with rfl | rfl | rfl | rfl | rfl | rfl | rfl | rfl | rfl | rfl | rfl | rfl | rfl | rfl | rfl | rfl | h
    case inr => exact absurd h h180
    all_goals rfl

theorem admitSingle_later {p : Packet} (w : Work) (h : pOp p ∈ laterOps) (hw : WriteLater (pOp p) (pPs p)) :
    admitSingle p w = if stopClass (pOp p) then admitStop p w else if pPhased p then admitPhased p w
      else admitImmediate p w := by
  obtain ⟨-, -, -, hratio, hmove⟩ := laterOps_spec _ h
  simp [admitSingle, admitAtOnce_later w h hw, hratio, hmove]

end Sys2Proof.Machine
end

section
/-! SUPPORT. What ACCEPTED leaves: the report of a command with a fresh identity in its own slot, and the effect that waits
(spec/03 R83 to R88, spec/04 R97, R132). -/

namespace Sys2Proof.Machine

open Sys2Proof.Claims

/-! Fresh identities (log 4). -/

theorem lt_foldl_max (l : List Nat) : ∀ m, m ≤ l.foldl (fun m i => max m (i + 1)) m
    ∧ ∀ i ∈ l, i < l.foldl (fun m i => max m (i + 1)) m := by
  induction l with
  | nil => exact fun m => ⟨le_rfl, fun i h => absurd h List.not_mem_nil⟩
  | cons a l ih =>
    intro m
    obtain ⟨h1, h2⟩ := ih (max m (a + 1))
    refine ⟨le_trans (le_max_left _ _) h1, fun i hi => ?_⟩
    rcases List.mem_cons.1 hi with rfl | hi
    · exact lt_of_lt_of_le (Nat.lt_of_succ_le (le_max_right m (i + 1))) h1
    · exact h2 i hi

theorem freshId_ne_zero (w : Work) : freshId w ≠ 0 := by
  have h := (lt_foldl_max (knownIds w) (max 1 w.d.cmd.nextId)).1
  have h1 : 1 ≤ max 1 w.d.cmd.nextId := le_max_left _ _
  exact Nat.one_le_iff_ne_zero.1 (le_trans h1 h)

/-- No entry of the journal has the next identity. -/
theorem journal_ne_freshId (w : Work) : ∀ j ∈ w.d.cmd.journal, j.id ≠ freshId w := by
  intro j hj
  have hk : j.id ∈ knownIds w := List.mem_append_left _ (List.mem_append_left _ (List.mem_map_of_mem hj))
  exact Nat.ne_of_lt ((lt_foldl_max (knownIds w) _).2 _ hk)

/-! The report. -/

/-- A journal entry changes the journal; its words are memory words. -/
theorem putJournal_frame (c : CmdRef) (f : JEntry → JEntry) (w : Work) : ∃ o e k j,
    putJournal c f w = { w with ops := o, d.mem.ecc := e, d.mem.pageCrc := k, d.cmd.journal := j } := by
  unfold putJournal
  split
  · obtain ⟨o, e, k, h⟩ := wrs_frame _ _ _
    exact ⟨o, e, k, _, h⟩
  · dsimp only
    obtain ⟨o, e, k, h⟩ := wrs_frame _ _ _
    exact ⟨o, e, k, _, h⟩

/-- A slot that shows ACCEPTED in cycle n. -/
def acceptedSlot (delay : Nat) (n : Word) (eff : Option Word) (x : Slot) : Slot := { x with
  status := stAccepted, detail := 0, delay := delay, acc := n, eff := eff.getD x.eff, effKnown := x.effKnown || eff.isSome
  rlen := 0, res := [] }

/-- ACCEPTED of a command that is new to the journal and owns its slot: the slot shows it, and of the command system only
the queues and the journal change. -/
theorem accept_new {p : Packet} (eff : Option Word) (delay : Nat) {w : Work} (hid : p.id ≠ 0)
    (hj : ∀ j ∈ w.d.cmd.journal, j.id ≠ p.id) (ho : (getSlot p.q p.entry w).owner = some p.id) :
    let u := accept p eff delay w
    getSlot p.q p.entry u = acceptedSlot delay w.d.phase.ncc eff (getSlot p.q p.entry w)
      ∧ u.d.cmd = { w.d.cmd with queues := u.d.cmd.queues, journal := u.d.cmd.journal } := by
  have hnew : w.d.cmd.journal.find? (fun j => j.id == p.id) = none :=
    List.find?_eq_none.2 fun j h => by simpa using hj j h
  have hid' : (p.id == 0) = false := beq_eq_false_iff_ne.2 hid
  obtain ⟨o, e, k, j, hput⟩ := putJournal_frame (pRef p) (fun j => { j with
    status := stAccepted, detail := 0, delay := delay, acc := w.d.phase.ncc, eff := eff.getD j.eff
    effKnown := j.effKnown || eff.isSome, member := j.member || false }) w
  have hacc : accept p eff delay w = putSlot p.q p.entry
      (acceptedSlot delay w.d.phase.ncc eff (getSlot p.q p.entry w))
      { w with ops := o, d.mem.ecc := e, d.mem.pageCrc := k, d.cmd.journal := j } := by
    have ho' : ((getSlot p.q p.entry { w with
        ops := o, d.mem.ecc := e, d.mem.pageCrc := k, d.cmd.journal := j }).owner == some p.id) = true :=
      beq_iff_eq.2 ho
    have hfin : isFinal stAccepted = false := rfl
    have hok : (stAccepted == stOK) = false := rfl
    unfold accept report
    dsimp only [pRef] at hput ⊢
    simp only [hid', hnew, Bool.false_eq_true, if_false, Option.getD_some]
    rw [hput]
    simp only [ho', hfin, hok, Bool.and_false, Bool.false_eq_true, if_false, if_true]
    rfl
  obtain ⟨_, _, _, _, hs⟩ := putSlot_frame p.q p.entry (acceptedSlot delay w.d.phase.ncc eff (getSlot p.q p.entry w))
    { w with ops := o, d.mem.ecc := e, d.mem.pageCrc := k, d.cmd.journal := j }
  dsimp only
  refine ⟨?_, ?_⟩
  · rw [hacc, getSlot_putSlot, if_pos ⟨rfl, rfl⟩]
  · rw [hacc, hs]
    rfl

/-! The effect that waits. -/

theorem restage_frame (own : Option Nat) (t : Word) (op : Nat) (ps : List Word) (w : Work) :
    ∃ b, restage own t op ps w = { w with d.cmd.bundles := b } := ⟨_, rfl⟩

theorem rateFrom_frame (e : Effect) (c : Word) (w : Work) : ∃ l, rateFrom e c w = { w with d.phase.vmDirect := l } := by
  unfold rateFrom
  split
  · exact ⟨_, vmPush_frame _ _ _⟩
  · exact ⟨w.d.phase.vmDirect, rfl⟩

/-- The effect of an immediate command without a delay or a curve. -/
def immediateEffect (p : Packet) (c : Word) (w : Work) : Effect :=
  { effectOf p w with delay := 0, curve := none, time := .at c }

/-- A packet is ACCEPTED with its slot showing when its effect falls, where that is known, and one more effect waits. -/
structure Accepted (p : Packet) (e : Effect) (eff : Option Word) (w v : Work) : Prop where
  slot : getSlot p.q p.entry v = acceptedSlot 0 w.d.phase.ncc eff (getSlot p.q p.entry w)
  effects : v.d.cmd.effects = w.d.cmd.effects ++ [e]
  genNow : v.d.cmd.genNow = w.d.cmd.genNow
  phNow : v.d.cmd.phNow = w.d.cmd.phNow

section
variable {p : Packet} {w : Work} (hid : p.id ≠ 0) (hj : ∀ j ∈ w.d.cmd.journal, j.id ≠ p.id)
  (ho : (getSlot p.q p.entry w).owner = some p.id)
include hid hj ho

/-- An immediate command that is no TBL_RELOAD takes effect at its bound. -/
theorem takeImmediate_accepted (c : Word) (ht : tblReload (pOp p) (keptWords p w) = false) :
    Accepted p (immediateEffect p c w) (some (effNcc (immediateEffect p c w) c w)) w (takeImmediate p c 0 none w) := by
  obtain ⟨hs, hc⟩ := accept_new (some (effNcc (immediateEffect p c w) c w)) 0 hid hj ho
  have hplaced : placedAt { effectOf p w with delay := 0, curve := none } c w = c :=
    if_neg (ne_true_of_eq_false ht)
  have e : takeImmediate p c 0 none w = rateFrom (immediateEffect p c w) c (restage none c (pOp p) (keptWords p w)
      (addEffect (immediateEffect p c w) (accept p (some (effNcc (immediateEffect p c w) c w)) 0 w))) := by
    unfold takeImmediate
    simp only [wd, BitVec.add_zero]
    rw [hplaced]
    rfl
  obtain ⟨l, hl⟩ := rateFrom_frame (immediateEffect p c w) c (restage none c (pOp p) (keptWords p w)
      (addEffect (immediateEffect p c w) (accept p (some (effNcc (immediateEffect p c w) c w)) 0 w)))
  rw [e, hl]
  exact ⟨hs, congrArg (fun x => x.effects ++ _) hc, congrArg (·.genNow) hc, congrArg (·.phNow) hc⟩

theorem takePhased_accepted :
    Accepted p { effectOf p w with time := .phase (pPhase p), curve := none } none w (takePhased p none w) := by
  obtain ⟨hs, hc⟩ := accept_new none 0 hid hj ho
  exact ⟨hs, congrArg (fun x => x.effects ++ _) hc, congrArg (·.genNow) hc, congrArg (·.phNow) hc⟩

end

end Sys2Proof.Machine
end

section
/-! SUPPORT. Commands with a later effect, from their packet to ACCEPTED: the sync point of an immediate one, the phase of a
phased one (spec/03 R78, R84, spec/04 R102, R104, R106). -/

namespace Sys2Proof.Machine

open Sys2Proof.Claims

/-! The sync point an immediate command is accepted for (R78). -/

theorem boundOf_fast {op : Nat} {ps : List Word} (w : Work) (hs : slowOp op ps = false)
    (hc : op = 0x180 → cmdCls ps = some .a) : boundOf op ps w = nccPlus 2 w := by
  unfold boundOf
  rw [hs, if_neg Bool.false_ne_true]
  by_cases h : op = 0x180
  · simp [h, hc h]
  · simp [h]

theorem boundOf_slow {op : Nat} {ps : List Word} (w : Work) (hs : slowOp op ps = true) :
    boundOf op ps w = slowFirst w := by simp [boundOf, hs]

/-- Without a coming change of mode the first sync point of the slow group after next is a start (R78). -/
theorem slowFirst_eq {n : Nat} {w : Work} (hn : slowS w = n) (h8 : n = 1 ∨ n = 2 ∨ n = 4 ∨ n = 8)
    (ha : slowAfter w = none) : slowFirst w = BitVec.ofNat 36 (nccN w / n * n + 2 * n) := by
  have hb : slowBound w = BitVec.ofNat 36 (nccN w / n * n + 2 * n) := by
    have hm : nccN w - nccN w % n = nccN w / n * n := by rw [Nat.div_mul_self_eq_mod_sub_self]
    rw [slowBound, hn, hm, wd]
  have hstart : slowStart (slowBound w).toNat w = true := by
    have hz : (slowBound w).toNat % n = 0 := by
      rw [hb, BitVec.toNat_ofNat]
      rcases h8 with rfl | rfl | rfl | rfl <;> omega
    simp [slowStart, slowUnit, ha, hn, hz]
  have hr : List.range 17 = 0 :: (List.range 16).map Nat.succ := List.range_succ_eq_map
  unfold slowFirst
  rw [hr, List.map_cons, List.find?_cons_of_pos (by simpa using hstart), Option.getD_some, Nat.add_zero, wd,
    BitVec.ofNat_toNat, BitVec.setWidth_eq, hb]

/-! The parameter words an effect keeps. -/

theorem isPrefix_keptWords (p : Packet) (w : Work) : pPs p <+: keptWords p w := by
  unfold keptWords
  dsimp only
  split
  · exact List.prefix_append _ _
  · split
    · exact List.prefix_append _ _
    · exact List.prefix_rfl
  · exact List.prefix_rfl

theorem Reads.isPrefix_keptWords {o : Nat} {h : PktHead} {l : List Word} {p : Packet} (hr : Reads o h l p) (w : Work) :
    l <+: keptWords p w := hr.ps ▸ Machine.isPrefix_keptWords p w

theorem tblReload_other {op : Nat} (ps : List Word) (h : op ≠ 0x180) : tblReload op ps = false := by
  simp [tblReload, h]

/-- TBL_RELOAD is of class C. -/
theorem tblReload_classA {ps : List Word} (op : Nat) (h : cmdCls ps = some .a) : tblReload op ps = false := by
  refine Bool.eq_false_iff.2 fun ht => ?_
  simp only [tblReload, Bool.and_eq_true, beq_iff_eq] at ht
  obtain ⟨⟨-, hk⟩, hn⟩ := ht
  rw [cmdCls, hk, hn] at h
  cases h

theorem tblReload_keptWords {p : Packet} (w : Work) (h : tblReload (pOp p) (pPs p) = false) :
    tblReload (pOp p) (keptWords p w) = false := by
  by_cases h180 : pOp p = 0x180
  · rw [h180] at h ⊢
    have hk : keptWords p w = pPs p := by
      unfold keptWords
      simp only [h180]
      exact if_neg (ne_true_of_eq_false h)
    rw [hk, h]
  · exact tblReload_other _ h180

/-! The verdicts. -/

/-- The working copy with the general shares an immediate command takes; a stop takes none (R77, R104). -/
def sharesTaken (op : Nat) (ps : List Word) (w : Work) : Work := if stopClass op then w else takeGeneral op ps w

theorem sharesTaken_cases (op : Nat) (ps : List Word) (w : Work) :
    sharesTaken op ps w = w ∨ sharesTaken op ps w = takeGeneral op ps w := by
  unfold sharesTaken
  split
  · exact .inl rfl
  · exact .inr rfl

theorem sharesTaken_keeps (op : Nat) (ps : List Word) (w : Work) :
    let g := sharesTaken op ps w
    g.d.phase = w.d.phase ∧ g.d.cmd.journal = w.d.cmd.journal ∧ g.d.cmd.effects = w.d.cmd.effects
      ∧ ∀ q e, getSlot q e g = getSlot q e w := by
  rcases sharesTaken_cases op ps w with h | h <;> rw [h] <;> exact ⟨rfl, rfl, rfl, fun _ _ => rfl⟩

section
variable {p : Packet} {w : Work} (h : pOp p ∈ laterOps) (hw : WriteLater (pOp p) (pPs p))
include h hw

theorem admitSingle_immediate (hp : pPhased p = false)
    (hr : stopClass (pOp p) = true ∨ generalRoom (pOp p) (pPs p) w = true ∧ behind p w = false) :
    admitSingle p w = .take (takeImmediate p (boundOf (pOp p) (pPs p) w) 0 none
      (sharesTaken (pOp p) (pPs p) w)) := by
  obtain ⟨-, -, -, -, hmove⟩ := laterOps_spec _ h
  have hcurve (z : Horizon) : curvedMove (pOp p) (pPs p) z w = false := by simp [curvedMove, hmove]
  rw [admitSingle_later w h hw, hp]
  cases hs : stopClass (pOp p)
  case true => simp [admitStop, hp, sharesTaken, hs]
  case false =>
    obtain ⟨hroom, hbehind⟩ := hr.resolve_left (by simp [hs])
    simp [admitImmediate, hroom, hbehind, hcurve, placeMoves, sharesTaken, hs]

theorem admitSingle_phased (hp : pPhased p = true) (ha : phaseAhead (slowOp (pOp p) (pPs p)) (pPhase p) w = true)
    (hr : stopClass (pOp p) = true ∨ clusterRoom (plannerUnits (pOp p) (pPs p) + replanUnits (pOp p) (pPs p) w)
      (stepperPlans (pOp p) (pPs p)) (pPhase p) w = true) :
    admitSingle p w = .take (takePhased p none w) := by
  obtain ⟨-, -, -, -, hmove⟩ := laterOps_spec _ h
  have hcurve (z : Horizon) : curvedMove (pOp p) (pPs p) z w = false := by simp [curvedMove, hmove]
  rw [admitSingle_later w h hw, hp]
  cases hs : stopClass (pOp p)
  case true => simp [admitStop, hp, ha]
  case false =>
    have hroom := hr.resolve_left (by simp [hs])
    simp [admitPhased, ha, hroom, hcurve, placeMoves]

end

/-- A packet that is not held back and is taken leaves its queue's entry (R63, R64). -/
theorem submit_taken {q e : Nat} {ws : List Word} {w u : Work} (hs : fromConfig w.d.sys.st = true)
    (he : (getQ q w).en = true) (hr : (getSlot q e w).released = true) (hh : heldBack q (nth 0 ws 0) w = false)
    (ht : takePacket q e ws w = (true, u)) : submit q e ws w = bpRefresh u := by
  unfold submit
  rw [if_neg (by simp [hs, he]), if_neg (by simp [hr])]
  dsimp only
  rw [if_neg (ne_true_of_eq_false hh), ht]

end Sys2Proof.Machine

namespace Sys2Proof.Claims

open Sys2Proof.Machine

/-- A row of Table 3.3 brings the packet it names. -/
theorem exec_of_rowOf {c : Instr} {op : Nat} {h : PktHead} {ps : List Word} (s : State)
    (hr : rowOf c = some (op, h, ps)) : exec c s = packet op h ps s := by
  cases c <;> simp only [rowOf, Option.some.injEq, Prod.mk.injEq, reduceCtorEq] at hr <;> obtain ⟨rfl, rfl, rfl⟩ := hr <;>
    rfl

section
variable {c : Instr} {op : Nat} {h : PktHead} {ps : List Word} {s : State}

theorem Served.dispatcherFree (hs : Served op h ps s) : tduBusy (begin_ s) = false := by
  obtain ⟨-, -, -, -, -, -, hbusy, -⟩ := hs
  exact hbusy

theorem Served.length_le (hs : Served op h ps s) : ps.length ≤ 62 := by
  obtain ⟨-, -, -, -, -, -, -, hlen, -⟩ := hs
  exact hlen

/-- A packet that is served, passes its checks by itself and is taken: the whole command. -/
theorem exec_taken {v : Work} (hr : rowOf c = some (op, h, ps)) (hop : op ∈ laterOps)
    (hn : ps.length + h.phased.toNat < 64) (hs : Served op h ps s) (hp : Passes op h ps s) (ha : Alone h)
    (hv : admitSingle (packetOf op h ps s) (atAdmission op h ps s) = .take v) :
    exec c s = .next (commit s (bpRefresh (tduDone (freshId (begin_ s)) v))) := by
  obtain ⟨hlt, hopen, hcommit, -, -⟩ := laterOps_spec op hop
  obtain ⟨hl, hst, hen, hrel, hroom, hnone, hbusy, -, -, hj, hd, hsw, hjr⟩ := hs
  obtain ⟨hf, harm, hfault, hhold⟩ := hp
  have hread := reads_packetOf (op := op) (h := h) (ps := ps) s hlt hn
  have hverdict : verdict (packetOf op h ps s) (atAdmission op h ps s) = .take v := by
    rw [verdict_single (hread.member.trans ha) (by rwa [hread.op]) hf harm (by rwa [hread.op, hread.ps])
      (by rwa [hread.op]), hv]
  have hadmit := tryAdmit_take (p := packetOf op h ps s) hj hd hsw hjr hverdict
  have htake := takePacket_admitted hbusy hnone hadmit
  have hheld : heldBack h.queue (nth 0 (packetWords op h ps) 0) (begin_ s) = false := by
    have hne : (hOpcode (nth 0 (packetWords op h ps) 0) == 0x140) = false :=
      beq_eq_false_iff_ne.2 fun e => hopen (hread.op.symm.trans e)
    have hfree : headsHeld (begin_ s) = false := by simp [headsHeld, hbusy, Nat.not_le.2 hroom]
    rw [heldBack, hfree, hne]
    rfl
  rw [exec_of_rowOf s hr, packet, run_live _ s hl, submit_taken (w := begin_ s) hst hen hrel hheld htake]

/-- The packet at its admission has a fresh identity, which its slot knows and the journal does not. -/
theorem atAdmission_fresh (hbusy : tduBusy (begin_ s) = false) :
    let p := packetOf op h ps s
    let w := atAdmission op h ps s
    p.id ≠ 0 ∧ (∀ j ∈ w.d.cmd.journal, j.id ≠ p.id) ∧ (getSlot p.q p.entry w).owner = some p.id
      ∧ getSlot p.q p.entry w = claimedSlot p.id (pHdr p) (slot h.queue h.entry s) := by
  obtain ⟨-, -, -, hcmd⟩ := claimed_keeps h.queue h.entry (packetWords op h ps) hbusy
  have hslot := getSlot_claimed h.queue h.entry (packetWords op h ps) hbusy
  have hjr : (atAdmission op h ps s).d.cmd.journal = s.dev.cmd.journal := congrArg (·.journal) hcmd
  refine ⟨freshId_ne_zero _, ?_, ?_, hslot⟩
  · rw [hjr]
    exact journal_ne_freshId (begin_ s)
  · exact congrArg (·.owner) hslot

/-- What the state shows of a packet that is ACCEPTED: its slot, and the one effect more. -/
structure AcceptedIn (op : Nat) (h : PktHead) (ps : List Word) (time : When) (eff : Option Word) (s t : State) : Prop where
  shown : SlotShows op h 0x02 s t
  known : (slot h.queue h.entry t).effKnown = eff.isSome
  eff : ∀ x, eff = some x → (slot h.queue h.entry t).eff = x
  effect : EffectAdded op ps time s t

theorem acceptedIn_commit {e : Effect} {eff : Option Word} {w v : Work} (hbusy : tduBusy (begin_ s) = false)
    (hread : Reads op h ps (packetOf op h ps s))
    (hw : getSlot h.queue h.entry w = getSlot h.queue h.entry (atAdmission op h ps s)
      ∧ w.d.phase = (atAdmission op h ps s).d.phase
      ∧ w.d.cmd.effects = (atAdmission op h ps s).d.cmd.effects)
    (ha : Accepted (packetOf op h ps s) e eff w v)
    (he : e.op = op ∧ ps <+: e.ps ∧ e.cmd.id = freshId (begin_ s) ∧ e.bundle = none) :
    AcceptedIn op h ps e.time eff s (commit s (bpRefresh (tduDone (freshId (begin_ s)) v))) := by
  obtain ⟨hslot, hphase, heff⟩ := hw
  obtain ⟨hop, hps, hid, hbun⟩ := he
  obtain ⟨hph, -, -, hcmd⟩ := claimed_keeps h.queue h.entry (packetWords op h ps) hbusy
  obtain ⟨-, -, -, hclaim⟩ := atAdmission_fresh (op := op) (h := h) (ps := ps) hbusy
  obtain ⟨q, j, hbp⟩ := bpRefresh_cmd (tduDone (freshId (begin_ s)) v)
  have hs : slot h.queue h.entry (commit s (bpRefresh (tduDone (freshId (begin_ s)) v)))
      = acceptedSlot 0 s.dev.phase.ncc eff (claimedSlot (freshId (begin_ s)) (pHdr (packetOf op h ps s))
        (slot h.queue h.entry s)) := by
    rw [slot_commit, getSlot_bpRefresh]
    exact ha.slot.trans (congrArg₂ (fun n x => acceptedSlot 0 n eff x) (congrArg (·.ncc) (hphase.trans hph))
      (hslot.trans hclaim))
  refine ⟨⟨?_, ?_, ?_, ?_, ?_⟩, ?_, ?_, e, ?_, hop, hps, rfl, hid, hbun⟩
  · rw [hs]; rfl
  · rw [hs]; rfl
  · rw [hs]; exact hread.op
  · rw [hs]; exact hread.seq
  · rw [hs]; rfl
  · rw [hs]; cases eff <;> rfl
  · rintro x rfl
    rw [hs]; rfl
  · rw [commit_dev, hbp]
    exact ha.effects.trans (congrArg (· ++ [e]) (heff.trans (congrArg (·.effects) hcmd)))

/-- The shares of a cycle are those that taking the packet leaves. -/
theorem shares_commit (i : Nat) (v : Work) :
    let t := commit s (bpRefresh (tduDone i v))
    t.dev.cmd.genNow = v.d.cmd.genNow ∧ t.dev.cmd.phNow = v.d.cmd.phNow := by
  obtain ⟨q, j, h⟩ := bpRefresh_cmd (tduDone i v)
  dsimp only
  rw [commit_dev, h]
  exact ⟨rfl, rfl⟩

/-- An immediate command with a later effect that is no TBL_RELOAD is ACCEPTED for its bound; a stop leaves the shares. -/
theorem immediate_accepted {b : Word} (hr : rowOf c = some (op, h, ps)) (hop : op ∈ laterOps) (hw : WriteLater op ps)
    (ht : tblReload op ps = false) (hs : Served op h ps s) (hp : Passes op h ps s) (ha : Alone h)
    (hph : h.phased = false) (hroom : stopClass op = true ∨ Room op h ps s)
    (hb : boundOf op ps (atAdmission op h ps s) = b) :
    Ends c s fun t => ∃ x, AcceptedIn op h ps (.at b) (some x) s t ∧ (op ≠ 0x100 → x = b)
      ∧ (stopClass op = true → t.dev.cmd.genNow = s.dev.cmd.genNow ∧ t.dev.cmd.phNow = s.dev.cmd.phNow) := by
  have hbusy := hs.dispatcherFree
  obtain ⟨hlt, -⟩ := laterOps_spec op hop
  have hn : ps.length + h.phased.toNat < 64 := by rw [hph]; exact Nat.lt_of_le_of_lt hs.length_le (by decide)
  have hread := reads_packetOf (op := op) (h := h) (ps := ps) s hlt hn
  obtain ⟨hid, hj, ho, -⟩ := atAdmission_fresh (op := op) (h := h) (ps := ps) hbusy
  obtain ⟨hgp, hgj, hge, hgs⟩ := sharesTaken_keeps op ps (atAdmission op h ps s)
  have hv := admitSingle_immediate (p := packetOf op h ps s) (w := atAdmission op h ps s) (by rwa [hread.op])
    (by rwa [hread.op, hread.ps]) (by rw [hread.phased, hph]) (by rwa [hread.op, hread.ps])
  rw [hread.op, hread.ps, hb] at hv
  have hacc := takeImmediate_accepted hid (by rwa [hgj]) (by rwa [hgs]) b
    (tblReload_keptWords (sharesTaken op ps (atAdmission op h ps s)) (by rwa [hread.op, hread.ps]))
  have hin := acceptedIn_commit hbusy hread ⟨hgs _ _, hgp, hge⟩ hacc
    ⟨hread.op, hread.isPrefix_keptWords _, rfl, rfl⟩
  refine ⟨_, exec_taken hr hop hn hs hp ha hv, _, hin, fun h100 => ?_, fun hstop => ?_⟩
  · exact if_neg fun e => h100 (hread.op.symm.trans (beq_iff_eq.1 e))
  · obtain ⟨-, -, -, hcmd⟩ := claimed_keeps h.queue h.entry (packetWords op h ps) hbusy
    obtain ⟨hgen, hphs⟩ := shares_commit (s := s) (freshId (begin_ s)) (takeImmediate (packetOf op h ps s) b 0 none
      (sharesTaken op ps (atAdmission op h ps s)))
    have hw : sharesTaken op ps (atAdmission op h ps s) = atAdmission op h ps s := if_pos hstop
    have hg := (congrArg (fun u : Work => u.d.cmd) hw).trans hcmd
    exact ⟨hgen.trans (hacc.genNow.trans (congrArg (·.genNow) hg)), hphs.trans (hacc.phNow.trans (congrArg (·.phNow) hg))⟩

/-- A phased command with a later effect is ACCEPTED for its phase. -/
theorem phased_accepted (hr : rowOf c = some (op, h, ps)) (hop : op ∈ laterOps) (hw : WriteLater op ps)
    (hs : Served op h ps s) (hp : Passes op h ps s) (ha : Alone h) (hph : h.phased = true) (hlen : ps.length ≤ 61)
    (hahead : phaseAhead (slowOp op ps) h.phase (atAdmission op h ps s) = true)
    (hroom : stopClass op = true ∨ clusterRoom (plannerUnits op ps + replanUnits op ps (atAdmission op h ps s))
      (stepperPlans op ps) h.phase (atAdmission op h ps s) = true) :
    Ends c s fun t => AcceptedIn op h ps (.phase h.phase) none s t := by
  have hbusy := hs.dispatcherFree
  obtain ⟨hlt, -⟩ := laterOps_spec op hop
  have hn : ps.length + h.phased.toNat < 64 := by rw [hph]; exact Nat.lt_of_le_of_lt (Nat.succ_le_succ hlen) (by decide)
  have hread := reads_packetOf (op := op) (h := h) (ps := ps) s hlt hn
  obtain ⟨hid, hj, ho, -⟩ := atAdmission_fresh (op := op) (h := h) (ps := ps) hbusy
  have hv := admitSingle_phased (p := packetOf op h ps s) (w := atAdmission op h ps s) (by rwa [hread.op])
    (by rwa [hread.op, hread.ps]) (by rw [hread.phased, hph]) (by rwa [hread.op, hread.ps, hread.phase hph])
    (by rwa [hread.op, hread.ps, hread.phase hph])
  have hacc := takePhased_accepted hid hj ho
  have hin := acceptedIn_commit hbusy hread ⟨rfl, rfl, rfl⟩ hacc
    ⟨hread.op, hread.isPrefix_keptWords _, rfl, rfl⟩
  rw [hread.phase hph] at hin
  exact ⟨_, exec_taken hr hop hn hs hp ha hv, hin⟩

/-- The sync point n + 2, and the first of the slow group after next, as the admission finds them. -/
theorem nccPlus_atAdmission (hbusy : tduBusy (begin_ s) = false) : nccPlus 2 (atAdmission op h ps s) = cycleIn 2 s := by
  obtain ⟨hph, -⟩ := claimed_keeps h.queue h.entry (packetWords op h ps) hbusy
  change (atAdmission op h ps s).d.phase = s.dev.phase at hph
  rw [nccPlus, hph]
  rfl

theorem slowFirst_atAdmission {n : Nat} (hbusy : tduBusy (begin_ s) = false) (hn : SlowIs n s)
    (hheal : s.dev.trl.heal = none) (hprop : s.dev.trl.prop = none) :
    slowFirst (atAdmission op h ps s) = slowGroupAfterNext n s := by
  obtain ⟨hph, hsys, htrl, -⟩ := claimed_keeps h.queue h.entry (packetWords op h ps) hbusy
  obtain ⟨hn, h8⟩ := hn
  have hslow : slowS (atAdmission op h ps s) = n := (congrArg (fun y => max 1 y.slowDiv) hsys).trans hn
  have hafter : slowAfter (atAdmission op h ps s) = none := by
    change (atAdmission op h ps s).d.trl = s.dev.trl at htrl
    simp [slowAfter, htrl, hheal, hprop]
  change (atAdmission op h ps s).d.phase = s.dev.phase at hph
  rw [slowFirst_eq hslow h8 hafter, nccN, hph]
  rfl

/-- The fast class accepts a command for the sync point n + 2 (R78). -/
theorem fast_accepted (hr : rowOf c = some (op, h, ps)) (hop : op ∈ laterOps) (h100 : op ≠ 0x100)
    (hfast : slowOp op ps = false) (hwrite : op = 0x180 → cmdCls ps = some .a ∧ nodeCmd 0x180 ps = false)
    (hs : Served op h ps s) (hp : Passes op h ps s) (ha : Alone h) (hph : h.phased = false)
    (hroom : stopClass op = true ∨ Room op h ps s) :
    Ends c s fun t => AcceptedIn op h ps (.at (cycleIn 2 s)) (some (cycleIn 2 s)) s t
      ∧ (stopClass op = true → t.dev.cmd.genNow = s.dev.cmd.genNow ∧ t.dev.cmd.phNow = s.dev.cmd.phNow) := by
  have hw : WriteLater op ps := fun e => ⟨(hwrite e).2, by rw [(hwrite e).1]; decide⟩
  have hreload : tblReload op ps = false := by
    by_cases e : op = 0x180
    · exact tblReload_classA op (hwrite e).1
    · exact tblReload_other ps e
  have hbusy := hs.dispatcherFree
  have hb := (boundOf_fast (atAdmission op h ps s) hfast fun e => (hwrite e).1).trans (nccPlus_atAdmission hbusy)
  obtain ⟨t, ht, x, hin, hx, hshares⟩ := immediate_accepted hr hop hw hreload hs hp ha hph hroom hb
  exact ⟨t, ht, hx h100 ▸ hin, hshares⟩

/-- Without a coming change of mode the slow class accepts a command for the first sync point of the slow group after next
(R78); an IO_WRITE shows the latest start of its points. -/
theorem slow_accepted {n : Nat} (hr : rowOf c = some (op, h, ps)) (hop : op ∈ laterOps) (h180 : op ≠ 0x180)
    (hslow : slowOp op ps = true) (hs : Served op h ps s) (hp : Passes op h ps s) (ha : Alone h) (hph : h.phased = false)
    (hn : SlowIs n s) (hheal : s.dev.trl.heal = none) (hprop : s.dev.trl.prop = none)
    (hroom : stopClass op = true ∨ Room op h ps s) :
    Ends c s fun t => ∃ x, AcceptedIn op h ps (.at (slowGroupAfterNext n s)) (some x) s t := by
  have hbusy := hs.dispatcherFree
  have hb := (boundOf_slow (atAdmission op h ps s) hslow).trans (slowFirst_atAdmission hbusy hn hheal hprop)
  obtain ⟨t, ht, x, hin, -⟩ := immediate_accepted hr hop (fun e => absurd e h180) (tblReload_other ps h180) hs hp ha hph
    hroom hb
  exact ⟨t, ht, x, hin⟩

end

/-- Only gearing of a stepper slave is of slow class among these (R78). -/
theorem slowOp_of_fast {op : Nat} {ps : List Word}
    (h : op ∈ [0x040, 0x041, 0x048, 0x049, 0x080, 0x082, 0x1C0, 0x1C1, 0x280, 0x180])
    (hg : op = 0x080 ∨ op = 0x082 → slowOp op ps = false) : slowOp op ps = false := by
  by_cases hgear : op = 0x080 ∨ op = 0x082
  · exact hg hgear
  · simp only [List.mem_cons, List.not_mem_nil, or_false] at h
    rcases h with rfl | rfl | rfl | rfl | rfl | rfl | rfl | rfl | rfl | rfl
    case inr.inr.inr.inr.inl => exact absurd (.inl rfl) hgear
    case inr.inr.inr.inr.inr.inl => exact absurd (.inr rfl) hgear
    all_goals rfl

end Sys2Proof.Claims

namespace Sys2Proof.Proofs

open Sys2Proof.Machine Sys2Proof.Claims

/-- Settles O18: the verdict of each command is ACCEPTED for its bound, n + 2 in the fast class and the start of the slow
group after next in the slow one; a stop takes no share. -/
theorem immediateCommandAccepted : Obligations.ImmediateCommandAccepted := by
  refine ⟨⟨?fast, ?stop⟩, ?slow⟩
  case fast =>
    intro c op h ps s hr hop hgear hwrite hs hp ha hph hroom
    have hlater : ∀ o ∈ [0x040, 0x041, 0x048, 0x049, 0x080, 0x082, 0x1C0, 0x1C1, 0x280, 0x180],
      o ∈ laterOps ∧ o ≠ 0x100 := by decide
    obtain ⟨hop', h100⟩ := hlater op hop
    obtain ⟨t, ht, hin, -⟩ :=
      fast_accepted hr hop' h100 (slowOp_of_fast hop hgear) hwrite hs hp ha hph (.inr hroom)
    exact ⟨t, ht, hin.shown, hin.known, hin.eff _ rfl, hin.effect⟩
  case stop =>
    intro c op h ps s hr hop hs hp ha hph
    have hstop : ∀ o ∈ [0x046, 0x047], o ∈ laterOps ∧ o ≠ 0x100 ∧ o ≠ 0x180 ∧ stopClass o = true
      ∧ slowOp o ps = false := by simp [laterOps, stopClass, slowOp]
    obtain ⟨hop', h100, h180, hst, hfast⟩ := hstop op hop
    obtain ⟨t, ht, hin, hshares⟩ :=
      fast_accepted hr hop' h100 hfast (fun e => absurd e h180) hs hp ha hph (.inl hst)
    exact ⟨t, ht, hin.shown, hin.eff _ rfl, hin.effect, hshares hst⟩
  case slow =>
    intro c op n h ps s hr hop hslow hs hp ha hph hn hheal hprop hroom
    have hlater : ∀ o ∈ [0x0C0, 0x0C1, 0x0C2, 0x0C3, 0x100, 0x080, 0x082], o ∈ laterOps ∧ o ≠ 0x180 := by decide
    obtain ⟨hop', h180⟩ := hlater op hop
    obtain ⟨t, ht, x, hin⟩ := slow_accepted hr hop' h180 hslow hs hp ha hph hn hheal hprop
      (hroom.imp_left fun e => by rw [e]; rfl)
    exact ⟨t, ht, hin.shown, hin.known, hin.effect⟩

/-- Settles O20: neither an earliest effect past the phase nor a full cluster refuses the command, and its report names no
sync point yet. -/
theorem phasedCommandAccepted : Obligations.PhasedCommandAccepted := by
  intro c op h ps s hr hop hw hs hp ha hph hlen w hahead hroom
  have hlater : ∀ o ∈ [0x040, 0x041, 0x046, 0x047, 0x049, 0x080, 0x082, 0x0C0, 0x0C1, 0x0C2, 0x0C3, 0x100, 0x180, 0x1C0],
    o ∈ laterOps := by decide
  obtain ⟨t, ht, hin⟩ := phased_accepted hr (hlater op hop) hw hs hp ha hph hlen hahead hroom
  exact ⟨t, ht, hin.shown, hin.known, hin.effect⟩

end Sys2Proof.Proofs
end

section
/-! SUPPORT. The report of a command in its own slot, and the operations beside it that leave slot, journal and command system
as the admission found them (spec/03 R82 to R88, spec/04 R132). -/

namespace Sys2Proof.Machine

open Sys2Proof.Claims

/-! A command that can be reported. -/

/-- A packet's command has an identity that is new to the journal and owns the packet's slot. -/
structure Reportable (p : Packet) (w : Work) : Prop where
  id : p.id ≠ 0
  new : ∀ j ∈ w.d.cmd.journal, j.id ≠ p.id
  owns : (getSlot p.q p.entry w).owner = some p.id

/-- A slot with a report written into it. -/
def withReport (r : Report) (x : Slot) : Slot := { x with
  status := r.status, detail := r.detail, delay := r.delay.getD x.delay, acc := r.acc.getD x.acc, eff := r.eff.getD x.eff
  effKnown := x.effKnown || r.eff.isSome, rlen := r.res.length, res := r.res }

/-- A slot as a report leaves it: OK of a command with NO_RESULT releases it (R73). -/
def reportedSlot (hdr : Word) (r : Report) (x : Slot) : Slot :=
  if hNoResult hdr && r.status == stOK then releasedSlot (withReport r x) else withReport r x

theorem reportedSlot_shown {hdr : Word} {r : Report} (x : Slot) (h : hNoResult hdr = false ∨ r.status ≠ stOK) :
    reportedSlot hdr r x = withReport r x := by
  refine if_neg ?_
  rcases h with h | h <;> simp [h]

theorem reportedSlot_released {hdr : Word} {r : Report} (x : Slot) (h : hNoResult hdr = true) (hr : r.status = stOK) :
    reportedSlot hdr r x = releasedSlot (withReport r x) := if_pos (by simp [h, hr])

/-- What a report leaves of the units: it changes the queues and the journal of the command system, and what memory words,
interrupts and host messages show. -/
structure Reported (p : Packet) (r : Report) (w v : Work) : Prop where
  slot : getSlot p.q p.entry v = reportedSlot (pHdr p) r (getSlot p.q p.entry w)
  cmd : v.d.cmd = { w.d.cmd with queues := v.d.cmd.queues, journal := v.d.cmd.journal }
  ptm : v.d.ptm = w.d.ptm

theorem report_reported {p : Packet} (r : Report) {w : Work} (h : Reportable p w) :
    Reported p r w (report (pRef p) r w) := by
  have hnew : w.d.cmd.journal.find? (fun j => j.id == p.id) = none :=
    List.find?_eq_none.2 fun j hj => by simpa using h.new j hj
  have hid : (p.id == 0) = false := beq_eq_false_iff_ne.2 h.id
  obtain ⟨o, e, k, j, hput⟩ := putJournal_frame (pRef p) (fun j => { j with
    status := r.status, detail := r.detail, delay := r.delay.getD j.delay, acc := r.acc.getD j.acc,
    eff := r.eff.getD j.eff, effKnown := j.effKnown || r.eff.isSome, member := j.member || r.member }) w
  have hown : ((getSlot p.q p.entry { w with
      ops := o, d.mem.ecc := e, d.mem.pageCrc := k, d.cmd.journal := j }).owner == some p.id) = true :=
    beq_iff_eq.2 h.owns
  have hslot : ∃ hif out, report (pRef p) r w = { putSlot p.q p.entry (reportedSlot (pHdr p) r (getSlot p.q p.entry w))
      { w with ops := o, d.mem.ecc := e, d.mem.pageCrc := k, d.cmd.journal := j } with d.hif := hif, d.out := out } := by
    unfold report
    dsimp only [pRef] at hput ⊢
    simp only [hid, hnew, Bool.false_eq_true, if_false]
    rw [hput]
    simp only [hown, if_true]
    split
    · exact irq_frame _ _
    · exact ⟨_, _, rfl⟩
  obtain ⟨hif, out, hr⟩ := hslot
  obtain ⟨_, _, _, _, hs⟩ := putSlot_frame p.q p.entry (reportedSlot (pHdr p) r (getSlot p.q p.entry w))
    { w with ops := o, d.mem.ecc := e, d.mem.pageCrc := k, d.cmd.journal := j }
  refine ⟨?_, ?_, ?_⟩
  · rw [hr]
    exact (getSlot_putSlot p.q p.entry p.q p.entry _ _).trans (if_pos ⟨rfl, rfl⟩)
  · rw [hr, hs]
    rfl
  · rw [hr, hs]
    rfl

section
variable {p : Packet} {r : Report} {v w : Work} (h : Reported p r w v)
include h

theorem Reported.dispatch : v.d.cmd.dispatch = w.d.cmd.dispatch := congrArg (·.dispatch) h.cmd
theorem Reported.effects : v.d.cmd.effects = w.d.cmd.effects := congrArg (·.effects) h.cmd
theorem Reported.bundles : v.d.cmd.bundles = w.d.cmd.bundles := congrArg (·.bundles) h.cmd
theorem Reported.genNow : v.d.cmd.genNow = w.d.cmd.genNow := congrArg (·.genNow) h.cmd

end

/-! Operations that leave a packet's command aside. -/

/-- What a packet's admission reads again after an operation of its own stands as before: the slot, a journal without the
command, the cycle, and of the command system all but the queues, the journal, the event log and the node transfers. -/
structure Spares (p : Packet) (w v : Work) : Prop where
  slot : getSlot p.q p.entry v = getSlot p.q p.entry w
  new : (∀ j ∈ w.d.cmd.journal, j.id ≠ p.id) → ∀ j ∈ v.d.cmd.journal, j.id ≠ p.id
  phase : v.d.phase = w.d.phase
  cmd : v.d.cmd = { w.d.cmd with
    queues := v.d.cmd.queues, journal := v.d.cmd.journal, evWr := v.d.cmd.evWr, evRd := v.d.cmd.evRd, evOvr := v.d.cmd.evOvr
    xfers := v.d.cmd.xfers }

section
variable {p : Packet} {u v w : Work}

theorem Spares.refl (p : Packet) (w : Work) : Spares p w w := ⟨rfl, id, rfl, rfl⟩

theorem Spares.trans (h : Spares p w u) (k : Spares p u v) : Spares p w v :=
  ⟨k.slot.trans h.slot, k.new ∘ h.new, k.phase.trans h.phase, k.cmd.trans (congrArg (fun c : CmdSt => { c with
    queues := v.d.cmd.queues, journal := v.d.cmd.journal, evWr := v.d.cmd.evWr, evRd := v.d.cmd.evRd, evOvr := v.d.cmd.evOvr
    xfers := v.d.cmd.xfers }) h.cmd)⟩

theorem Spares.reportable (h : Spares p w v) (hr : Reportable p w) : Reportable p v :=
  ⟨hr.id, h.new hr.new, h.slot ▸ hr.owns⟩

theorem Spares.dispatch (h : Spares p w v) : v.d.cmd.dispatch = w.d.cmd.dispatch := congrArg (·.dispatch) h.cmd
theorem Spares.effects (h : Spares p w v) : v.d.cmd.effects = w.d.cmd.effects := congrArg (·.effects) h.cmd
theorem Spares.bundles (h : Spares p w v) : v.d.cmd.bundles = w.d.cmd.bundles := congrArg (·.bundles) h.cmd
theorem Spares.genNow (h : Spares p w v) : v.d.cmd.genNow = w.d.cmd.genNow := congrArg (·.genNow) h.cmd

/-- An operation of other units leaves every command aside. -/
theorem spares_of_units (hc : v.d.cmd = w.d.cmd) (hp : v.d.phase = w.d.phase) : Spares p w v := by
  refine ⟨?_, ?_, hp, ?_⟩
  · rw [getSlot, getQ, hc]; rfl
  · rw [hc]; exact id
  · rw [hc]

theorem spares_each {α : Type} {f : α → Work → Work} (l : List α)
    (h : ∀ a ∈ l, ∀ v, Spares p w v → Spares p v (f a v)) :
    Spares p w (each l f w) :=
  each_keeps l (fun a ha v hv => hv.trans (h a ha v hv)) (Spares.refl p w)

theorem logEvent_spares (p : Packet) (b : Blk) (i c x : Nat) (w : Work) : Spares p w (logEvent b i c x w) := by
  obtain ⟨_, _, _, _, _, _, _, _, _, h⟩ := logEvent_frame b i c x w
  rw [h]
  exact ⟨rfl, id, rfl, rfl⟩

theorem wr_spares (p : Packet) (a : Nat) (x : Word) (w : Work) : Spares p w (wr a x w) := by
  obtain ⟨_, _, _, h⟩ := wr_frame a x w
  rw [h]
  exact spares_of_units rfl rfl

theorem wrs_spares (p : Packet) (a : Nat) (l : List Word) (w : Work) : Spares p w (wrs a l w) := by
  obtain ⟨_, _, _, h⟩ := wrs_frame l a w
  rw [h]
  exact spares_of_units rfl rfl

end

/-! The report of another command. -/

@[simp] theorem journal_wrs (a : Nat) (l : List Word) (w : Work) : (wrs a l w).d.cmd.journal = w.d.cmd.journal := by
  obtain ⟨_, _, _, h⟩ := wrs_frame l a w
  rw [h]

theorem mem_journal_putJournal {c : CmdRef} {f : JEntry → JEntry} {w : Work} (hf : ∀ j, (f j).id = j.id) :
    ∀ j ∈ (putJournal c f w).d.cmd.journal, j.id = c.id ∨ ∃ i ∈ w.d.cmd.journal, i.id = j.id := by
  intro j hj
  unfold putJournal at hj
  split at hj
  · next x hx =>
    have hxid : x.id = c.id := by simpa using List.find?_some hx
    rw [journal_wrs] at hj
    obtain ⟨i, hi, rfl⟩ := List.mem_map.1 hj
    split
    · exact .inl ((hf x).trans hxid)
    · exact .inr ⟨i, hi, rfl⟩
  · dsimp only at hj
    rw [journal_wrs] at hj
    rcases List.mem_append.1 hj with hk | hk
    · refine .inr ⟨j, ?_, rfl⟩
      split at hk
      · exact List.mem_of_mem_filter hk
      · exact hk
    · rw [List.mem_singleton.1 hk]
      exact .inl (hf _)

theorem putJournal_spares {p : Packet} {c : CmdRef} {f : JEntry → JEntry} (w : Work) (hf : ∀ j, (f j).id = j.id)
    (hne : c.id ≠ p.id) : Spares p w (putJournal c f w) := by
  obtain ⟨_, _, _, _, hframe⟩ := putJournal_frame c f w
  refine ⟨by rw [hframe]; rfl, fun hnew j hj => ?_, by rw [hframe], by rw [hframe]⟩
  rcases mem_journal_putJournal hf j hj with h | ⟨i, hi, h⟩
  · exact h ▸ hne
  · exact h ▸ hnew i hi

/-- A slot that a packet's command does not own is stored. -/
theorem putSlot_spares {p : Packet} {q e : Nat} {w : Work} (x : Slot) (h : ¬ (p.q = q ∧ p.entry = e)) :
    Spares p w (putSlot q e x w) := by
  obtain ⟨_, _, _, _, hs⟩ := putSlot_frame q e x w
  refine ⟨(getSlot_putSlot p.q p.entry q e x w).trans (if_neg h), ?_, ?_, ?_⟩ <;> rw [hs]
  · exact id
  all_goals rfl

theorem irq_spares (p : Packet) (i : Nat) (w : Work) : Spares p w (irq i w) :=
  spares_of_units (irq_cmd i w) (irq_phase i w)

/-- The report of another command leaves the packet's aside: the slot it writes is its own. -/
theorem report_spares {p : Packet} {c : CmdRef} (r : Report) {w : Work} (h : Reportable p w) (hne : c.id ≠ p.id) :
    Spares p w (report c r w) := by
  unfold report
  extract_lets old w1 x x1 fin x2 w2
  have h1 : Spares p w w1 := putJournal_spares w (fun _ => rfl) hne
  have h2 (ho : (x.owner == some c.id) = true) : Spares p w w2 := by
    refine h1.trans (putSlot_spares x2 ?_)
    rintro ⟨hq, he⟩
    have hown := (h1.reportable h).owns
    rw [hq, he] at hown
    exact hne (Option.some.inj ((beq_iff_eq.1 ho).symm.trans hown))
  refine iteInduction (fun _ => Spares.refl p w) fun _ => iteInduction (fun _ => Spares.refl p w) fun _ => ?_
  refine iteInduction (fun ho => ?own) fun _ => ?late
  case own => exact iteInduction (fun _ => (h2 ho).trans (irq_spares p c.q w2)) fun _ => h2 ho
  case late => exact iteInduction (fun _ => h1.trans (logEvent_spares ..)) fun _ => h1

end Sys2Proof.Machine
end

section
/-! SUPPORT. A packet that is served, from its row to the state its admission leaves, whatever the verdict takes (spec/03 R61
to R67, R73). -/

namespace Sys2Proof.Machine

theorem hNoResult_headerWord {op n : Nat} {h : PktHead} (hop : op < 1024) (hn : n + h.phased.toNat < 64) :
    hNoResult (headerWord op n h) = h.noResult := by
  refine bit_of_field (div_mod_of_fields (lo := h.inBundle.toNat * 2 + h.phased.toNat)
    (hi := ((op * 64 + (n + h.phased.toNat)) * 4096 + h.seq.toNat) * 32 + h.urgent.toNat) ?_ ?_ h.noResult.toNat_lt)
  · rw [headerWord_toNat hop hn, flagBits]
    omega
  · have hi := h.inBundle.toNat_le
    have hp := h.phased.toNat_le
    omega

end Sys2Proof.Machine

namespace Sys2Proof.Claims

open Sys2Proof.Machine

/-- The state after a command whose packet's admission, the one of identity i, is over with the units as v has them. -/
def ended (s : State) (i : Nat) (v : Work) : State := commit s (bpRefresh (tduDone i v))

section
variable {c : Instr} {op : Nat} {h : PktHead} {ps : List Word} {s : State}

@[simp] theorem slot_ended (q e i : Nat) (v : Work) : slot q e (ended s i v) = getSlot q e v := by
  rw [ended, slot_commit, getSlot_bpRefresh]
  rfl

theorem ended_cmd (i : Nat) (v : Work) : ∃ q j, (ended s i v).dev.cmd = { v.d.cmd with queues := q, jWait := j } :=
  bpRefresh_cmd (tduDone i v)

@[simp] theorem ended_dispatch (i : Nat) (v : Work) : (ended s i v).dev.cmd.dispatch = v.d.cmd.dispatch := by
  obtain ⟨_, _, h⟩ := ended_cmd (s := s) i v
  rw [h]

@[simp] theorem ended_effects (i : Nat) (v : Work) : (ended s i v).dev.cmd.effects = v.d.cmd.effects := by
  obtain ⟨_, _, h⟩ := ended_cmd (s := s) i v
  rw [h]

@[simp] theorem ended_bundles (i : Nat) (v : Work) : (ended s i v).dev.cmd.bundles = v.d.cmd.bundles := by
  obtain ⟨_, _, h⟩ := ended_cmd (s := s) i v
  rw [h]

@[simp] theorem ended_genNow (i : Nat) (v : Work) : (ended s i v).dev.cmd.genNow = v.d.cmd.genNow := by
  obtain ⟨_, _, h⟩ := ended_cmd (s := s) i v
  rw [h]

@[simp] theorem ended_ptm (i : Nat) (v : Work) : (ended s i v).dev.ptm = v.d.ptm := by
  obtain ⟨_, _, _, _, h⟩ := bpRefresh_frame (tduDone i v)
  rw [ended, commit_dev, h]
  rfl

/-! The block at the admission. -/

/-- Taking the packet leaves the Hedge island, plant time and the governor as the packet found them. -/
theorem atAdmission_units (hbusy : tduBusy (begin_ s) = false) :
    let w := atAdmission op h ps s
    w.variant = s.variant ∧ w.d.hdg = s.dev.hdg ∧ w.d.ptm = s.dev.ptm ∧ w.d.egv = s.dev.egv := by
  obtain ⟨t, hc⟩ := claimed_eq h.queue h.entry (packetWords op h ps) hbusy
  obtain ⟨_, _, _, _, hp⟩ := putSlot_frame h.queue h.entry
    (claimedSlot (freshId (begin_ s)) (nth 0 (packetWords op h ps) 0) (getSlot h.queue h.entry (begin_ s)))
    { begin_ s with d.tdu := t, d.freeCtr := (begin_ s).d.freeCtr + 1, d.cmd.nextId := freshId (begin_ s) + 1 }
  have hw : atAdmission op h ps s = _ := hc.trans hp
  rw [hw]
  exact ⟨rfl, rfl, rfl, rfl⟩

theorem atAdmission_ncc (hbusy : tduBusy (begin_ s) = false) : (atAdmission op h ps s).d.phase.ncc = s.dev.phase.ncc := by
  obtain ⟨hph, -⟩ := claimed_keeps h.queue h.entry (packetWords op h ps) hbusy
  exact congrArg (·.ncc) hph

/-- The lists of the command system and the shares are those the packet found. -/
theorem atAdmission_lists (hbusy : tduBusy (begin_ s) = false) :
    let x := (atAdmission op h ps s).d.cmd
    x.dispatch = s.dev.cmd.dispatch ∧ x.effects = s.dev.cmd.effects ∧ x.bundles = s.dev.cmd.bundles
      ∧ x.nextBundle = s.dev.cmd.nextBundle ∧ x.genNow = s.dev.cmd.genNow := by
  obtain ⟨-, -, -, hc⟩ := claimed_keeps h.queue h.entry (packetWords op h ps) hbusy
  exact ⟨congrArg (·.dispatch) hc, congrArg (·.effects) hc, congrArg (·.bundles) hc, congrArg (·.nextBundle) hc,
    congrArg (·.genNow) hc⟩

theorem openBundle_atAdmission (q : Nat) (hbusy : tduBusy (begin_ s) = false) :
    openBundle q (atAdmission op h ps s) = openBundle q (begin_ s) := by
  obtain ⟨-, -, hb, -⟩ := atAdmission_lists (op := op) (h := h) (ps := ps) hbusy
  unfold openBundle
  rw [hb]
  rfl

theorem reportable_atAdmission (hbusy : tduBusy (begin_ s) = false) :
    Reportable (packetOf op h ps s) (atAdmission op h ps s) := by
  obtain ⟨hid, hnew, howns, -⟩ := atAdmission_fresh (op := op) (h := h) (ps := ps) hbusy
  exact ⟨hid, hnew, howns⟩

/-! The whole command. -/

/-- A served packet whose verdict takes it ends with the units as the verdict leaves them. -/
theorem exec_admitted {v : Work} (hx : exec c s = packet op h ps s) (hread : Reads op h ps (packetOf op h ps s))
    (hs : Served op h ps s) (hv : verdict (packetOf op h ps s) (atAdmission op h ps s) = .take v) :
    exec c s = .next (ended s (freshId (begin_ s)) v) := by
  obtain ⟨hl, hst, hen, hrel, hroom, hnone, hbusy, -, hopen, hj, hd, hsw, hjr⟩ := hs
  have hadmit := tryAdmit_take (p := packetOf op h ps s) hj hd hsw hjr hv
  have htake := takePacket_admitted hbusy hnone hadmit
  have hheld : heldBack h.queue (nth 0 (packetWords op h ps) 0) (begin_ s) = false := by
    have hfree : headsHeld (begin_ s) = false := by simp [headsHeld, hbusy, Nat.not_le.2 hroom]
    have hop : hOpcode (nth 0 (packetWords op h ps) 0) = op := hread.op
    rw [heldBack, hfree, hop, Bool.false_or, Bool.and_eq_false_iff]
    by_cases h140 : op = 0x140
    · exact .inr (hopen h140)
    · exact .inl (beq_eq_false_iff_ne.2 h140)
  rw [hx, packet, run_live _ s hl, submit_taken (w := begin_ s) hst hen hrel hheld htake]
  rfl

/-- A slot that shows a report of the packet's command, made in the present cycle. -/
theorem slotShows_ended {v : Work} {r : Report} (hbusy : tduBusy (begin_ s) = false)
    (hread : Reads op h ps (packetOf op h ps s))
    (hslot : getSlot h.queue h.entry v
      = reportedSlot (pHdr (packetOf op h ps s)) r (getSlot h.queue h.entry (atAdmission op h ps s)))
    (hacc : r.acc = some s.dev.phase.ncc) (hshown : hNoResult (pHdr (packetOf op h ps s)) = false ∨ r.status ≠ stOK)
    (i : Nat) : SlotShows op h r.status s (ended s i v) := by
  obtain ⟨-, -, -, hclaim⟩ := atAdmission_fresh (op := op) (h := h) (ps := ps) hbusy
  have ht : slot h.queue h.entry (ended s i v) = withReport r (claimedSlot (packetOf op h ps s).id (pHdr (packetOf op h ps s))
      (slot h.queue h.entry s)) := by
    rw [slot_ended, hslot, reportedSlot_shown _ hshown]
    exact congrArg (withReport r) hclaim
  unfold SlotShows
  dsimp only
  rw [ht]
  exact ⟨rfl, by rw [withReport, hacc]; rfl, hread.op, hread.seq, rfl⟩

end

end Sys2Proof.Claims
end

section
/-! SUPPORT. The packets that complete in the cycle of their admission (spec/03 Tables 3.3 and 3.4). -/

namespace Sys2Proof.Machine

open Sys2Proof.Claims

/-! What carrying them out leaves aside. -/

section
variable {p : Packet} {w : Work}

theorem fdRepair_spares (p : Packet) (n mem a : Nat) (w : Work) : Spares p w (fdRepair n mem a w) := by
  unfold fdRepair
  dsimp only
  split <;> exact spares_of_units rfl rfl

theorem fdScan_spares (p : Packet) (n : Nat) (l : List (Nat × Nat)) (w : Work) : Spares p w (fdScan n l w) := by
  refine spares_each _ fun e _ v _ => ?_
  have hset (u : FdUnit) : Spares p v (setFd n u v) := spares_of_units rfl rfl
  refine iteInduction (fun _ => ?uncorrectable) fun _ => ?corrected
  case uncorrectable => exact ((hset _).trans (logEvent_spares ..)).trans (fdRepair_spares ..)
  case corrected =>
    unfold when_
    split
    · exact (hset _).trans (logEvent_spares ..)
    · exact hset _

/-- Reading a parameter may find errors in a Furrow memory, and takes a free value where the parameter is write only. -/
theorem paramValue_spares (p : Packet) (o : Word) (n : Nat) (w : Work) : Spares p w (paramValue o n w).2 := by
  have hfree : Spares p w (freeW w).2 := spares_of_units rfl rfl
  have hsame : Spares p w w := Spares.refl p w
  unfold paramValue
  dsimp only
  split
  case h_1 => split <;> [exact hsame; exact hsame; exact hsame; exact hfree]
  case h_2 => split <;> exact hsame
  case h_3 => split <;> [exact hfree; exact hsame]
  case h_4 =>
    refine iteInduction (motive := fun x : Word × Work => Spares p w x.2) (fun _ => hsame) fun _ => ?_
    split <;> exact hsame
  case h_5 => exact hsame
  case h_6 =>
    refine .trans ?_ (fdScan_spares ..)
    split <;> [exact hfree; exact hsame]
  case h_7 => exact hsame

theorem finishOk_paramRead (p : Packet) (w : Work) : ∃ l u, paramRead p w = finishOk (pRef p) l u ∧ Spares p w u := by
  refine ⟨_, _, rfl, ?_⟩
  exact each_keeps (P := fun x : List Word × Work => Spares p w x.2) _
    (fun n _ x hx => hx.trans (paramValue_spares p _ n x.2)) (Spares.refl p w)

theorem maskLoad_spares (p : Packet) (k sig a n i : Nat) (w : Work) : Spares p w (maskLoad k sig a n i w) :=
  (wrs_spares p _ _ w).trans (spares_of_units rfl rfl)

theorem setPtm_spares (p : Packet) (t : PtmSt) (w : Work) : Spares p w { w with d.ptm := t } := spares_of_units rfl rfl

/-! The admission. -/

/-- The packets that need no resource. -/
def atOnceOps : List Nat := [0x000, 0x101, 0x201, 0x240, 0x241, 0x1C2, 0x003, 0x181]

theorem atOnceOps_spec : ∀ op ∈ atOnceOps, op < 1024 ∧ op ≠ 0x141 := by decide

/-- Plant time as a PT_ADJUST sets it (spec/20 R604). -/
def adjusted (ps : List Word) (t : PtmSt) : PtmSt := { t with
  ofs := plantTime t t.frc + BitVec.ofInt 64 (ptIncrement ps), frcB := t.frc, rate := prm ps 3, set := true }

/-- A packet's verdict is to complete OK with these result words, after what u has of its own. -/
structure CompletesWith (p : Packet) (res : List Word) (w u : Work) : Prop where
  verdict : admitAtOnce p w = some (.take (finishOk (pRef p) res u))
  spares : Spares p w u
  nop : pOp p = 0x000 → res = []
  status : pOp p = 0x201 → res = (List.range 8).map (fun k => hdgRead k w)
  adjust : pOp p = 0x003 → res = [wd (w.d.ptm.frc.toNat / 2 ^ 36), wd w.d.ptm.frc.toNat]
    ∧ u.d.ptm = adjusted (pPs p) w.d.ptm

theorem admitAtOnce_completes (w : Work) (h : pOp p ∈ atOnceOps)
    (hn : pOp p = 0x181 → nodeCmd 0x181 (pPs p) = false) : ∃ res u, CompletesWith p res w u := by
  have other {v u : Work} {res : List Word} (hv : admitAtOnce p w = some (.take v)) (he : v = finishOk (pRef p) res u)
      (hs : Spares p w u) (ho : pOp p ≠ 0x000 ∧ pOp p ≠ 0x201 ∧ pOp p ≠ 0x003) : ∃ res u, CompletesWith p res w u :=
    ⟨res, u, he ▸ hv, hs, fun e => absurd e ho.1, fun e => absurd e ho.2.1, fun e => absurd e ho.2.2⟩
  simp only [atOnceOps, List.mem_cons, List.not_mem_nil, or_false] at h
  rcases h with h | h | h | h | h | h | h | h
  · have hv : admitAtOnce p w = some (.take (finishOk (pRef p) [] w)) := by rw [admitAtOnce, h]; rfl
    exact ⟨_, _, hv, Spares.refl p w, fun _ => rfl, by simp [h], by simp [h]⟩
  · exact other (by rw [admitAtOnce, h]; rfl) rfl (Spares.refl p w) (by simp [h])
  · have hv : admitAtOnce p w = some (.take (finishOk (pRef p) ((List.range 8).map (fun k => hdgRead k w)) w)) := by
      rw [admitAtOnce, h]; rfl
    exact ⟨_, _, hv, Spares.refl p w, by simp [h], fun _ => rfl, by simp [h]⟩
  · have hv : admitAtOnce p w = some (.take (ledgerRead p w)) := by rw [admitAtOnce, h]; rfl
    exact other hv rfl (wrs_spares ..) (by simp [h])
  · have hv : admitAtOnce p w = some (.take (journalRead p w)) := by rw [admitAtOnce, h]; rfl
    exact other hv rfl (Spares.refl p w) (by simp [h])
  · exact other (by rw [admitAtOnce, h]; rfl) rfl (maskLoad_spares ..) (by simp [h])
  · have hv : admitAtOnce p w = some (.take (ptAdjust p w)) := by rw [admitAtOnce, h]; rfl
    exact ⟨_, { w with d.ptm := adjusted (pPs p) w.d.ptm }, hv, setPtm_spares .., by simp [h], by simp [h],
      fun _ => ⟨rfl, rfl⟩⟩
  · have hv : admitAtOnce p w = some (.take (paramRead p w)) := by
      rw [admitAtOnce, h]
      exact if_neg (ne_true_of_eq_false (hn h))
    obtain ⟨l, u, hl, hu⟩ := finishOk_paramRead p w
    exact other hv hl hu (by simp [h])

end

theorem admitSingle_atOnce {p : Packet} {w : Work} {v : Verdict} (h : admitAtOnce p w = some v) : admitSingle p w = v := by
  rw [admitSingle, h]

end Sys2Proof.Machine

namespace Sys2Proof.Claims

open Sys2Proof.Machine

section
variable {c : Instr} {op : Nat} {h : PktHead} {ps : List Word} {s : State}

/-- What the state shows of a packet that completes OK with these result words, the units being as u has them before. -/
structure CompletedIn (op : Nat) (h : PktHead) (res : List Word) (u : Work) (s t : State) : Prop where
  shown : h.noResult = false → SlotShows op h 0x00 s t ∧ (slot h.queue h.entry t).res = res
  released : h.noResult = true → (slot h.queue h.entry t).status = 1 ∧ (slot h.queue h.entry t).released = true
    ∧ (slot h.queue h.entry t).res = []
  dispatch : t.dev.cmd.dispatch = u.d.cmd.dispatch
  effects : t.dev.cmd.effects = u.d.cmd.effects
  bundles : t.dev.cmd.bundles = u.d.cmd.bundles
  ptm : t.dev.ptm = u.d.ptm

/-- A served packet whose verdict is to complete, once u has what it does of its own. -/
theorem exec_completed {res : List Word} {u : Work} (hx : exec c s = packet op h ps s) (hop : op < 1024)
    (hn : ps.length + h.phased.toNat < 64) (hs : Served op h ps s)
    (hv : verdict (packetOf op h ps s) (atAdmission op h ps s) = .take (finishOk (pRef (packetOf op h ps s)) res u))
    (hu : Reportable (packetOf op h ps s) u)
    (hslot : getSlot h.queue h.entry u = getSlot h.queue h.entry (atAdmission op h ps s))
    (hncc : u.d.phase.ncc = s.dev.phase.ncc) : Ends c s (CompletedIn op h res u s) := by
  have hbusy := hs.dispatcherFree
  have hread := reads_packetOf (op := op) (h := h) (ps := ps) s hop hn
  have hno : hNoResult (pHdr (packetOf op h ps s)) = h.noResult := hNoResult_headerWord hop hn
  have hreported := report_reported { status := stOK, acc := some u.d.phase.ncc, res := res } hu
  have hfinal : getSlot h.queue h.entry (finishOk (pRef (packetOf op h ps s)) res u) = reportedSlot (pHdr (packetOf op h ps s))
      { status := stOK, acc := some u.d.phase.ncc, res := res } (getSlot h.queue h.entry (atAdmission op h ps s)) :=
    hreported.slot.trans (congrArg _ hslot)
  refine ⟨_, exec_admitted hx hread hs hv, ?_⟩
  constructor
  case shown =>
    intro hres
    refine ⟨slotShows_ended hbusy hread hfinal (congrArg some hncc) (.inl (hno.trans hres)) _, ?_⟩
    rw [slot_ended, hfinal, reportedSlot_shown _ (.inl (hno.trans hres))]
    rfl
  case released =>
    intro hres
    rw [slot_ended, hfinal, reportedSlot_released _ (hno.trans hres) rfl]
    exact ⟨rfl, rfl, rfl⟩
  case dispatch => exact (ended_dispatch _ _).trans hreported.dispatch
  case effects => exact (ended_effects _ _).trans hreported.effects
  case bundles => exact (ended_bundles _ _).trans hreported.bundles
  case ptm => exact (ended_ptm _ _).trans hreported.ptm

/-- A packet by itself that passes its checks is admitted as a single command. -/
theorem verdict_alone (hread : Reads op h ps (packetOf op h ps s)) (hc : op ≠ 0x141) (hp : Passes op h ps s) (ha : Alone h) :
    verdict (packetOf op h ps s) (atAdmission op h ps s) = admitSingle (packetOf op h ps s) (atAdmission op h ps s) := by
  obtain ⟨hf, harm, hfault, hhold⟩ := hp
  exact verdict_single (hread.member.trans ha) (by rwa [hread.op]) hf harm (by rwa [hread.op, hread.ps]) (by rwa [hread.op])

/-- The packets that need no resource complete. -/
theorem atOnce_completed (hr : rowOf c = some (op, h, ps)) (hop : op ∈ atOnceOps)
    (hnode : op = 0x181 → nodeCmd 0x181 ps = false) (hs : Served op h ps s) (hp : Passes op h ps s) (ha : Alone h)
    (hph : h.phased = false) : ∃ res u, CompletesWith (packetOf op h ps s) res (atAdmission op h ps s) u
      ∧ Ends c s (CompletedIn op h res u s) := by
  have hbusy := hs.dispatcherFree
  obtain ⟨hlt, h141⟩ := atOnceOps_spec op hop
  have hn : ps.length + h.phased.toNat < 64 := by rw [hph]; exact Nat.lt_of_le_of_lt hs.length_le (by decide)
  have hread := reads_packetOf (op := op) (h := h) (ps := ps) s hlt hn
  obtain ⟨res, u, hdone⟩ := admitAtOnce_completes (p := packetOf op h ps s) (atAdmission op h ps s) (by rwa [hread.op])
    (by rwa [hread.op, hread.ps])
  have hv := (verdict_alone hread h141 hp ha).trans (admitSingle_atOnce hdone.verdict)
  refine ⟨res, u, hdone, exec_completed (exec_of_rowOf s hr) hlt hn hs hv
    (hdone.spares.reportable (reportable_atAdmission hbusy)) hdone.spares.slot ?_⟩
  exact (congrArg (·.ncc) hdone.spares.phase).trans (atAdmission_ncc hbusy)

end

end Sys2Proof.Claims

namespace Sys2Proof.Proofs

open Sys2Proof.Machine Sys2Proof.Claims

/-- Settles O17: none of these packets touches the slot, the dispatch list or the effects before it reports OK, and Hedge's
window and the plant time are those the packet found. -/
theorem packetCompletesAtOnce : Obligations.PacketCompletesAtOnce := by
  intro c op h ps s hr hop hnode hs hp ha hph
  have hbusy := hs.dispatcherFree
  obtain ⟨res, u, hdone, t, ht, hshows⟩ := atOnce_completed hr hop hnode hs hp ha hph
  obtain ⟨hvar, hhdg, hptm, -⟩ := atAdmission_units (op := op) (h := h) (ps := ps) hbusy
  obtain ⟨hdisp, heff, -⟩ := atAdmission_lists (op := op) (h := h) (ps := ps) hbusy
  obtain ⟨hlt, -⟩ := atOnceOps_spec op hop
  have hread := reads_packetOf (op := op) (h := h) (ps := ps) s hlt
    (by rw [hph]; exact Nat.lt_of_le_of_lt hs.length_le (by decide))
  refine ⟨t, ht, fun hno => (hshows.shown hno).1, fun hno => ?_, ?_, ?_, fun h0 => ?_, fun h201 hno => ?_, fun h3 => ?_⟩
  · obtain ⟨hst, hrel, -⟩ := hshows.released hno
    exact ⟨hst, hrel⟩
  · rw [hshows.dispatch, hdone.spares.dispatch, hdisp]
  · rw [hshows.effects, hdone.spares.effects, heff]
  · have hres : res = [] := hdone.nop (hread.op.trans h0)
    cases hno : h.noResult
    · exact (hshows.shown hno).2.trans hres
    · obtain ⟨-, -, hempty⟩ := hshows.released hno
      exact hempty
  · rw [(hshows.shown hno).2, hdone.status (hread.op.trans h201)]
    unfold hdgRead
    rw [hvar, hhdg]
    rfl
  · obtain ⟨hres, hset⟩ := hdone.adjust (hread.op.trans h3)
    rw [hptm] at hres hset
    refine ⟨fun hno => (hshows.shown hno).2.trans hres, ?_⟩
    rw [hshows.ptm, hset, hread.ps]
    refine ⟨rfl, rfl, ?_⟩
    simp only [adjusted, ptIncrement, fld_eq_div_mod, prm, nth, pow_zero, Nat.div_one]

end Sys2Proof.Proofs
end

section
/-! SUPPORT. ACCEPTED for a sync point, with the delay and the curve of a servo move, or for a phase (spec/04 R97, R112, R113,
spec/12 R390). -/

namespace Sys2Proof.Machine

open Sys2Proof.Claims

/-! The report and the effect. -/

/-- The effect of an immediate command that takes place d cycles after c. -/
def delayedEffect (p : Packet) (c : Word) (d : Nat) (cv : Option Nat) (w : Work) : Effect :=
  { effectOf p w with delay := d, curve := cv, time := .at (c + wd d) }

/-- The effect of a phased command. -/
def phasedEffect (p : Packet) (cv : Option Nat) (w : Work) : Effect :=
  { effectOf p w with time := .phase (pPhase p), curve := cv }

/-- What ACCEPTED says in the present cycle. -/
def acceptance (d : Nat) (eff : Option Word) (w : Work) : Report :=
  { status := stAccepted, delay := some d, acc := some w.d.phase.ncc, eff := eff }

theorem acceptance_ne_ok (d : Nat) (eff : Option Word) (w : Work) : (acceptance d eff w).status ≠ stOK := by
  simp [acceptance, stAccepted, stOK]

theorem reportedSlot_acceptance (hdr : Word) (d : Nat) (eff : Option Word) (w : Work) (x : Slot) :
    reportedSlot hdr (acceptance d eff w) x = withReport (acceptance d eff w) x :=
  reportedSlot_shown x (.inr (acceptance_ne_ok d eff w))

/-- A packet's report stands in its slot, and one more effect waits. -/
structure TakenFor (p : Packet) (e : Effect) (r : Report) (w v : Work) : Prop where
  slot : getSlot p.q p.entry v = reportedSlot (pHdr p) r (getSlot p.q p.entry w)
  effects : v.d.cmd.effects = w.d.cmd.effects ++ [e]
  dispatch : v.d.cmd.dispatch = w.d.cmd.dispatch
  genNow : v.d.cmd.genNow = w.d.cmd.genNow

section
variable {p : Packet} {w : Work}

/-- An immediate command that is no TBL_RELOAD takes effect at its bound and its delay. -/
theorem takeImmediate_takenFor (c : Word) (d : Nat) (cv : Option Nat) (h : Reportable p w)
    (ht : tblReload (pOp p) (keptWords p w) = false) :
    let e := delayedEffect p c d cv w
    TakenFor p e (acceptance d (some (effNcc e (c + wd d) w)) w) w (takeImmediate p c d cv w) := by
  intro e
  have hr := report_reported (acceptance d (some (effNcc e (c + wd d) w)) w) h
  have hplaced : placedAt { effectOf p w with delay := d, curve := cv } (c + wd d) w = c + wd d :=
    if_neg (ne_true_of_eq_false ht)
  have htake : takeImmediate p c d cv w = rateFrom e (c + wd d) (restage none (c + wd d) (pOp p) (keptWords p w)
      (addEffect e (report (pRef p) (acceptance d (some (effNcc e (c + wd d) w)) w) w))) := by
    unfold takeImmediate
    dsimp only
    rw [hplaced]
    rfl
  rw [htake]
  generalize report (pRef p) (acceptance d (some (effNcc e (c + wd d) w)) w) w = a at hr
  obtain ⟨l, hl⟩ := rateFrom_frame e (c + wd d) (restage none (c + wd d) (pOp p) (keptWords p w) (addEffect e a))
  rw [hl]
  exact ⟨hr.slot, congrArg (· ++ [e]) hr.effects, hr.dispatch, hr.genNow⟩

theorem takePhased_takenFor (cv : Option Nat) (h : Reportable p w) :
    TakenFor p (phasedEffect p cv w) (acceptance 0 none w) w (takePhased p cv w) := by
  have hr := report_reported (acceptance 0 none w) h
  exact ⟨hr.slot, congrArg (· ++ [_]) hr.effects, hr.dispatch, hr.genNow⟩

end

/-! The placement of a move's curve. -/

theorem egvKeep_spares (p : Packet) (cv : Curve) (t : ℚ) (w : Work) : Spares p w (egvKeep cv t w).2 := by
  have hset (e : EgvSt) (v : Work) : Spares p v { v with d.egv := e } := spares_of_units rfl rfl
  refine (hset _ w).trans (.trans (spares_each _ fun x _ v _ => ?_) (hset _ _))
  exact iteInduction (fun _ => Spares.refl p v) fun _ => wr_spares ..

/-- The governor on, a move that carries no curve is placed without a delay, one that carries a curve with the delay that
egv_place finds. -/
theorem placeMoves_placed (p : Packet) {op d dmax : Nat} {ps : List Word} {hz : Horizon} {e : Option Word} {w : Work}
    (hon : w.d.egv.on = true)
    (h : curvedMove op ps hz w = true ∧ (∃ c, e = some c ∧ egvPlace (curveAt [(op, ps)] c w) c dmax w = .inl d)
      ∨ curvedMove op ps hz w = false ∧ d = 0) :
    ∃ cv u, placeMoves (if curvedMove op ps hz w then [(op, ps)] else []) e dmax w = .inr (d, cv, u) ∧ Spares p w u := by
  rcases h with ⟨hcurve, c, rfl, hplace⟩ | ⟨hcurve, rfl⟩
  · rw [if_pos hcurve]
    refine ⟨some w.d.egv.nextCurve, _, ?_, egvKeep_spares p (curveAt [(op, ps)] c w) (instantOf (c + wd d) w) w⟩
    simp only [placeMoves, List.isEmpty_cons, Bool.false_eq_true, if_false, hon, if_true, hplace]
    rfl
  · rw [hcurve]
    exact ⟨none, w, rfl, Spares.refl p w⟩

/-! The verdict on a move. -/

/-- The moves of servo axes. -/
def moveOps : List Nat := [0x042, 0x043, 0x044, 0x045]

theorem moveOps_spec : ∀ op ∈ moveOps, op < 1024 ∧ op ≠ 0x141 ∧ op ≠ 0x180 ∧ op ≠ 0x081 ∧ stopClass op = false := by
  decide

theorem slowOp_move {op : Nat} (ps : List Word) (h : op ∈ moveOps) : slowOp op ps = false ∧ stepperPlans op ps = 0 := by
  simp only [moveOps, List.mem_cons, List.not_mem_nil, or_false] at h
  rcases h with rfl | rfl | rfl | rfl <;> exact ⟨rfl, rfl⟩

section
variable {p : Packet} {w u : Work} {d : Nat} {cv : Option Nat} (h : pOp p ∈ moveOps) (hr : w.d.egv.rebuild = false)
include h

include hr

theorem admitSingle_move : admitSingle p w = if pPhased p then admitPhased p w else admitImmediate p w := by
  obtain ⟨-, -, -, h081, hstop⟩ := moveOps_spec _ h
  have hnone : admitAtOnce p w = none := by
    unfold admitAtOnce
    generalize pOp p = op at h
    simp only [moveOps, List.mem_cons, List.not_mem_nil, or_false] at h
    rcases h with rfl | rfl | rfl | rfl <;> rfl
  simp [admitSingle, hnone, hstop, h081, hr]

theorem admitSingle_moveImmediate (hp : pPhased p = false) (hroom : generalRoom (pOp p) (pPs p) w = true)
    (hbehind : behind p w = false)
    (hplace : placeMoves (if curvedMove (pOp p) (pPs p) (.at (nccPlus 2 w)) w then [(pOp p, pPs p)] else [])
      (some (nccPlus 2 w)) (slackCycles (pOp p) (pPs p) w) w = .inr (d, cv, u)) :
    admitSingle p w = .take (takeImmediate p (nccPlus 2 w) d cv (takeGeneral (pOp p) (pPs p) u)) := by
  obtain ⟨-, -, h180, -⟩ := moveOps_spec _ h
  have hbound : boundOf (pOp p) (pPs p) w = nccPlus 2 w :=
    boundOf_fast w (slowOp_move (pPs p) h).1 fun e => absurd e h180
  rw [admitSingle_move h hr, hp]
  simp only [Bool.false_eq_true, if_false, admitImmediate, hroom, hbehind, hbound, Bool.not_true, Bool.or_false, hplace]

theorem admitSingle_movePhased (hp : pPhased p = true) (hahead : phaseAhead false (pPhase p) w = true)
    (hroom : clusterRoom (plannerUnits (pOp p) (pPs p)) 0 (pPhase p) w = true)
    (hplace : placeMoves (if curvedMove (pOp p) (pPs p) (.phase (pPhase p)) w then [(pOp p, pPs p)] else [])
      (predictAt false (pPhase p) w) 0 w = .inr (d, cv, u)) : admitSingle p w = .take (takePhased p cv u) := by
  obtain ⟨-, -, h180, -⟩ := moveOps_spec _ h
  obtain ⟨hslow, hplans⟩ := slowOp_move (pPs p) h
  have hreplan : replanUnits (pOp p) (pPs p) w = 0 := by simp [replanUnits, h180]
  rw [admitSingle_move h hr, hp]
  simp only [if_true, admitPhased, hslow, hahead, hreplan, hplans, Nat.add_zero, hroom, Bool.not_true, Bool.false_eq_true,
    if_false, hplace]

end

end Sys2Proof.Machine

namespace Sys2Proof.Claims

open Sys2Proof.Machine

section
variable {c : Instr} {op : Nat} {h : PktHead} {ps : List Word} {s : State}

/-- What the state shows of a packet taken for a time with a delay. -/
structure TakenIn (op : Nat) (h : PktHead) (ps : List Word) (time : When) (d : Nat) (u : Work) (s t : State) : Prop where
  shown : SlotShows op h 0x02 s t
  delay : (slot h.queue h.entry t).delay = d
  effect : EffectAdded op ps time s t
  genNow : t.dev.cmd.genNow = u.d.cmd.genNow

/-- A served packet that is taken for an effect, the units being as u has them at its report. -/
theorem exec_takenFor {u v : Work} {e : Effect} {d : Nat} {eff : Option Word} (hx : exec c s = packet op h ps s)
    (hread : Reads op h ps (packetOf op h ps s)) (hs : Served op h ps s)
    (hv : verdict (packetOf op h ps s) (atAdmission op h ps s) = .take v)
    (ht : TakenFor (packetOf op h ps s) e (acceptance d eff u) u v)
    (hslot : getSlot h.queue h.entry u = getSlot h.queue h.entry (atAdmission op h ps s))
    (hncc : u.d.phase.ncc = s.dev.phase.ncc) (heff : u.d.cmd.effects = s.dev.cmd.effects)
    (he : e.op = op ∧ ps <+: e.ps ∧ e.cmd.id = freshId (begin_ s) ∧ e.bundle = none) :
    Ends c s (TakenIn op h ps e.time d u s) := by
  have hbusy := hs.dispatcherFree
  obtain ⟨hop, hps, hid, hbun⟩ := he
  have hfinal := ht.slot.trans (congrArg (reportedSlot (pHdr (packetOf op h ps s)) (acceptance d eff u)) hslot)
  refine ⟨_, exec_admitted hx hread hs hv, ?_⟩
  constructor
  case shown => exact slotShows_ended hbusy hread hfinal (congrArg some hncc) (.inr (acceptance_ne_ok d eff u)) _
  case delay =>
    rw [slot_ended]
    exact congrArg (·.delay) (hfinal.trans (reportedSlot_acceptance ..))
  case effect => exact ⟨e, (ended_effects _ _).trans (ht.effects.trans (congrArg (· ++ [e]) heff)), hop, hps, rfl, hid, hbun⟩
  case genNow => exact (ended_genNow _ _).trans ht.genNow

section
variable (hr : rowOf c = some (op, h, ps)) (hop : op ∈ moveOps) (hs : Served op h ps s) (hp : Passes op h ps s)
  (ha : Alone h) (hon : s.dev.egv.on = true) (hre : s.dev.egv.rebuild = false)
include hr hop hs hp ha hon hre

/-- An immediate move is ACCEPTED with the delay of its placement, and takes its units. -/
theorem move_taken {d : Nat} (hph : h.phased = false) (hroom : Room op h ps s)
    (hplace : curvedMove op ps (.at (cycleIn 2 s)) (atAdmission op h ps s) = true
        ∧ egvPlace (curveAt [(op, ps)] (cycleIn 2 s) (atAdmission op h ps s)) (cycleIn 2 s)
          (slackCycles op ps (atAdmission op h ps s)) (atAdmission op h ps s) = .inl d
      ∨ curvedMove op ps (.at (cycleIn 2 s)) (atAdmission op h ps s) = false ∧ d = 0) :
    Ends c s fun t => SlotShows op h 0x02 s t ∧ (slot h.queue h.entry t).delay = d
      ∧ EffectAdded op ps (.at (cycleIn 2 s + BitVec.ofNat 36 d)) s t
      ∧ t.dev.cmd.genNow = s.dev.cmd.genNow + plannerUnits op ps := by
  have hbusy := hs.dispatcherFree
  obtain ⟨hlt, h141, h180, -⟩ := moveOps_spec op hop
  have hn : ps.length + h.phased.toNat < 64 := by rw [hph]; exact Nat.lt_of_le_of_lt hs.length_le (by decide)
  have hread := reads_packetOf (op := op) (h := h) (ps := ps) s hlt hn
  obtain ⟨-, -, -, hegv⟩ := atAdmission_units (op := op) (h := h) (ps := ps) hbusy
  obtain ⟨-, heff, -, -, hgen⟩ := atAdmission_lists (op := op) (h := h) (ps := ps) hbusy
  have hat := nccPlus_atAdmission (op := op) (h := h) (ps := ps) hbusy
  rw [← hat] at hplace
  obtain ⟨cv, u, hu, hsp⟩ := placeMoves_placed (packetOf op h ps s) (e := some (nccPlus 2 (atAdmission op h ps s)))
    (by rw [hegv]; exact hon) (hplace.imp_left fun x => ⟨x.1, _, rfl, x.2⟩)
  have hv := (verdict_alone hread h141 hp ha).trans (admitSingle_moveImmediate (by rwa [hread.op]) (by rw [hegv]; exact hre)
    (by rw [hread.phased, hph]) (by rw [hread.op, hread.ps]; exact hroom.1) hroom.2 (by rw [hread.op, hread.ps]; exact hu))
  have hu' := hsp.reportable (reportable_atAdmission hbusy)
  have htake := takeImmediate_takenFor (w := takeGeneral op ps u) (nccPlus 2 (atAdmission op h ps s)) d cv
    ⟨hu'.id, hu'.new, hu'.owns⟩ (tblReload_other _ (by rwa [hread.op]))
  rw [hread.op, hread.ps] at hv
  obtain ⟨t, ht, hin⟩ := exec_takenFor (exec_of_rowOf s hr) hread hs hv htake hsp.slot
    ((congrArg (·.ncc) hsp.phase).trans (atAdmission_ncc hbusy)) (hsp.effects.trans heff)
    ⟨hread.op, hread.isPrefix_keptWords _, rfl, rfl⟩
  refine ⟨t, ht, hin.shown, hin.delay, hat ▸ hin.effect, hin.genNow.trans ?_⟩
  exact congrArg (· + plannerUnits op ps) (hsp.genNow.trans hgen)

/-- A phased move is ACCEPTED for its phase where its curve, if any, fits the predicted cycle. -/
theorem move_takenPhased {d : Nat} (hph : h.phased = true) (hlen : ps.length ≤ 61)
    (hahead : phaseAhead false h.phase (atAdmission op h ps s) = true)
    (hroom : clusterRoom (plannerUnits op ps) 0 h.phase (atAdmission op h ps s) = true)
    (hplace : curvedMove op ps (.phase h.phase) (atAdmission op h ps s) = true
        ∧ (∃ c0, predictAt false h.phase (atAdmission op h ps s) = some c0
          ∧ egvPlace (curveAt [(op, ps)] c0 (atAdmission op h ps s)) c0 0 (atAdmission op h ps s) = .inl d)
      ∨ curvedMove op ps (.phase h.phase) (atAdmission op h ps s) = false ∧ d = 0) :
    Ends c s fun t => SlotShows op h 0x02 s t ∧ EffectAdded op ps (.phase h.phase) s t := by
  have hbusy := hs.dispatcherFree
  obtain ⟨hlt, h141, -⟩ := moveOps_spec op hop
  have hn : ps.length + h.phased.toNat < 64 := by rw [hph]; exact Nat.lt_of_le_of_lt (Nat.succ_le_succ hlen) (by decide)
  have hread := reads_packetOf (op := op) (h := h) (ps := ps) s hlt hn
  have hphase := hread.phase hph
  obtain ⟨-, -, -, hegv⟩ := atAdmission_units (op := op) (h := h) (ps := ps) hbusy
  obtain ⟨-, heff, -⟩ := atAdmission_lists (op := op) (h := h) (ps := ps) hbusy
  obtain ⟨cv, u, hu, hsp⟩ := placeMoves_placed (packetOf op h ps s) (by rw [hegv]; exact hon) hplace
  have hv := (verdict_alone hread h141 hp ha).trans (admitSingle_movePhased (p := packetOf op h ps s) (by rwa [hread.op])
    (by rw [hegv]; exact hre) (by rw [hread.phased, hph]) (by rw [hphase]; exact hahead)
    (by rw [hread.op, hread.ps, hphase]; exact hroom) (by rw [hread.op, hread.ps, hphase]; exact hu))
  have htake := takePhased_takenFor (w := u) cv (hsp.reportable (reportable_atAdmission hbusy))
  obtain ⟨t, ht, hin⟩ := exec_takenFor (exec_of_rowOf s hr) hread hs hv htake hsp.slot
    ((congrArg (·.ncc) hsp.phase).trans (atAdmission_ncc hbusy)) (hsp.effects.trans heff)
    ⟨hread.op, hread.isPrefix_keptWords _, rfl, rfl⟩
  exact ⟨t, ht, hin.shown, hphase ▸ hin.effect⟩

end
end

end Sys2Proof.Claims

namespace Sys2Proof.Proofs

open Sys2Proof.Machine Sys2Proof.Claims

/-- Settles O19: a curve is placed by egv_place alone, at the sync point n + 2 within the slack or at the predicted cycle
without any, and its placement changes nothing the report of the packet reads. -/
theorem moveAccepted : Obligations.MoveAccepted := by
  intro c op d h ps s hr hop hs hp ha hon hre w
  refine ⟨fun hph hroom hplace => ?immediate, fun c0 hph hlen hahead hroom hplace => ?phased⟩
  case immediate => exact move_taken hr hop hs hp ha hon hre hph hroom hplace
  case phased =>
    rcases hplace with ⟨hcurve, hpredict, hplace⟩ | hcurve
    · exact move_takenPhased hr hop hs hp ha hon hre hph hlen hahead hroom (.inl ⟨hcurve, c0, hpredict, hplace⟩)
    · exact move_takenPhased hr hop hs hp ha hon hre hph hlen hahead hroom (.inr ⟨hcurve, rfl⟩)

end Sys2Proof.Proofs
end

section
/-! SUPPORT. The admission of a packet that waits in the dispatch list (spec/03 R61, spec/04 R102, R103). -/

namespace Sys2Proof.Machine

open Sys2Proof.Claims

theorem tryAdmit_refuse {p : Packet} {w : Work} {st det : Nat} (hj : jFull p.q w = false) (hd : decisionCycle w = false)
    (hs : sampleWaits p w = false) (hr : journalRoom p w = true) (hv : verdict p w = .refuse st det) :
    tryAdmit p w = (none, refusePacket p st det w) := by
  simp [tryAdmit, hj, hd, hs, hr, hv]

theorem sharesTaken_dispatch (op : Nat) (ps : List Word) (w : Work) :
    (sharesTaken op ps w).d.cmd.dispatch = w.d.cmd.dispatch := by
  unfold sharesTaken
  split <;> rfl

/-! A packet that belongs to no bundle. -/

section
variable {p : Packet} {w : Work} (hb : ofBundle p = false)
include hb

theorem ofBundle_parts : hInBundle (pHdr p) = false ∧ pOp p ≠ 0x141 := by
  simpa [ofBundle] using hb

theorem verdict_fails {st det : Nat} (hf : packetFails p w = some (st, det)) : verdict p w = .refuse st det := by
  have hd : doomedBy p w = none := by
    unfold doomedBy
    rw [hb]
    split <;> rfl
  simp [verdict, hd, hf]

/-- Its refusal is a report, and for a refused jump of plant time an event. -/
theorem refusePacket_spares (st det : Nat) (w : Work) :
    Spares p (report (pRef p) { status := st, detail := det, acc := some w.d.phase.ncc, member := ofBundle p } w)
      (refusePacket p st det w) := by
  obtain ⟨hm, h141⟩ := ofBundle_parts hb
  unfold refusePacket
  extract_lets w1 _ _ w2
  have h2 : Spares p w1 w2 :=
    iteInduction (fun _ => ((setPtm_spares p _ w1).trans (logEvent_spares ..)).trans (irq_spares ..))
      fun _ => Spares.refl p w1
  split
  · rw [if_neg (by simpa using h141), if_neg (by simp [hm])]
    exact h2
  · exact h2

end

end Sys2Proof.Machine

namespace Sys2Proof.Claims

open Sys2Proof.Machine

/-- The immediate commands of the fast class without planner work. -/
def plainFastOps : List Nat := [0x040, 0x041, 0x048, 0x049]

theorem plainFastOps_spec : ∀ op ∈ plainFastOps, op ∈ laterOps ∧ op ≠ 0x180 ∧ op ≠ 0x100 ∧ op ≠ 0x1C0 := by decide

theorem slowOp_plainFast {op : Nat} (ps : List Word) (h : op ∈ plainFastOps) : slowOp op ps = false := by
  simp only [plainFastOps, List.mem_cons, List.not_mem_nil, or_false] at h
  rcases h with rfl | rfl | rfl | rfl <;> rfl

/-- The units with a packet taken out of the dispatch list. -/
def withoutPacket (i : Nat) (v : Work) : Work :=
  { v with d.cmd.dispatch := v.d.cmd.dispatch.filter (fun x => x.id != i) }

/-- Behind an earlier packet of its queue a waiting packet is not tried. -/
theorem exec_admission_behind {k : Fin 64} {p : Packet} {s : State} (hk : s.dev.cmd.dispatch[k.val]? = some p)
    (hx : ∃ x ∈ s.dev.cmd.dispatch.take k, x.q = p.q) : exec (.admission k) s = .next s := by
  have hany : (s.dev.cmd.dispatch.take k).any (fun x => x.q == p.q) = true := by simpa using hx
  have hsame : admission k (begin_ s) = begin_ s := by
    simp only [admission, begin_d, hk, hany, if_true]
  change run (admission k) s = _
  cases hl : live s
  · exact run_not_live _ s hl
  · rw [run_live _ s hl, hsame, commit_begin]

section
variable {k : Fin 64} {p : Packet} {s : State} (hc : ComesUp k p s)
include hc

theorem ComesUp.reportable : Reportable p (begin_ s) := by
  obtain ⟨-, -, -, hid, howns, hnew, -⟩ := hc
  exact ⟨hid, hnew, howns⟩

/-- A waiting packet whose admission is over leaves the dispatch list. -/
theorem exec_admission_over {v : Work} (hv : tryAdmit p (begin_ s) = (none, v)) :
    exec (.admission k) s = .next (ended s p.id (withoutPacket p.id v)) := by
  obtain ⟨hl, hk, hfirst, -⟩ := hc
  have hany : (s.dev.cmd.dispatch.take k).any (fun x => x.q == p.q) = false := by simpa using hfirst
  change run (admission k) s = _
  rw [run_live _ s hl]
  simp only [admission, begin_d, hk, hany, Bool.false_eq_true, if_false, hv]
  rfl

theorem exec_admission_take {v : Work} (hv : verdict p (begin_ s) = .take v) :
    exec (.admission k) s = .next (ended s p.id (withoutPacket p.id v)) := by
  have hover := exec_admission_over hc (v := v)
  obtain ⟨-, -, -, -, -, -, hj, hd, hsw, hjr⟩ := hc
  exact hover (tryAdmit_take hj hd hsw hjr hv)

theorem exec_admission_refuse {st det : Nat} (hv : verdict p (begin_ s) = .refuse st det) :
    exec (.admission k) s = .next (ended s p.id (withoutPacket p.id (refusePacket p st det (begin_ s)))) := by
  have hover := exec_admission_over hc (v := refusePacket p st det (begin_ s))
  obtain ⟨-, -, -, -, -, -, hj, hd, hsw, hjr⟩ := hc
  exact hover (tryAdmit_refuse hj hd hsw hjr hv)

/-- A waiting packet that fails a check shows it and leaves the list. -/
theorem admission_refused (hb : ofBundle p = false) {st det : Nat} (hf : packetFails p (begin_ s) = some (st, det))
    (h0 : st ≠ 0) : Ends (.admission k) s fun t => (slot p.q p.entry t).status = st ∧ (slot p.q p.entry t).detail = det
      ∧ (slot p.q p.entry t).res = [] ∧ t.dev.cmd.dispatch = s.dev.cmd.dispatch.filter (fun x => x.id != p.id)
      ∧ t.dev.cmd.effects = s.dev.cmd.effects := by
  have hr := report_reported { status := st, detail := det, acc := some s.dev.phase.ncc, member := ofBundle p } hc.reportable
  have hsp := refusePacket_spares hb st det (begin_ s)
  have hslot : slot p.q p.entry (ended s p.id (withoutPacket p.id (refusePacket p st det (begin_ s)))) = withReport
      { status := st, detail := det, acc := some s.dev.phase.ncc, member := ofBundle p } (slot p.q p.entry s) :=
    (slot_ended _ _ _ _).trans ((hsp.slot.trans hr.slot).trans (reportedSlot_shown _ (.inr h0)))
  refine ⟨_, exec_admission_refuse hc (verdict_fails hb hf), ?_, ?_, ?_, ?_, ?_⟩
  · rw [hslot]; rfl
  · rw [hslot]; rfl
  · rw [hslot]; rfl
  · rw [ended_dispatch]
    exact congrArg (List.filter _) (hsp.dispatch.trans hr.dispatch)
  · rw [ended_effects]
    exact hsp.effects.trans hr.effects

/-- A waiting immediate command of the fast class that passes is ACCEPTED for n + 2 and leaves the list. -/
theorem admission_accepted (hb : ofBundle p = false) (hph : pPhased p = false) (hop : pOp p ∈ plainFastOps)
    (hf : packetFails p (begin_ s) = none) (hfault : faultBad (pOp p) (pPs p) (begin_ s) = none)
    (hhold : holdBad (pOp p) (begin_ s) = false) (hroom : generalRoom (pOp p) (pPs p) (begin_ s) = true)
    (hbehind : behind p (begin_ s) = false) :
    Ends (.admission k) s fun t => (slot p.q p.entry t).status = 0x02 ∧ (slot p.q p.entry t).eff = cycleIn 2 s
      ∧ t.dev.cmd.dispatch = s.dev.cmd.dispatch.filter (fun x => x.id != p.id)
      ∧ ∃ e : Effect, t.dev.cmd.effects = s.dev.cmd.effects ++ [e] ∧ e.cmd.id = p.id ∧ e.op = pOp p
          ∧ e.time = .at (cycleIn 2 s) := by
  obtain ⟨hlater, h180, h100, h1C0⟩ := plainFastOps_spec _ hop
  obtain ⟨hm, h141⟩ := ofBundle_parts hb
  have harm : armCheck p (begin_ s) = none := if_pos (by simpa using h1C0)
  have hbound : boundOf (pOp p) (pPs p) (begin_ s) = cycleIn 2 s :=
    boundOf_fast _ (slowOp_plainFast _ hop) fun e => absurd e h180
  have hv := (verdict_single hm h141 hf harm hfault hhold).trans
    (admitSingle_immediate hlater (fun e => absurd e h180) hph (.inr ⟨hroom, hbehind⟩))
  rw [hbound] at hv
  obtain ⟨-, hj, heff, hslot⟩ := sharesTaken_keeps (pOp p) (pPs p) (begin_ s)
  have hdisp := sharesTaken_dispatch (pOp p) (pPs p) (begin_ s)
  have hrep := hc.reportable
  have hu : Reportable p (sharesTaken (pOp p) (pPs p) (begin_ s)) := ⟨hrep.id, hj ▸ hrep.new, (hslot _ _) ▸ hrep.owns⟩
  generalize sharesTaken (pOp p) (pPs p) (begin_ s) = u at hv hu heff hdisp hslot
  have htake := takeImmediate_takenFor (cycleIn 2 s) 0 none hu (tblReload_other _ h180)
  have hshown := (slot_ended (s := s) p.q p.entry p.id (withoutPacket p.id (takeImmediate p (cycleIn 2 s) 0 none u))).trans
    (htake.slot.trans (reportedSlot_acceptance ..))
  refine ⟨_, exec_admission_take hc hv, ?_, ?_, ?_, delayedEffect p (cycleIn 2 s) 0 none u, ?_, rfl, rfl, ?_⟩
  · rw [hshown]; rfl
  · rw [hshown]
    exact (if_neg fun e => h100 (beq_iff_eq.1 e)).trans (BitVec.add_zero _)
  · rw [ended_dispatch]
    exact congrArg (List.filter _) (htake.dispatch.trans hdisp)
  · rw [ended_effects]
    exact htake.effects.trans (congrArg (· ++ [_]) heff)
  · exact congrArg When.at (BitVec.add_zero _)

end

end Sys2Proof.Claims

namespace Sys2Proof.Proofs

open Sys2Proof.Machine Sys2Proof.Claims

/-- Settles O28: the first packet of its queue is tried in its place, and its verdict is that of a packet just dequeued. -/
theorem admissionOfWaitingPacket : Obligations.AdmissionOfWaitingPacket := by
  refine ⟨fun k p s hk hx => exec_admission_behind hk hx, ?refused, ?accepted⟩
  case refused =>
    intro k p st det s hc hb hf h0 _
    exact admission_refused hc hb hf h0
  case accepted =>
    intro k p s hc hb hph hop hf hfault hhold hroom hbehind
    exact admission_accepted hc hb hph hop hf hfault hhold hroom hbehind

end Sys2Proof.Proofs
end

section
/-! SUPPORT. The commands of bundles: a member, BUNDLE_OPEN, BUNDLE_ABORT and BUNDLE_COMMIT (spec/04 R115 to R119, R128). -/

namespace Sys2Proof.Machine

open Sys2Proof.Claims

/-! What failing an effect leaves aside. -/

section
variable {p : Packet}

theorem dropCurve_spares (p : Packet) (e : Effect) (w : Work) : Spares p w (dropCurve e w) := by
  unfold dropCurve
  split <;> exact spares_of_units rfl rfl

theorem ceUndo_spares (p : Packet) (u : CeUndo) (w : Work) : Spares p w (ceUndo u w) :=
  (spares_each _ fun x _ v _ => wr_spares p x.1 x.2 v).trans (spares_of_units rfl rfl)

theorem forgetEarly_spares (p : Packet) (id : Nat) (w : Work) : Spares p w (forgetEarly id w) := spares_of_units rfl rfl

theorem undoEarly_spares (p : Packet) (id : Nat) (w : Work) : Spares p w (undoEarly id w) := by
  unfold undoEarly
  extract_lets w1 w2 w3
  have h1 : Spares p w w1 := spares_each _ fun u _ v _ => ceUndo_spares p u v
  have h2 : Spares p w1 w2 := spares_each _ fun _ _ _ _ => spares_of_units rfl rfl
  have h3 : Spares p w2 w3 := spares_each _ fun _ _ _ _ => spares_of_units rfl rfl
  exact ((h1.trans h2).trans h3).trans (forgetEarly_spares p id w3)

theorem dropXfer_spares (p : Packet) (id : Nat) (w : Work) : Spares p w (dropXfer id w) := by
  refine .trans ?_ (spares_each _ fun _ _ _ _ => spares_of_units rfl rfl)
  exact ⟨rfl, fun hj => hj, rfl, rfl⟩

theorem failEffect_spares {e : Effect} (st det : Nat) {w : Work} (h : Reportable p w) (hne : e.cmd.id ≠ p.id) :
    Spares p w (failEffect e st det w) := by
  have hback := ((dropCurve_spares p e w).trans (undoEarly_spares p e.cmd.id _)).trans (dropXfer_spares p e.cmd.id _)
  exact hback.trans (report_spares _ (hback.reportable h) hne)

/-- The members of a bundle complete without touching another command. -/
theorem failMembers_spares {b : Bundle} (det : Nat) {w : Work} (h : Reportable p w)
    (hne : ∀ e ∈ b.members, e.cmd.id ≠ p.id) : Spares p w (failMembers b det w) :=
  spares_each _ fun e he _ hv => failEffect_spares _ _ (hv.reportable h) (hne e he)

end

/-- No member of a bundle has the next identity. -/
theorem member_ne_freshId {b : Bundle} {w : Work} (hb : b ∈ w.d.cmd.bundles) : ∀ e ∈ b.members, e.cmd.id ≠ freshId w := by
  intro e he
  have hk : e.cmd.id ∈ knownIds w :=
    List.mem_append_right _ (List.mem_flatMap.2 ⟨b, hb, List.mem_cons_of_mem _ (List.mem_map_of_mem he)⟩)
  exact Nat.ne_of_lt ((lt_foldl_max (knownIds w) _).2 _ hk)

theorem mem_of_openBundle {q : Nat} {b : Bundle} {w : Work} (h : openBundle q w = some b) : b ∈ w.d.cmd.bundles :=
  List.mem_of_find?_eq_some h

/-! The verdicts. -/

section
variable {p : Packet} {w : Work} {b : Bundle}

theorem doomedBy_open (ho : openBundle p.q w = some b) (hst : b.state = .open_) : doomedBy p w = none := by
  unfold doomedBy
  simp [ho, hst]

section
variable (ho : openBundle p.q w = some b) (hst : b.state = .open_) (hf : packetFails p w = none) (ha : armCheck p w = none)
  (hx : faultBad (pOp p) (pPs p) w = none) (hh : holdBad (pOp p) w = false)
include ho hst hf ha hx hh

/-- A packet with IN_BUNDLE that passes its checks is tried as a member of the open bundle. -/
theorem verdict_member (hm : hInBundle (pHdr p) = true) : verdict p w = admitMember b p w := by
  unfold verdict
  simp only [doomedBy_open ho hst, hf, ha, hx, hh, hm, ho, Option.map_none, Option.orElse_none, Bool.false_eq_true, if_false]

/-- A BUNDLE_COMMIT that passes its checks is tried on the open bundle. -/
theorem verdict_commit (hm : hInBundle (pHdr p) = false) (hc : pOp p = 0x141) : verdict p w = admitCommit b p w := by
  have hb : (pOp p == 0x141) = true := beq_iff_eq.2 hc
  unfold verdict
  simp only [doomedBy_open ho hst, hf, ha, hx, hh, hm, hb, ho, Option.map_none, Option.orElse_none, Bool.false_eq_true,
    if_false]

end

theorem getSlot_putBundle (q e : Nat) (b : Bundle) (w : Work) : getSlot q e (putBundle b w) = getSlot q e w := rfl

/-- The bundle a BUNDLE_OPEN opens, and the working copy with it. -/
def openedBundle (p : Packet) (w : Work) : Bundle :=
  { id := w.d.cmd.nextBundle, q := p.q, expected := (prm (pPs p) 1).toNat }
def withOpened (p : Packet) (w : Work) : Work :=
  { w with d.cmd.bundles := w.d.cmd.bundles ++ [openedBundle p w], d.cmd.nextBundle := w.d.cmd.nextBundle + 1 }

theorem withOpened_phase (p : Packet) (w : Work) : (withOpened p w).d.phase = w.d.phase := rfl

theorem getSlot_withOpened (q e : Nat) (p : Packet) (w : Work) : getSlot q e (withOpened p w) = getSlot q e w := rfl

theorem withOpened_reportable (h : Reportable p w) : Reportable p (withOpened p w) := ⟨h.id, h.new, h.owns⟩

theorem admitAtOnce_open (hc : pOp p = 0x140) (ho : openBundle p.q w = none) (hfull : commitsFull p.q w = false) :
    admitAtOnce p w = some (.take (finishOk (pRef p) [] (withOpened p w))) := by
  have hv : admitAtOnce p w = some (bundleOpen p w) := by rw [admitAtOnce, hc]; rfl
  rw [hv, bundleOpen, ho, hfull]
  rfl

theorem admitAtOnce_abort (hc : pOp p = 0x142) (ho : openBundle p.q w = some b) :
    admitAtOnce p w = some (.take (finishOk (pRef p) [] (removeBundle b.id (failMembers b 0x03 w)))) := by
  have hv : admitAtOnce p w = some (.take (bundleAbort p w)) := by rw [admitAtOnce, hc]; rfl
  rw [hv, bundleAbort, ho]

/-- A member's ACCEPTED. -/
def memberReport (w : Work) : Report := { status := stAccepted, acc := some w.d.phase.ncc, member := true }

/-- The effect of a bundle's member. -/
def memberEffect (b : Bundle) (p : Packet) (w : Work) : Effect :=
  { effectOf p w with time := .bundle, bundle := some b.id }

theorem admitMember_take (hc : pOp p ≠ 0x081) (hm : memberClash b (pOp p) (pPs p) w = none) :
    admitMember b p w = .take (putBundle { b with members := b.members ++ [memberEffect b p w] }
      (report (pRef p) (memberReport w) w)) := by
  have hb : (pOp p == 0x081) = false := beq_eq_false_iff_ne.2 hc
  unfold admitMember
  simp only [hm, hb, Bool.false_eq_true, if_false]
  rfl

theorem withCurve_none : ∀ {l : List Effect}, (∀ e ∈ l, servoMove e.op = false) → withCurve none l = l
  | [], _ => rfl
  | e :: r, h => by
    rw [withCurve, h e List.mem_cons_self, withCurve_none fun x hx => h x (List.mem_cons_of_mem e hx)]
    rfl

/-- The bundle as a commit makes it. -/
def stagedBundle (b : Bundle) (p : Packet) : Bundle :=
  let u := (b.members.map effUnits).sum
  let plans := (b.members.map effPlans).sum
  { b with
    state := .staging, commit := pRef p, phase := pPhase p, slow := bundleSlow b, unitsLeft := u, plansLeft := plans
    flagsAtSync := 0, flags := stageFlags u plans }

/-- An open bundle without servo moves and node transfers, every condition of R118 and R119 met, is staged. -/
theorem admitCommit_take (hexp : b.expected = b.members.length)
    (hmem : ∀ e ∈ b.members, servoMove e.op = false ∧ memberBytes e = none) (hahead : commitAhead b (pPhase p) w = true)
    (hroom : clusterRoom ((b.members.map effUnits).sum) ((b.members.map effPlans).sum) (pPhase p) w = true)
    (htime : stagingInTime b (pPhase p) ((b.members.map effUnits).sum) w = true) :
    admitCommit b p w = .take (putBundle (stagedBundle b p) (report (pRef p) (memberReport w) w)) := by
  have hmoves : b.members.filter (fun e => curvedMove e.op e.ps (.phase (pPhase p)) w) = [] :=
    List.filter_eq_nil_iff.2 fun e he => by simp [curvedMove, (hmem e he).1]
  have hnone : b.members.filterMap memberBytes = [] := List.filterMap_eq_nil_iff.2 fun e he => (hmem e he).2
  have hbytes (r : Bool) : bundleBytes b r = 0 := by simp [bundleBytes, hnone]
  have hring : bundleRoom b w = true := by simp [bundleRoom, hbytes]
  have hcurve : withCurve none b.members = b.members := withCurve_none fun e he => (hmem e he).1
  have hsend (v : Work) : sendTransfers (stagedBundle b p) v = v :=
    each_keeps (P := fun u => u = v) _ (fun e he u hu => by rw [(hmem e he).2]; exact hu) rfl
  have hcount : (b.expected != 0 && b.expected != b.members.length) = false := by simp [hexp]
  unfold admitCommit
  simp only [hcount, hahead, hroom, hring, hmoves, List.map_nil, List.isEmpty_nil, htime, hcurve, Bool.not_true,
    Bool.false_and, Bool.false_eq_true, if_false, placeMoves, if_true]
  exact congrArg Verdict.take (hsend _)

end

end Sys2Proof.Machine

namespace Sys2Proof.Claims

open Sys2Proof.Machine

section
variable {c : Instr} {op : Nat} {h : PktHead} {ps : List Word} {b : Bundle} {s : State}

theorem bundleOk_lt (h : bundleOk op = true) : op < 1024 ∧ op ≠ 0x141 := by
  simp only [bundleOk, List.contains_eq_mem, decide_eq_true_eq, List.mem_cons, List.not_mem_nil, or_false] at h
  omega

/-- A served packet whose verdict is ACCEPTED and a bundle in its place. -/
theorem exec_bundled {x : Bundle} (hx : exec c s = packet op h ps s) (hread : Reads op h ps (packetOf op h ps s))
    (hs : Served op h ps s) (hv : verdict (packetOf op h ps s) (atAdmission op h ps s) = .take (putBundle x
      (report (pRef (packetOf op h ps s)) (memberReport (atAdmission op h ps s)) (atAdmission op h ps s)))) :
    Ends c s fun t => SlotShows op h 0x02 s t ∧ t.dev.cmd.effects = s.dev.cmd.effects
      ∧ t.dev.cmd.bundles = s.dev.cmd.bundles.map (fun y => if y.id = x.id then x else y) := by
  have hbusy := hs.dispatcherFree
  obtain ⟨-, heff, hbun, -⟩ := atAdmission_lists (op := op) (h := h) (ps := ps) hbusy
  have hr := report_reported (memberReport (atAdmission op h ps s)) (reportable_atAdmission (op := op) (h := h) (ps := ps) hbusy)
  refine ⟨_, exec_admitted hx hread hs hv, ?_, ?_, ?_⟩
  · exact slotShows_ended (r := memberReport (atAdmission op h ps s)) hbusy hread ((getSlot_putBundle ..).trans hr.slot)
      (congrArg some (atAdmission_ncc hbusy)) (.inr (by simp [memberReport, stAccepted, stOK])) _
  · exact (ended_effects _ _).trans (hr.effects.trans heff)
  · rw [ended_bundles, putBundle, hr.bundles, hbun]
    simp only [beq_iff_eq]

/-- A member that passes becomes the last of its queue's open bundle. -/
theorem member_accepted (hr : rowOf c = some (op, h, ps)) (hok : bundleOk op = true) (h081 : op ≠ 0x081)
    (hs : Served op h ps s) (hp : Passes op h ps s) (hin : h.inBundle = true) (hph : h.phased = false)
    (ho : openBundle h.queue (begin_ s) = some b) (hst : b.state = .open_)
    (hclash : memberClash b op ps (atAdmission op h ps s) = none) :
    Ends c s fun t => SlotShows op h 0x02 s t ∧ t.dev.cmd.effects = s.dev.cmd.effects
      ∧ ∃ e : Effect, e.op = op ∧ ps <+: e.ps ∧ e.time = .bundle ∧ e.bundle = some b.id ∧ t.dev.cmd.bundles
          = s.dev.cmd.bundles.map (fun x => if x.id = b.id then { b with members := b.members ++ [e] } else x) := by
  have hbusy := hs.dispatcherFree
  obtain ⟨hlt, h141⟩ := bundleOk_lt hok
  have hread := reads_packetOf (op := op) (h := h) (ps := ps) s hlt
    (by rw [hph]; exact Nat.lt_of_le_of_lt hs.length_le (by decide))
  obtain ⟨hf, harm, hfault, hhold⟩ := hp
  have hv := (verdict_member ((openBundle_atAdmission _ hbusy).trans ho) hst hf harm (by rwa [hread.op, hread.ps])
    (by rwa [hread.op]) (hread.member.trans hin)).trans
    (admitMember_take (by rwa [hread.op]) (by rw [hread.op, hread.ps]; exact hclash))
  obtain ⟨t, ht, hshown, heff, hbun⟩ := exec_bundled (exec_of_rowOf s hr) hread hs hv
  exact ⟨t, ht, hshown, heff, memberEffect b (packetOf op h ps s) (atAdmission op h ps s), hread.op,
    hread.isPrefix_keptWords _, rfl, rfl, hbun⟩

/-- BUNDLE_OPEN in a queue without an open bundle opens one. -/
theorem bundleOpen_opens {n : Option Word} (hs : Served 0x140 h n.toList s) (hp : Passes 0x140 h n.toList s) (ha : Alone h)
    (hph : h.phased = false) (hno : h.noResult = false) (ho : openBundle h.queue (begin_ s) = none)
    (hfull : commitsFull h.queue (atAdmission 0x140 h n.toList s) = false) :
    Ends (.bundleOpen h n) s fun t => SlotShows 0x140 h 0x00 s t ∧ t.dev.cmd.bundles = s.dev.cmd.bundles ++ [{
      id := s.dev.cmd.nextBundle, q := h.queue, expected := (n.getD 0).toNat }] := by
  have hbusy := hs.dispatcherFree
  have hn : n.toList.length + h.phased.toNat < 64 := by rw [hph]; exact Nat.lt_of_le_of_lt hs.length_le (by decide)
  have hread := reads_packetOf (op := 0x140) (h := h) (ps := n.toList) s (by decide) hn
  obtain ⟨-, -, hbun, hnext, -⟩ := atAdmission_lists (op := 0x140) (h := h) (ps := n.toList) hbusy
  have hrep := reportable_atAdmission (op := 0x140) (h := h) (ps := n.toList) hbusy
  have hv := (verdict_alone hread (by decide) hp ha).trans
    (admitSingle_atOnce (admitAtOnce_open hread.op ((openBundle_atAdmission _ hbusy).trans ho) hfull))
  obtain ⟨t, ht, hin⟩ := exec_completed (c := .bundleOpen h n) rfl (by decide) hn hs hv (withOpened_reportable hrep)
    (getSlot_withOpened ..) ((congrArg (·.ncc) (withOpened_phase ..)).trans (atAdmission_ncc hbusy))
  have hopened : openedBundle (packetOf 0x140 h n.toList s) (atAdmission 0x140 h n.toList s)
      = { id := s.dev.cmd.nextBundle, q := h.queue, expected := (n.getD 0).toNat } := by
    rw [openedBundle, hnext, hread.ps]
    cases n <;> rfl
  refine ⟨t, ht, (hin.shown hno).1, ?_⟩
  rw [hin.bundles, ← hopened, ← hbun]
  rfl

/-- BUNDLE_ABORT takes the open bundle away: its members are other commands than the packet's. -/
theorem bundleAbort_removes (hs : Served 0x142 h [] s) (hp : Passes 0x142 h [] s) (ha : Alone h) (hph : h.phased = false)
    (hno : h.noResult = false) (ho : openBundle h.queue (begin_ s) = some b) :
    Ends (.bundleAbort h) s fun t => SlotShows 0x142 h 0x00 s t
      ∧ t.dev.cmd.bundles = s.dev.cmd.bundles.filter (fun x => x.id != b.id) := by
  have hbusy := hs.dispatcherFree
  have hn : ([] : List Word).length + h.phased.toNat < 64 := by rw [hph]; decide
  have hread := reads_packetOf (op := 0x142) (h := h) (ps := []) s (by decide) hn
  obtain ⟨-, -, hbun, -⟩ := atAdmission_lists (op := 0x142) (h := h) (ps := []) hbusy
  have hrep := reportable_atAdmission (op := 0x142) (h := h) (ps := []) hbusy
  have hsp := failMembers_spares 0x03 hrep (member_ne_freshId (mem_of_openBundle ho))
  have hrep' := hsp.reportable hrep
  have hv := (verdict_alone hread (by decide) hp ha).trans
    (admitSingle_atOnce (admitAtOnce_abort hread.op ((openBundle_atAdmission _ hbusy).trans ho)))
  obtain ⟨t, ht, hin⟩ := exec_completed (c := .bundleAbort h) rfl (by decide) hn hs hv ⟨hrep'.id, hrep'.new, hrep'.owns⟩
    hsp.slot ((congrArg (·.ncc) hsp.phase).trans (atAdmission_ncc hbusy))
  exact ⟨t, ht, (hin.shown hno).1, hin.bundles.trans (congrArg (List.filter _) (hsp.bundles.trans hbun))⟩

/-- BUNDLE_COMMIT with every condition met stages the open bundle for its phase. -/
theorem bundleCommit_stages (hs : Served 0x141 h [] s) (hp : Passes 0x141 h [] s) (ha : Alone h) (hph : h.phased = true)
    (ho : openBundle h.queue (begin_ s) = some b) (hst : b.state = .open_) (hexp : b.expected = b.members.length)
    (hmem : ∀ e ∈ b.members, servoMove e.op = false ∧ memberBytes e = none)
    (hahead : commitAhead b h.phase (atAdmission 0x141 h [] s) = true)
    (hroom : clusterRoom ((b.members.map effUnits).sum) ((b.members.map effPlans).sum) h.phase
      (atAdmission 0x141 h [] s) = true)
    (htime : stagingInTime b h.phase ((b.members.map effUnits).sum) (atAdmission 0x141 h [] s) = true) :
    Ends (.bundleCommit h) s fun t => SlotShows 0x141 h 0x02 s t
      ∧ ∃ x ∈ t.dev.cmd.bundles, x.id = b.id ∧ x.state = .staging ∧ x.phase = h.phase ∧ x.members = b.members := by
  have hbusy := hs.dispatcherFree
  have hread := reads_packetOf (op := 0x141) (h := h) (ps := []) s (by decide) (by rw [hph]; decide)
  have hphase := hread.phase hph
  obtain ⟨hf, harm, hfault, hhold⟩ := hp
  have hv := (verdict_commit ((openBundle_atAdmission _ hbusy).trans ho) hst hf harm (by rw [hread.op, hread.ps]; exact hfault)
    (by rw [hread.op]; exact hhold) (hread.member.trans ha) hread.op).trans
    (admitCommit_take hexp hmem (by rw [hphase]; exact hahead) (by rw [hphase]; exact hroom) (by rw [hphase]; exact htime))
  obtain ⟨t, ht, hshown, -, hbun⟩ := exec_bundled (c := .bundleCommit h) rfl hread hs hv
  refine ⟨t, ht, hshown, stagedBundle b (packetOf 0x141 h [] s), ?_, rfl, rfl, hphase, rfl⟩
  rw [hbun]
  exact List.mem_map.2 ⟨b, mem_of_openBundle ho, if_pos rfl⟩

end

end Sys2Proof.Claims

namespace Sys2Proof.Proofs

open Sys2Proof.Machine Sys2Proof.Claims

/-- Settles O21: a member and a commit put one bundle in its place, BUNDLE_OPEN adds one, and BUNDLE_ABORT completes after its
members, whose reports leave its own slot alone. -/
theorem bundleCommandsAccepted : Obligations.BundleCommandsAccepted := by
  refine ⟨?member, ?opens, ?aborts, ?commits⟩
  case member =>
    intro c op h ps b s hr hok h081 hs hp hin hph ho hst hclash
    exact member_accepted hr hok h081 hs hp hin hph ho hst hclash
  case opens =>
    intro h n s hs hp ha hph hno ho hfull
    exact bundleOpen_opens hs hp ha hph hno ho hfull
  case aborts =>
    intro h b s hs hp ha hph hno ho _
    exact bundleAbort_removes hs hp ha hph hno ho
  case commits =>
    intro h b s hs hp ha hph w ho hst hexp hmem hahead hroom htime
    exact bundleCommit_stages hs hp ha hph ho hst hexp hmem hahead hroom htime

end Sys2Proof.Proofs
end

section
/-! SUPPORT. A late result whose fault reaches another axis: raising the fault gives up the commands that name the axis, and what
the engines keep under such a command's identity is taken back on the axis it was kept for (spec/04 R97, spec/06 R216). -/

namespace Sys2Proof.Claims

open Sys2Proof.Machine

/-- Axes 0 and 1 are enabled in the mode in force and neither is ready. A move of axis 0 is admitted, and the early part kept
under its identity is an AXIS_ENABLE of axis 1. -/
def lateWithForeignUndo : State :=
  withDev State.reset { State.reset.dev with
    sys := { State.reset.dev.sys with cycOn := true }
    cmd := { State.reset.dev.cmd with effects := [{ op := 0x042, ps := [0, 0, 0] }] }
    ce := { State.reset.dev.ce with
      order := [0, 1]
      axes := [(0, { enabled := true }), (1, { enabled := true })]
      undo := [{ op := 0x040, axis := 1 }] } }

/-- The result deadline of axis 0 meets what the statement asks for a late result. -/
theorem lateWithForeignUndo_late :
    live lateWithForeignUndo = true ∧ modeOn (begin_ lateWithForeignUndo) = true ∧ 0 ∈ lateWithForeignUndo.dev.ce.order
      ∧ (servo 0 lateWithForeignUndo).ready = none ∧ (servo 0 lateWithForeignUndo).enabled = true
      ∧ (servo 0 lateWithForeignUndo).fcode = 0 := by
  decide

/-- The late result of axis 0 takes the kept AXIS_ENABLE back, which disables axis 1. -/
theorem resultDeadline_disables_other :
    Ends (.resultDeadline 0) lateWithForeignUndo fun t => (servo 1 t).enabled = false :=
  ⟨_, rfl, by decide +kernel⟩

end Sys2Proof.Claims

namespace Sys2Proof.Proofs

open Sys2Proof.Machine Sys2Proof.Claims

/-- Refutes O43: its clause on RESULT_DEADLINE keeps every other axis in every state, and so also where what is kept under the
identity of a command of the late axis concerns another axis; there the fault disables that axis too. -/
theorem not_engineComputes : ¬ Obligations.EngineComputes := by
  rintro ⟨-, -, hresult⟩
  obtain ⟨hlive, hmode, horder, hready, henabled, hfcode⟩ := lateWithForeignUndo_late
  obtain ⟨t, ht, -, -, -, -, -, hothers⟩ := (hresult 0 _ hlive).2 hmode horder hready henabled hfcode
  obtain ⟨t', ht', hoff⟩ := resultDeadline_disables_other
  obtain rfl : t = t' := Host.Outcome.next.inj (ht.symm.trans ht')
  have hkept : servo 1 t = servo 1 lateWithForeignUndo := hothers 1 (by decide)
  rw [hkept] at hoff
  exact absurd hoff (by decide)

end Sys2Proof.Proofs
end

section
/-! SUPPORT. The feedback ports: what a port reads as after a store and after an event, and the levels its filters accept
(spec/09 R293). -/

namespace Sys2Proof.Machine

open Sys2Proof.Claims

/-! Two stores of one entry. -/

theorem tabIns_tabIns {α : Type} (t : Tab α) (j : Nat) (x y : α) : tabIns (tabIns t j x) j y = tabIns t j y := by
  induction t with
  | nil => simp [tabIns]
  | cons e t ih =>
    obtain ⟨k, v⟩ := e
    rcases lt_trichotomy j k with h | rfl | h
    · simp [tabIns, h]
    · simp [tabIns]
    · simp [tabIns, ih, h.not_gt, h.ne']

/-- The later of two stores of one entry stands, neither being of the default. -/
theorem tabSet_tabSet {α : Type} [DecidableEq α] {d x y : α} (t : Tab α) (j : Nat) (hx : x ≠ d) (hy : y ≠ d) :
    tabSet d (tabSet d t j x) j y = tabSet d t j y := by
  simp [tabSet, hx, hy, tabIns_tabIns]

/-! The record of a port. -/

theorem getFp_setFp (k n : Nat) (x : FpPort) (w : Work) : getFp k (setFp n x w) = if k = n then x else getFp k w :=
  tabGet_tabSet _ _ _ _ _

@[simp] theorem getFp_setFp_same (n : Nat) (x : FpPort) (w : Work) : getFp n (setFp n x w) = x :=
  tabGet_tabSet_same _ _ _ _

theorem setFp_setFp {n : Nat} {x y : FpPort} (w : Work) (hx : x ≠ {}) (hy : y ≠ {}) :
    setFp n y (setFp n x w) = setFp n y w := by
  simp only [setFp, tabSet_tabSet _ _ hx hy]

@[simp] theorem getFp_logEvent (k : Nat) (b : Blk) (i c x : Nat) (w : Work) :
    getFp k (logEvent b i c x w) = getFp k w := by
  simp [getFp]

@[simp] theorem getFp_when_logEvent (k : Nat) (p : Bool) (b : Blk) (i c x : Nat) (w : Work) :
    getFp k (when_ p (logEvent b i c x) w) = getFp k w := by
  cases p
  · rfl
  · exact getFp_logEvent k b i c x w

/-- A port that counts edges is in QUAD or COMBINED mode (Table 9.1). -/
theorem fpQuad_iff (x : FpPort) : fpQuad x = true ↔ x.mode = 2 ∨ x.mode = 3 := by
  simp [fpQuad]

/-! HERR (R298). -/

theorem getFp_fpHerr (k n : Nat) (w : Work) :
    getFp k (fpHerr n w) = if k = n then { getFp n w with herr := true } else getFp k w := by
  simp [fpHerr, getFp_setFp]

theorem fpHerr_setFp {n : Nat} {x : FpPort} (w : Work) (hx : x ≠ {}) :
    fpHerr n (setFp n x w) = when_ (!x.herr) (logEvent .fp n 4 0) (setFp n { x with herr := true } w) := by
  have hy : { x with herr := true } ≠ ({} : FpPort) := fun h => by simpa using congrArg FpPort.herr h
  simp [fpHerr, setFp_setFp w hx hy]

/-! The filters (R293) and the Hall sectors (Table 9.2) are those of the rules. -/

theorem fpAccept_eq_taken (filt r : Nat) (was now : Bool) : fpAccept filt r was now = taken filt r was now := rfl

theorem fpAcceptHall_eq_takenHall (filt r1 r2 r3 was now : Nat) :
    fpAcceptHall filt r1 r2 r3 was now = takenHall filt r1 r2 r3 was now := by
  have level (c : Nat) (b : Bool) : (if b = true then c else 0) = c * b.toNat := by cases b <;> simp
  simp only [fpAcceptHall, takenHall, ← fpAccept_eq_taken, level]
  omega

/-- A line that has read its new level in too few samples keeps the one it had. -/
theorem taken_short {filt r : Nat} (h : r ≤ filt) (was now : Bool) : taken filt r was now = was :=
  if_neg (by omega)

theorem taken_long {filt r : Nat} (h : filt < r) (was now : Bool) : taken filt r was now = now :=
  if_pos h

theorem hallSector_eq_sectorOf (h : Nat) : hallSector h = sectorOf h := by
  match h with
  | 0 | 1 | 2 | 3 | 4 | 5 | 6 | 7 => rfl
  | _ + 8 => simp [hallSector, sectorOf]

end Sys2Proof.Machine

namespace Sys2Proof.Claims

open Sys2Proof.Machine

@[simp] theorem port_commit (k : Nat) (s : State) (w : Work) : port k (commit s w) = getFp k w := rfl
@[simp] theorem getFp_begin (k : Nat) (s : State) : getFp k (begin_ s) = port k s := rfl

/-- The event of a port whose record has been stored before it. -/
theorem eventLogged_setFp {n : Fin 8} {c : Nat} (d : Nat) (x : FpPort) {s : State} (hr : logReady s) (hc : c < 65536) :
    EventLogged 12 n c d s (commit s (logEvent .fp n c d (setFp n x (begin_ s)))) :=
  eventLogged_logEvent (s := withPort n x s) .fp d hr (by omega) hc

end Sys2Proof.Claims
end

section
/-! SUPPORT. Counting, the index latch, and the writes of a feedback port (spec/09 R295 to R303, R306). -/

namespace Sys2Proof.Machine

open Sys2Proof.Claims

/-! Counting of edges (R295, R296). -/

theorem fpStep_eq (x : FpPort) (fwd : Bool) : fpStep x fwd = { x with
    cnt := x.cnt + BitVec.ofInt 36 ((if x.dir then -1 else 1) * (if fwd then 1 else -1)) } := by
  have hneg : BitVec.ofInt 36 (-1) = -1 := by decide
  cases hd : x.dir <;> cases fwd <;> simp [fpStep, hd, hneg, BitVec.sub_eq_add_neg]

theorem fpStep_true (x : FpPort) :
    fpStep x true = { x with cnt := x.cnt + BitVec.ofInt 36 (if x.dir then -1 else 1) } := by
  simp [fpStep_eq]

theorem fpStep_false (x : FpPort) :
    fpStep x false = { x with cnt := x.cnt - BitVec.ofInt 36 (if x.dir then -1 else 1) } := by
  simp [fpStep_eq, BitVec.sub_eq_add_neg, BitVec.ofInt_neg]

/-- The port after new levels of A and B that do not both change. -/
def afterEdge (x : FpPort) (a b : Bool) : FpPort :=
  { x with la := a, lb := b, cnt := x.cnt + BitVec.ofInt 36 ((if x.dir then -1 else 1) * quadCount x.la x.lb a b) }

theorem quadEdge_legal {n : Nat} {a b : Bool} {w : Work} (hq : fpQuad (getFp n w) = true)
    (hab : ¬ ((getFp n w).la ≠ a ∧ (getFp n w).lb ≠ b)) :
    quadEdge n a b w = setFp n (afterEdge (getFp n w) a b) w := by
  generalize hx : getFp n w = x at hq hab
  by_cases ha : x.la = a
  · by_cases hb : x.lb = b
    · simp [quadEdge, hx, hq, ha, hb, afterEdge, quadCount]
    · simp [quadEdge, hx, hq, ha, hb, afterEdge, quadCount, fpStep_eq]
  · have hb : x.lb = b := by tauto
    simp [quadEdge, hx, hq, ha, hb, afterEdge, quadCount, fpStep_eq]

/-- The port after an illegal transition at an instant, QILL below its saturation and no port fault. -/
def afterIllegal (now : BitVec 64) (a b : Bool) (x : FpPort) : FpPort :=
  { x with la := a, lb := b, qill := x.qill + 1, qerr := true, ill2 := x.ill1, ill1 := some now }

theorem quadEdge_illegal {n : Nat} {a b : Bool} {w : Work} (hq : fpQuad (getFp n w) = true)
    (ha : (getFp n w).la ≠ a) (hb : (getFp n w).lb ≠ b) (hill : (getFp n w).ill2 = none)
    (hroom : (getFp n w).qill + 1 < 65535) :
    quadEdge n a b w = when_ (!(getFp n w).qerr) (logEvent .fp n 1 0)
      (setFp n (afterIllegal w.d.ptm.frc a b (getFp n w)) w) := by
  have hsat : satInc 0xFFFF (getFp n w).qill = ((getFp n w).qill + 1, false) := by
    simp [satInc, show ¬ 0xFFFF ≤ (getFp n w).qill by omega, show (getFp n w).qill + 1 ≠ 0xFFFF by omega]
  simp [quadEdge, hq, ha, hb, fpIllegal, hsat, hill, afterIllegal, when_]

/-! Hall sectors (R298). -/

/-- In HALL mode the port becomes what R298 says, and an event goes with a rise of HERR. -/
theorem hallChange_hallMode {n : Nat} (h : Nat) {w : Work} (hm : (getFp n w).mode = 1) :
    hallChange n h w = when_ ((afterHall (getFp n w) h).herr != (getFp n w).herr) (logEvent .fp n 4 0)
      (setFp n (afterHall (getFp n w) h) w) := by
  generalize hx : getFp n w = x at hm
  have hhall : (x.mode == 1) = true := by simp [hm]
  have hset {y : FpPort} (hy : y.mode = x.mode) : y ≠ {} := by
    rintro rfl
    simp [hm] at hy
  cases hk : sectorOf h with
  | none =>
    simp only [hallChange, hx, hhall, hallSector_eq_sectorOf, hk, afterHall, if_true, Bool.true_bne]
    exact fpHerr_setFp w (hset rfl)
  | some k =>
    simp only [hallChange, hx, hhall, hallSector_eq_sectorOf, hk, afterHall, if_true, beq_iff_eq]
    by_cases hsame : k = x.sector
    · simp [hsame, when_]
    by_cases hnext : k = (x.sector + 1) % 6
    · simp [hsame, ← hnext, when_, fpStep_true]
    by_cases hprev : (k + 1) % 6 = x.sector
    · simp only [hsame, hnext, hprev, if_true, if_false, fpStep_false, bne_self_eq_false]
      rfl
    · simp only [hsame, hnext, hprev, Ne.symm hprev, if_false, Bool.true_bne]
      exact fpHerr_setFp w (hset rfl)

/-! The index latch (R301, R302). -/

/-- The difference from a multiple of CPR is the one nearest to zero, of two equally near the positive one (R302). -/
theorem indexDiff_eq {l f : Word} {cpr : Nat} {d k : Int} (h : (l - f).toInt = k * cpr + d) (hlo : -(cpr : Int) < 2 * d)
    (hhi : 2 * d ≤ cpr) (hc : 0 < cpr) : indexDiff l f cpr = d := by
  have hm : (2 * (k * cpr + d) + cpr - 1) / (2 * (cpr : Int)) = k := by
    have hsum : 2 * (k * cpr + d) + cpr - 1 = 2 * d + cpr - 1 + k * (2 * cpr) := by ring
    rw [hsum, Int.add_mul_ediv_right _ _ (by omega), Int.ediv_eq_zero_of_lt (by omega) (by omega), zero_add]
  simp [indexDiff, modDiff, h, hm]

/-- The port after a latch of the count at a level of Z. -/
def latched (z : Bool) (x : FpPort) : FpPort := { x with lz := z, idxl := x.cnt, idxNew := true }

theorem indexEdge_noChange (n : Nat) (w : Work) : indexEdge n (getFp n w).lz w = setFp n (getFp n w) w := by
  simp [indexEdge]

/-- An edge of Z that latches: in QUAD or COMBINED mode, at the polarity, and with A and B high where they gate it. -/
structure Latches (z : Bool) (x : FpPort) : Prop where
  quad : fpQuad x = true
  before : x.lz = x.zpol
  edge : z ≠ x.lz
  gate : x.zgate = true → x.la = true ∧ x.lb = true

theorem Latches.edges {z : Bool} {x : FpPort} (h : Latches z x) :
    (fpQuad x && (x.lz != z && z != x.zpol) && (!x.zgate || (x.la && x.lb))) = true := by
  obtain ⟨hq, hb, he, hg⟩ := h
  rw [← hb]
  simpa [hq, he, he.symm, imp_iff_not_or] using hg

section
variable {n : Nat} {z : Bool} {w : Work} (h : Latches z (getFp n w))
include h

theorem indexEdge_first (hf : (getFp n w).needFirst = true) :
    indexEdge n z w = setFp n { latched z (getFp n w) with
      idxf := (getFp n w).cnt, firstOk := true, needFirst := false } w := by
  simp only [indexEdge, h.edges, hf, Bool.not_true, Bool.false_eq_true, if_false, if_true, latched]

theorem indexEdge_uncompared (hf : (getFp n w).needFirst = false) (hc : (getFp n w).cpr = 0) :
    indexEdge n z w = setFp n (latched z (getFp n w)) w := by
  simp only [indexEdge, h.edges, hf, hc, Bool.not_true, Bool.false_eq_true, if_false, beq_self_eq_true,
    if_true, latched]

variable {d : Int} (hf : (getFp n w).needFirst = false) (hc : 0 < (getFp n w).cpr)
  (hd : indexDiff (getFp n w).cnt (getFp n w).idxf (getFp n w).cpr = d)
include hf hc hd

theorem indexEdge_within (hwin : |d| ≤ ((getFp n w).idxWin : Int)) :
    indexEdge n z w = setFp n { latched z (getFp n w) with idxd := BitVec.ofInt 25 d } w := by
  simp only [indexEdge, h.edges, hf, hd, hwin.not_gt, beq_iff_eq, hc.ne', Bool.not_true, Bool.false_eq_true,
    decide_false, if_false, latched]

theorem indexEdge_drift (hwin : ((getFp n w).idxWin : Int) < |d|) :
    indexEdge n z w = logEvent .fp n 3 (wdI d).toNat
      (setFp n { latched z (getFp n w) with idxd := BitVec.ofInt 25 d, drift := true } w) := by
  simp only [indexEdge, h.edges, hf, hd, hwin, beq_iff_eq, hc.ne', Bool.not_true, Bool.false_eq_true, decide_true,
    if_false, if_true, latched]

end

/-! The end of a speed window (R303), and the writes (R299, R300, R306). -/

theorem speedWindowEnd_off {n : Nat} {w : Work} (hm : (getFp n w).mode = 0) : speedWindowEnd n w = w := by
  simp [speedWindowEnd, hm]

theorem speedWindowEnd_on {n : Nat} {w : Work} (hm : (getFp n w).mode ≠ 0) :
    speedWindowEnd n w = setFp n { getFp n w with
      spde := BitVec.ofInt 24 (modDiff (getFp n w).cnt (getFp n w).winBase)
      spd := fRat ((modDiff (getFp n w).cnt (getFp n w).winBase : ℚ) * 100000 / (fpSpw (getFp n w) : ℚ))
      winBase := (getFp n w).cnt } w := by
  simp [speedWindowEnd, hm]

theorem fpCntWrite_off {n : Nat} (v : Word) {w : Work} (hm : (getFp n w).mode = 0) :
    fpCntWrite n v w = setFp n { getFp n w with cnt := v } w := by
  simp [fpCntWrite, hm]

theorem fpCntWrite_on {n : Nat} (v : Word) {w : Work} (hm : (getFp n w).mode ≠ 0) : fpCntWrite n v w = w := by
  simp [fpCntWrite, hm]

/-- The count a port has after a change of mode (R299, R300). -/
def entryCount (old : Nat) (x : FpPort) : Word :=
  if x.mode = 3 ∧ old ≠ 3 then (sectorOf x.hall).elim 0 (fun k => BitVec.ofNat 36 (k * x.hcps)) else x.cnt

/-- A port entered from a mode: the count set, and beside it the speed window, the arming of the latch and the sector. -/
def Entered (old : Nat) (x y : FpPort) : Prop := ∃ b f k i, y =
  { x with cnt := entryCount old x, winBase := b, needFirst := f, sector := k, hallBad := i }

theorem Entered.of_winBase {old : Nat} {x x' y : FpPort} {c : Word} (h : Entered old x' y)
    (hx : x' = { x with winBase := c }) : Entered old x y := by
  subst hx
  exact h

/-- Entry to HALL or COMBINED mode finds the Hall lines invalid (R298, R299). -/
def findsInvalid (old : Nat) (x : FpPort) : Bool :=
  decide ((x.mode = 1 ∨ x.mode = 3) ∧ old ≠ x.mode ∧ sectorOf x.hall = none)

theorem fpEnter_eq (old : Nat) (x : FpPort) : ∃ z, Entered old x z ∧ fpEnter old x = (z, findsInvalid old x) := by
  unfold fpEnter
  extract_lets x1 x2 s x3
  obtain ⟨b, h1⟩ : ∃ b, x1 = { x with winBase := b } := by unfold x1; split <;> exact ⟨_, rfl⟩
  obtain ⟨f, h2⟩ : ∃ f, x2 = { x1 with needFirst := f } := by unfold x2; split <;> exact ⟨_, rfl⟩
  obtain ⟨k, i, h3⟩ : ∃ k i, x3 = { x2 with sector := k, hallBad := i } := by
    unfold x3
    split
    · cases s <;> exact ⟨_, _, rfl⟩
    · exact ⟨_, _, rfl⟩
  have hs : s = sectorOf x.hall := by unfold s; rw [hallSector_eq_sectorOf, h2, h1]
  clear_value x3 s
  subst h3 hs
  rw [h2, h1]
  by_cases hm : x.mode = 3 ∧ old ≠ 3
  · rw [if_pos (by simp [hm])]
    cases hk : sectorOf x.hall with
    | none => exact ⟨_, ⟨0, f, k, i, rfl⟩, by simp [entryCount, findsInvalid, hm, hk]⟩
    | some j => exact ⟨_, ⟨wd (j * x.hcps), f, k, i, rfl⟩, by simp [entryCount, findsInvalid, hm, hk, wd]⟩
  · rw [if_neg (by simpa using hm)]
    refine ⟨_, ⟨b, f, k, i, rfl⟩, Prod.ext (by rw [entryCount, if_neg hm]) ?_⟩
    rw [findsInvalid, Bool.eq_iff_iff]
    simp only [Bool.and_eq_true, beq_iff_eq, bne_iff_ne, Option.isNone_iff_eq_none, decide_eq_true_eq]
    constructor
    · rintro ⟨⟨hm1, hold⟩, hs⟩
      exact ⟨.inl hm1, hm1 ▸ hold, hs⟩
    · rintro ⟨hm1 | hm3, hold, hs⟩
      · exact ⟨⟨hm1, hm1 ▸ hold⟩, hs⟩
      · exact absurd ⟨hm3, hm3 ▸ hold⟩ hm

/-- A write of FPn_CFG finds MODE or DIR held: the port is in use, and the write would change one of them (R306). -/
def cfgHeld (n : Nat) (v : Word) (w : Work) : Bool :=
  fpInUse n w && (decide (v.toNat % 4 ≠ (getFp n w).mode) || decide (v.getLsbD 2 ≠ (getFp n w).dir))

/-- The port with the fields of a word written to FPn_CFG (Table 9.3), MODE and DIR apart where they are held. -/
def cfgTaken (held : Bool) (v : Word) (x : FpPort) : FpPort := { x with
  mode := if held then x.mode else v.toNat % 4, dir := if held then x.dir else v.getLsbD 2
  zpol := v.getLsbD 3, zgate := v.getLsbD 4, fstop := v.getLsbD 5
  filt := v.toNat / 64 % 16, hfilt := v.toNat / 1024 % 256, spw := v.toNat / 262144 % 1024 }

/-- A write of FPn_CFG stores the port with the fields taken, after its change of mode, sets HERR where the Hall lines are
invalid, and logs that fields are held. -/
theorem fpCfgWrite_eq (n : Nat) (v : Word) (w : Work) :
    let x := getFp n w
    let y := cfgTaken (cfgHeld n v w) v x
    ∃ z, Entered x.mode y z ∧ fpCfgWrite n v w =
      when_ (cfgHeld n v w) (logEvent .fp n 5 0) (when_ (findsInvalid x.mode y) (fpHerr n) (setFp n z w)) := by
  intro x y
  unfold fpCfgWrite
  extract_lets busy mode dir blocked y0 y1
  have hheld : blocked = cfgHeld n v w := by
    simp [blocked, busy, mode, dir, cfgHeld, fld_eq_div_mod, bit, bne, beq_eq_decide, x]
  have h0 : y0 = y := by simp [y0, hheld, y, cfgTaken, mode, dir, fld_eq_div_mod, bit]
  obtain ⟨c, h1⟩ : ∃ c, y1 = { y with winBase := c } := by unfold y1; rw [h0]; split <;> exact ⟨_, rfl⟩
  obtain ⟨z, hz, he⟩ := fpEnter_eq x.mode y1
  refine ⟨z, hz.of_winBase h1, ?_⟩
  rw [he, hheld, h1]
  rfl

/-- The ports after HERR is set, or is not, where one has been stored. -/
theorem getFp_when_fpHerr (k n : Nat) (p : Bool) (y : FpPort) (w : Work) :
    getFp k (when_ p (fpHerr n) (setFp n y w)) = if k = n then { y with herr := y.herr || p } else getFp k w := by
  cases p
  · simp [when_, getFp_setFp]
  · simp only [when_, if_true, getFp_fpHerr, getFp_setFp, Bool.or_true]
    split <;> rfl

end Sys2Proof.Machine

namespace Sys2Proof.Claims

open Sys2Proof.Machine

/-! The commands on a running device. -/

section
variable {s : State} (hl : live s = true) (n : Fin 8)
include hl

theorem exec_quadEdge (a b : LineRun) : exec (.quadEdge n a b) s = .next (commit s
    (quadEdge n (taken (port n s).filt a.samples (port n s).la a.level)
      (taken (port n s).filt b.samples (port n s).lb b.level) (begin_ s))) :=
  run_live _ s hl

theorem exec_hallChange (h : HallRun) : exec (.hallChange n h) s = .next (commit s
    (let k := takenHall (port n s).hfilt h.r1 h.r2 h.r3 (port n s).hall h.lines
     if k = (port n s).hall then begin_ s else hallChange n k (begin_ s))) := by
  simp only [← fpAcceptHall_eq_takenHall, ← beq_iff_eq (α := Nat)]
  exact run_live _ s hl

theorem exec_indexEdge (z : LineRun) : exec (.indexEdge n z) s = .next (commit s
    (indexEdge n (taken (port n s).filt z.samples (port n s).lz z.level) (begin_ s))) :=
  run_live _ s hl

end

end Sys2Proof.Claims

namespace Sys2Proof.Proofs

open Sys2Proof.Machine Sys2Proof.Claims

/-- Settles O10: levels that do not both change store the count of R295; when both change the transition is illegal, and an
event goes with a rise of QERR. -/
theorem quadratureEdge : Obligations.QuadratureEdge := by
  refine ⟨fun n a b ra rb s hl => ?legal, fun n a b ra rb s hl => ?illegal⟩
  case legal =>
    intro x a' b' hm hab
    rw [exec_quadEdge hl, quadEdge_legal (w := begin_ s) ((fpQuad_iff _).2 hm) hab]
    rfl
  case illegal =>
    intro x hm ha hb hill hq
    refine ⟨_, exec_quadEdge hl n _ _, ?_⟩
    rw [quadEdge_illegal (w := begin_ s) ((fpQuad_iff _).2 hm) ha hb hill hq]
    simp only [port_commit, getFp_when_logEvent, getFp_setFp_same]
    refine ⟨rfl, rfl, rfl, rfl, fun k hk => ?_, fun herr => ?_, fun herr hr => ?_⟩
    · rw [getFp_setFp, if_neg hk, getFp_begin]
    · rw [getFp_begin, herr]
      exact fun _ => rfl
    · rw [getFp_begin, herr]
      exact eventLogged_setFp 0 _ hr (by decide)

/-- Settles O11: levels the filters discard change nothing, and accepted ones leave what R298 says, with an event where
HERR rises. -/
theorem hallCount : Obligations.HallCount := by
  intro n h r1 r2 r3 s hl x h' y
  refine ⟨fun hsame => ?same, fun hnew hm _ => ?changed⟩
  case same => rw [exec_hallChange hl, if_pos hsame, commit_begin]
  case changed =>
    have hexec : exec (.hallChange n ⟨h, r1, r2, r3⟩) s = .next (commit s
        (when_ (y.herr != x.herr) (logEvent .fp n 4 0) (setFp n y (begin_ s)))) := by
      rw [exec_hallChange hl, if_neg hnew, hallChange_hallMode (w := begin_ s) _ hm]
      rfl
    refine ⟨fun herr => ?_, fun herr hr => ⟨_, hexec, ?_, fun k hk => ?_, ?_⟩⟩
    · rw [hexec, herr, bne_self_eq_false]
      rfl
    · rw [port_commit, getFp_when_logEvent, getFp_setFp_same]
    · rw [port_commit, getFp_when_logEvent, getFp_setFp, if_neg hk, getFp_begin]
    · rw [bne_iff_ne.2 herr]
      exact eventLogged_setFp 0 y hr (by decide)

/-- Settles O12: a discarded excursion stores the port as it is; an edge that latches is the first, is not compared, or lies
within the window or outside it. -/
theorem indexLatch : Obligations.IndexLatch := by
  intro n z r s hl x
  refine ⟨fun hr => ?short, fun hr hm hb he hg => ?edge⟩
  case short =>
    rw [exec_indexEdge hl, taken_short hr]
    exact congrArg (fun w => Host.Outcome.next (commit s w)) (indexEdge_noChange n (begin_ s))
  case edge =>
    have hlatch : Latches z (getFp n (begin_ s)) := ⟨(fpQuad_iff _).2 hm, hb, he, hg⟩
    have hexec : exec (.indexEdge n ⟨z, r⟩) s = .next (commit s (indexEdge n z (begin_ s))) := by
      rw [exec_indexEdge hl, taken_long hr]
    refine ⟨fun hf => ?_, fun hf hc => ?_, fun d k hf hd hlo hhi hc => ⟨fun hwin => ?_, fun hwin => ?_⟩⟩
    · rw [hexec, indexEdge_first hlatch hf]
      rfl
    · rw [hexec, indexEdge_uncompared hlatch hf hc]
      rfl
    · rw [hexec, indexEdge_within hlatch hf hc (indexDiff_eq hd hlo hhi hc) hwin]
      rfl
    · refine ⟨_, hexec, ?_⟩
      rw [indexEdge_drift hlatch hf hc (indexDiff_eq hd hlo hhi hc) hwin]
      simp only [port_commit, getFp_logEvent, getFp_setFp_same]
      exact ⟨rfl, fun hready => eventLogged_setFp _ _ hready (by decide)⟩

/-- Settles O13: the end of a window and the writes of CNT and IDX_REARM are plain stores; a write of FPn_CFG is taken apart
into the fields taken, the change of mode and HERR. -/
theorem portRegisterWrites : Obligations.PortRegisterWrites := by
  refine ⟨⟨fun n s hl => ?window, fun n v s hl => ?count, fun n s hl => ?rearm⟩, fun n v s hl => ?config⟩
  case window =>
    intro x net
    refine (run_live (speedWindowEnd n) s hl).trans (congrArg _ ?_)
    by_cases hm : x.mode = 0
    · rw [if_pos hm, speedWindowEnd_off (w := begin_ s) hm, commit_begin]
    · rw [if_neg hm, speedWindowEnd_on (w := begin_ s) hm]
      rfl
  case count =>
    refine (run_live (fpCntWrite n v) s hl).trans (congrArg _ ?_)
    by_cases hm : (port n s).mode = 0
    · rw [if_pos hm, fpCntWrite_off (w := begin_ s) v hm]
      rfl
    · rw [if_neg hm, fpCntWrite_on (w := begin_ s) v hm, commit_begin]
  case rearm => exact run_live (fpRearm n) s hl
  case config =>
    intro x m busy m'
    refine ends_run rfl hl ?_
    obtain ⟨z, ⟨b, f, k, i, rfl⟩, hw⟩ := fpCfgWrite_eq n v (begin_ s)
    rw [hw]
    simp only [port_commit, getFp_when_logEvent, getFp_when_fpHerr, if_true]
    refine ⟨rfl, rfl, rfl, rfl, rfl, rfl, rfl, rfl, ?_, fun hm hold hs => ?_, fun k hk => ?_⟩
    · change (if m' = 3 ∧ x.mode ≠ 3 then (sectorOf x.hall).elim 0 (fun k => BitVec.ofNat 36 (k * x.hcps)) else x.cnt) = _
      cases sectorOf x.hall <;> rfl
    · exact Bool.or_eq_true_iff.2 (.inr (decide_eq_true ⟨hm, hold, hs⟩))
    · rw [if_neg hk, getFp_begin]

end Sys2Proof.Proofs
end

section
/-! SUPPORT. A break on one ring in the cycle that decides a switch which makes the other ring whole: the heal displaces the switch,
and the UNLOOP transfers that wait on the other ring are not sent (spec/01 R31, spec/11 R365, R373, R375). -/

namespace Sys2Proof.Claims

open Sys2Proof.Machine

/-- Ring B as mode 2 runs it, a line between its two nodes, both of which acknowledge the proposal; these transfers wait for an
ACYC frame. -/
def lineB (xs : List AXfer) : RingSt :=
  { line := true, loopE := 1, loopW := 2, byPos := [(5, false), (6, false)], acyc := xs
    nodes := [(5, { pos := 1, present := true, acked := true }), (6, { pos := 2, present := true, acked := true })] }

/-- In RUN, mode 2 is in force with ring A whole, and mode 0 is proposed for cycle 2, the next but one. A break of ring A
heals to mode 3. -/
def switchProposed : State :=
  withDev State.reset { State.reset.dev with
    sys := { State.reset.dev.sys with st := .run, cycOn := true, mode := 2 }
    dq := [(1, lineB [])]
    trl := { State.reset.dev.trl with
      img := some { useA := true, useB := true }
      modes := [(0, { valid := true, hsrc := true }), (2, { valid := true, hsrc := true }), (3, { valid := true })]
      prop := some { mode := 0, n := 2 } } }

/-- The same with the switch agreed: the two UNLOOP transfers of ring B wait for cycle 1. -/
def switchAgreed : State :=
  withDev switchProposed { switchProposed.dev with
    phase := { switchProposed.dev.phase with rateNext := some (2, 0) }
    dq := [(1, lineB [{ dst := 5, svc := 7, arg := 17, cyc := some 1 },
      { pathW := true, dst := 6, svc := 7, arg := 1, cyc := some 1 }])]
    trl := { switchProposed.dev.trl with prop := some { mode := 0, n := 2, agreed := true } } }

/-- PROPOSAL_DECISION leads to the agreed switch. -/
theorem exec_proposalDecision_switchProposed : exec .proposalDecision switchProposed = .next switchAgreed := by
  rfl

/-- The return timeout of ring A in that cycle meets what the statement asks for a break. -/
theorem switchAgreed_breaks :
    live switchAgreed = true ∧ ringSends false (begin_ switchAgreed) = true ∧ (ring false switchAgreed).line = false
      ∧ (ring false switchAgreed).gatherBack = false ∧ ringsLive switchAgreed ∧ switchAgreed.dev.trl.builtIn = false
      ∧ (ring false switchAgreed).broken = false := by
  unfold ringsLive
  decide

/-- The break of ring A takes the UNLOOP transfers of ring B back. -/
theorem gatherReturnTimeout_drops_unloop :
    Ends (.gatherReturnTimeout false) switchAgreed fun t => (ring true t).acyc = [] :=
  ⟨_, rfl, by decide +kernel⟩

end Sys2Proof.Claims

namespace Sys2Proof.Proofs

open Sys2Proof.Machine Sys2Proof.Claims

/-- Refutes O46: its clause on a break keeps the other ring in every state, and so also in the cycle that agrees a switch
which makes that ring whole; there the heal displaces the switch and takes the ring's UNLOOP transfers back. -/
theorem not_ringPortsAndBreaks : ¬ Obligations.RingPortsAndBreaks := by
  rintro ⟨-, hbreak⟩
  obtain ⟨hlive, hsends, hwhole, hout, hstate, hsched, hsound⟩ := switchAgreed_breaks
  obtain ⟨t, ht, -, hother, -⟩ := (hbreak false _ hlive).2 hsends hwhole hout hstate hsched hsound
  obtain ⟨t', ht', hdropped⟩ := gatherReturnTimeout_drops_unloop
  obtain rfl : t = t' := Host.Outcome.next.inj (ht.symm.trans ht')
  have hkept : ring true t = ring true switchAgreed := hother
  rw [hkept] at hdropped
  exact absurd hdropped (by decide)

end Sys2Proof.Proofs
end

section
/-! SUPPORT. A damaged frame on a phase link of a device that sends its interrupts to the host: the event it logs asserts source 5,
whose MSI-X message leaves after the link's own frame (spec/08 R278, spec/03 R93, spec/20 R597, R598). -/

namespace Sys2Proof.Claims

open Sys2Proof.Machine

/-- MSI-X is on, and the vector of the event log is enabled and not masked. -/
def eventLogInterrupts : State :=
  withDev State.reset { State.reset.dev with
    hif := { State.reset.dev.hif with msixEn := true, ienp := 0x20, vecMask := 0 } }

/-- The frame 1 on channel 0 meets what the statement asks for a wrong check value. -/
theorem eventLogInterrupts_wrongCheck :
    live eventLogInterrupts = true ∧ phaseCrc 1 ≠ (1 : BitVec 48).toNat % 256
      ∧ tabGet 0 eventLogInterrupts.dev.stp.crcRun 0 < 2 := by
  decide +kernel

/-- The last message of that command is the interrupt of the event log. -/
theorem phaseLinkFrame_interrupts :
    Ends (.phaseLinkFrame 0 1) eventLogInterrupts fun t => t.dev.out.getLast? = some (.msix 5) :=
  ⟨_, rfl, by decide +kernel⟩

end Sys2Proof.Claims

namespace Sys2Proof.Proofs

open Sys2Proof.Machine Sys2Proof.Claims

/-- Refutes O48: its clause on a wrong check value lets the command send its one phase link frame alone in every state, and so
also where the event that reports the error is itself announced to the host by a message. -/
theorem not_transfersAndPhaseLinks : ¬ Obligations.TransfersAndPhaseLinks := by
  rintro ⟨-, -, hlink⟩
  obtain ⟨hlive, hcheck, hrun⟩ := eventLogInterrupts_wrongCheck
  obtain ⟨t, ht, ⟨f, hsent, -⟩, -⟩ := (hlink 0 1 _ hlive).1 hcheck hrun
  obtain ⟨t', ht', hlast⟩ := phaseLinkFrame_interrupts
  obtain rfl : t = t' := Host.Outcome.next.inj (ht.symm.trans ht')
  rw [hsent, List.getLast?_concat] at hlast
  exact absurd hlast (by simp)

end Sys2Proof.Proofs
end

section
/-! SUPPORT. The end of the listening time of a unit that already transmits under the built-in schedule: it stops at its next
sync point and not before (spec/11 R377, Table 11.9). -/

namespace Sys2Proof.Claims

open Sys2Proof.Machine

/-- Unit 5 in DISCOVER, listening while the built-in schedule is in force. -/
def listeningTransmitter : State :=
  withDev State.reset { State.reset.dev with
    sys := { State.reset.dev.sys with st := .discover }
    trl := { State.reset.dev.trl with listening := true, builtIn := true }
    boot := { State.reset.dev.boot with unitId := 5 } }

/-- It meets what the statement asks of a unit whose listening time ends, and unit 4 is lower. -/
theorem listeningTransmitter_listens :
    live listeningTransmitter = true ∧ listeningTransmitter.dev.sys.st = .discover
      ∧ listeningTransmitter.dev.trl.listening = true ∧ (4 : Fin 16).val < listeningTransmitter.dev.boot.unitId := by
  decide

/-- The lower unit makes it note the stop; the schedule goes on. -/
theorem discoverListenEnd_keepsSchedule :
    Ends (.discoverListenEnd (some 4)) listeningTransmitter fun t => t.dev.trl.builtIn = true :=
  ⟨_, rfl, by decide⟩

end Sys2Proof.Claims

namespace Sys2Proof.Proofs

open Sys2Proof.Machine Sys2Proof.Claims

/-- Refutes O50: its clause on a lower UNIT_ID makes the unit a standby without a schedule at once in every state that listens,
and so also where the unit transmits already; there it stops at its next sync point. -/
theorem not_discoverAndDomains : ¬ Obligations.DiscoverAndDomains := by
  rintro ⟨hlisten, -⟩
  obtain ⟨hlive, hst, hlistening, hlower⟩ := listeningTransmitter_listens
  obtain ⟨t, ht, -, -, hstandby, -⟩ := (hlisten (some 4) _ hlive).2 hst hlistening
  obtain ⟨-, hended, -⟩ := hstandby 4 rfl hlower
  obtain ⟨t', ht', hruns⟩ := discoverListenEnd_keepsSchedule
  obtain rfl : t = t' := Host.Outcome.next.inj (ht.symm.trans ht')
  rw [hruns] at hended
  exact absurd hended (by decide)

end Sys2Proof.Proofs
end

section
/-! SUPPORT. The rings of the working copy, and what the report of any command leaves alone (spec/03 R83 to R93). -/

namespace Sys2Proof.Machine

open Sys2Proof.Claims

/-! Rings. -/

theorem getR_setR (b c : Bool) (x : RingSt) (w : Work) : getR b (setR c x w) = if b = c then x else getR b w := by
  have hk : ringKey b = ringKey c ↔ b = c := by cases b <;> cases c <;> decide
  rw [getR, setR, tabGet_tabSet]
  simp only [hk]
  rfl

theorem getR_modR (b c : Bool) (f : RingSt → RingSt) (w : Work) :
    getR b (modR c f w) = if b = c then f (getR c w) else getR b w := getR_setR b c _ w

@[simp] theorem getR_modR_same (b : Bool) (f : RingSt → RingSt) (w : Work) : getR b (modR b f w) = f (getR b w) :=
  (getR_modR b b f w).trans (if_pos rfl)

@[simp] theorem getR_modR_not (b : Bool) (f : RingSt → RingSt) (w : Work) : getR (!b) (modR b f w) = getR (!b) w :=
  (getR_modR (!b) b f w).trans (if_neg (by cases b <;> decide))

@[simp] theorem getR_send (b : Bool) (m : OutMsg) (w : Work) : getR b (send m w) = getR b w := rfl
@[simp] theorem getR_grf (b : Bool) (g : GrfSt) (w : Work) : getR b { w with d.grf := g } = getR b w := rfl

@[simp] theorem ring_commit (b : Bool) (s : State) (w : Work) : ring b (commit s w) = getR b w := rfl
@[simp] theorem getR_begin (b : Bool) (s : State) : getR b (begin_ s) = ring b s := rfl

/-- Without effects on the memory every word reads as before. -/
theorem sameMemory_commit {s : State} {w : Work} (h : w.ops = []) : SameMemory s (commit s w) := fun a => by
  rw [commit_mem, h]
  rfl

theorem bitsOf_eq (v : Word) (lo n : Nat) : bitsOf v lo n = fld v lo n := (fld_eq_div_mod v lo n).symm

/-! Reports. -/

/-- Only what a report changes has changed: slots and journal, the event log, the words that show them, interrupts and
messages. -/
def Records (w v : Work) : Prop :=
  v = { w with
    ops := v.ops, d.mem.ecc := v.d.mem.ecc, d.mem.pageCrc := v.d.mem.pageCrc
    d.cmd.queues := v.d.cmd.queues, d.cmd.journal := v.d.cmd.journal
    d.cmd.evWr := v.d.cmd.evWr, d.cmd.evRd := v.d.cmd.evRd, d.cmd.evOvr := v.d.cmd.evOvr
    d.hif := v.d.hif, d.out := v.d.out, d.freeCtr := v.d.freeCtr }

section
variable {u v w : Work}

theorem Records.refl (w : Work) : Records w w := rfl

theorem Records.trans (h : Records w u) (k : Records u v) : Records w v :=
  Eq.trans k (congrArg (fun x : Work => { x with
    ops := v.ops, d.mem.ecc := v.d.mem.ecc, d.mem.pageCrc := v.d.mem.pageCrc
    d.cmd.queues := v.d.cmd.queues, d.cmd.journal := v.d.cmd.journal
    d.cmd.evWr := v.d.cmd.evWr, d.cmd.evRd := v.d.cmd.evRd, d.cmd.evOvr := v.d.cmd.evOvr
    d.hif := v.d.hif, d.out := v.d.out, d.freeCtr := v.d.freeCtr }) h)

theorem Records.phase (h : Records w v) : v.d.phase = w.d.phase := congrArg (·.d.phase) h
theorem Records.sys (h : Records w v) : v.d.sys = w.d.sys := congrArg (·.d.sys) h
theorem Records.dq (h : Records w v) : v.d.dq = w.d.dq := congrArg (·.d.dq) h
theorem Records.hdg (h : Records w v) : v.d.hdg = w.d.hdg := congrArg (·.d.hdg) h
theorem Records.xfers (h : Records w v) : v.d.cmd.xfers = w.d.cmd.xfers := congrArg (·.d.cmd.xfers) h

end

theorem putJournal_records (c : CmdRef) (f : JEntry → JEntry) (w : Work) : Records w (putJournal c f w) := by
  obtain ⟨_, _, _, _, h⟩ := putJournal_frame c f w
  rw [h]
  rfl

theorem putSlot_records (q e : Nat) (x : Slot) (w : Work) : Records w (putSlot q e x w) := by
  obtain ⟨_, _, _, _, h⟩ := putSlot_frame q e x w
  rw [h]
  rfl

theorem irq_records (i : Nat) (w : Work) : Records w (irq i w) := by
  obtain ⟨_, _, h⟩ := irq_frame i w
  rw [h]
  rfl

theorem logEvent_records (b : Blk) (i c x : Nat) (w : Work) : Records w (logEvent b i c x w) := by
  obtain ⟨_, _, _, _, _, _, _, _, _, h⟩ := logEvent_frame b i c x w
  rw [h]
  rfl

theorem report_records (c : CmdRef) (r : Report) (w : Work) : Records w (report c r w) := by
  unfold report
  extract_lets old w1 x x1 fin x2 w2
  have h1 : Records w w1 := putJournal_records ..
  have h2 : Records w w2 := h1.trans (putSlot_records ..)
  refine iteInduction (fun _ => .refl w) fun _ => iteInduction (fun _ => .refl w) fun _ => ?_
  refine iteInduction (fun _ => ?own) fun _ => ?late
  case own => exact iteInduction (fun _ => h2.trans (irq_records ..)) fun _ => h2
  case late => exact iteInduction (fun _ => h1.trans (logEvent_records ..)) fun _ => h1

end Sys2Proof.Machine
end

section
/-! SUPPORT. The departure of a frame: filling its blocks leaves the cycle and the frames sent as they are, also where a late result
raises a fault, and the frame is kept until it returns (spec/11 R351, R352, R358). -/

namespace Sys2Proof.Machine

open Sys2Proof.Claims

/-! What the filling of a frame leaves. -/

/-- The phase, and the frames that each ring has sent, are as before. -/
structure SentStays (w v : Work) : Prop where
  phase : v.d.phase = w.d.phase
  sent : ∀ b, (getR b v).sent = (getR b w).sent

section
variable {u v w : Work}

theorem SentStays.refl (w : Work) : SentStays w w := ⟨rfl, fun _ => rfl⟩

theorem SentStays.trans (h : SentStays w u) (k : SentStays u v) : SentStays w v :=
  ⟨k.phase.trans h.phase, fun b => (k.sent b).trans (h.sent b)⟩

theorem sentStays_of_units (hp : v.d.phase = w.d.phase) (hd : v.d.dq = w.d.dq) : SentStays w v :=
  ⟨hp, fun b => by rw [getR, hd]; rfl⟩

theorem Records.sentStays (h : Records w v) : SentStays w v := sentStays_of_units h.phase h.dq

theorem sentStays_each {α : Type} {f : α → Work → Work} (l : List α) (h : ∀ a v, SentStays v (f a v)) (w : Work) :
    SentStays w (each l f w) := each_keeps l (fun a _ v hv => hv.trans (h a v)) (.refl w)

end

theorem setR_sentStays {b : Bool} {x : RingSt} {w : Work} (h : x.sent = (getR b w).sent) : SentStays w (setR b x w) := by
  refine ⟨rfl, fun c => ?_⟩
  rw [getR_setR]
  split
  · next hc => rw [h, hc]
  · rfl

theorem modR_sentStays (b : Bool) {f : RingSt → RingSt} (hf : ∀ r, (f r).sent = r.sent) (w : Work) :
    SentStays w (modR b f w) := setR_sentStays (hf _)

theorem wr_sentStays (a : Nat) (x : Word) (w : Work) : SentStays w (wr a x w) := by
  obtain ⟨_, _, _, h⟩ := wr_frame a x w
  rw [h]
  exact sentStays_of_units rfl rfl

/-! A command given up by an axis fault (spec/04 R97, R125, spec/06 R216). -/

theorem dropCurve_sentStays (e : Effect) (w : Work) : SentStays w (dropCurve e w) := by
  unfold dropCurve
  split <;> exact sentStays_of_units rfl rfl

theorem undoEarly_sentStays (id : Nat) (w : Work) : SentStays w (undoEarly id w) := by
  have hce (u : CeUndo) (v : Work) : SentStays v (ceUndo u v) :=
    (sentStays_each u.words (fun p v => wr_sentStays p.1 p.2 v) v).trans (sentStays_of_units rfl rfl)
  unfold undoEarly
  extract_lets w1 w2 w3
  have h1 : SentStays w w1 := sentStays_each _ hce w
  have h2 : SentStays w1 w2 := by
    refine sentStays_each _ (fun u v => ?_) w1
    exact sentStays_of_units rfl rfl
  have h3 : SentStays w2 w3 := by
    refine sentStays_each _ (fun u v => ?_) w2
    exact sentStays_of_units rfl rfl
  refine ((h1.trans h2).trans h3).trans ?_
  clear_value w3
  exact sentStays_of_units rfl rfl

theorem dropXfer_sentStays (id : Nat) (w : Work) : SentStays w (dropXfer id w) := by
  have h1 : SentStays w { w with d.cmd.xfers := w.d.cmd.xfers.filter (fun x => x.cmd.id != id) } :=
    sentStays_of_units rfl rfl
  refine h1.trans (sentStays_each _ (fun x v => ?_) _)
  refine modR_sentStays x.ringB (fun r => ?_) v
  rfl

theorem failEffect_sentStays (e : Effect) (st det : Nat) (w : Work) : SentStays w (failEffect e st det w) :=
  ((dropCurve_sentStays e w).trans (undoEarly_sentStays _ _)).trans
    ((dropXfer_sentStays _ _).trans (report_records ..).sentStays)

theorem bundleFault_sentStays (kind a code : Nat) (b : Bundle) (w : Work) : SentStays w (bundleFault kind a code b w) := by
  have fails (l : List Effect) (st det : Nat) (w : Work) : SentStays w (each l (fun e => failEffect e st det) w) :=
    sentStays_each l (fun e v => failEffect_sentStays e st det v) w
  have put (x : Bundle) (w : Work) : SentStays w (putBundle x w) := sentStays_of_units rfl rfl
  have gone (w : Work) : SentStays w (abortCommitted b 0x02 w) :=
    ((fails b.members stAborted 0x02 w).trans (report_records ..).sentStays).trans (sentStays_of_units rfl rfl)
  unfold bundleFault
  extract_lets hit alone
  have halone (w : Work) : SentStays w (alone w) := (fails _ _ _ w).trans (put _ _)
  refine iteInduction (fun _ => .refl w) fun _ => ?_
  cases b.state
  case open_ => exact (fails b.members stAborted 0x02 w).trans (put _ _)
  case doomed => exact .refl w
  case staging => exact iteInduction (fun _ => halone w) fun _ => gone w
  case armed => exact halone w

theorem axisFaulted_sentStays (kind a code : Nat) (w : Work) : SentStays w (axisFaulted kind a code w) := by
  unfold axisFaulted
  extract_lets hit l d c w1 w2
  have h0 : SentStays w w1 := sentStays_of_units rfl rfl
  have h2 : SentStays w1 w2 := sentStays_each l (fun e v => iteInduction
    (fun _ => (dropCurve_sentStays e v).trans (report_records ..).sentStays) fun _ => failEffect_sentStays ..) w1
  exact (h0.trans h2).trans (sentStays_each _ (bundleFault_sentStays kind a code) w2)

theorem raiseFaults_sentStays (a m : Nat) (w : Work) : SentStays w (raiseFaults a m w) := by
  have hset (x : CeAxis) (v : Work) : SentStays v (setCe a x v) := sentStays_of_units rfl rfl
  unfold raiseFaults
  extract_lets x c late w1 w2
  have h2 : SentStays w1 w2 := by
    refine .trans ?_ (irq_records ..).sentStays
    unfold when_
    split <;> [exact (logEvent_records ..).sentStays; exact .refl _]
  refine iteInduction (fun _ => .refl w) fun _ => iteInduction (fun _ => hset _ w) fun _ => ?_
  exact ((hset _ w).trans h2).trans (axisFaulted_sentStays ..)

theorem resultDeadline_sentStays (a : Nat) (w : Work) : SentStays w (resultDeadline a w) := by
  unfold resultDeadline
  extract_lets x
  split
  · exact .refl w
  · refine iteInduction (fun _ => ?_) fun _ => .refl w
    refine .trans ?_ (raiseFaults_sentStays ..)
    exact sentStays_of_units rfl rfl

/-! The body of a frame. -/

theorem safetyBlock_sentStays (n : MapNode) (k : BlockAt) (w : Work) : SentStays w (safetyBlock n k w).2 := by
  unfold safetyBlock
  extract_lets c len
  refine iteInduction (motive := fun x : List Word × Work => SentStays w x.2) (fun _ => .refl w) fun _ => ?_
  split
  · exact sentStays_of_units rfl rfl
  · exact .refl w

theorem fillBlock_sentStays (cls : Nat) (b : Bool) (k : BlockAt) (x : List Word × Work) :
    SentStays x.2 (fillBlock cls b k x).2 := by
  unfold fillBlock
  dsimp only
  split
  · exact .refl _
  · split
    case h_1 => exact .refl _
    case h_2 => exact sentStays_each _ resultDeadline_sentStays _
    case h_3 =>
      refine sentStays_each _ (fun a v => ?_) x.2
      exact sentStays_of_units rfl rfl
    case h_4 => exact safetyBlock_sentStays ..
    case h_5 => exact .refl _

theorem fillBlocks_sentStays (cls : Nat) (b : Bool) (l : List BlockAt) (body : List Word) (w : Work) :
    SentStays w (each l (fillBlock cls b) (body, w)).2 :=
  each_keeps (P := fun x : List Word × Work => SentStays w x.2) l
    (fun k _ x hx => hx.trans (fillBlock_sentStays cls b k x)) (.refl w)

theorem takeXfers_sentStays (pw : Bool) (room : Nat) (b : Bool) (w : Work) : SentStays w (takeXfers pw room b w).2 := by
  unfold takeXfers
  dsimp only
  exact setR_sentStays rfl

/-! The frame itself. -/

/-- A header names its class and its cycle (spec/10 Table 10.4). -/
theorem h0Class_frameHeader {cls : Nat} (h : cls < 16) (pw b : Bool) (pairs : Nat) (w : Work) :
    h0Class (nth 0 (frameHeader cls pw b pairs w) 0) = cls := by
  have hm : (if w.d.trl.builtIn then 0 else w.d.sys.mode) % 2 ^ 3 < 2 ^ 3 := Nat.mod_lt _ (by decide)
  have hw := pw.toNat_le
  have hb := b.toNat_le
  simp only [frameHeader, nth, List.getD_cons_zero, h0Class, fld_eq_div_mod, put, putB_eq, Nat.shiftLeft_eq, wd,
    BitVec.toNat_ofNat]
  generalize (if w.d.trl.builtIn then 0 else w.d.sys.mode) % 2 ^ 3 = m, pw.toNat = x, b.toNat = y at *
  omega

/-- A body of whole pairs. -/
def padded (body : List Word) : List Word := if body.length % 2 == 1 then body ++ [0] else body

/-- A frame as it is kept until it returns. -/
def keptFrame (b pw : Bool) (cls : Nat) (e0 e1 : Word) (body : List Word) (w : Work) : SentFrame :=
  { pathW := pw, cls := cls, ncc := w.d.phase.ncc, e0 := e0, e1 := e1
    words := frameHeader cls pw b ((padded body).length / 2) w ++ padded body }

theorem ringSend_eq (b pw : Bool) (cls : Nat) (e0 e1 : Word) (body : List Word) (w : Work) :
    let f := keptFrame b pw cls e0 e1 body w
    ringSend b pw cls e0 e1 body w
      = modR b (fun r => { r with sent := r.sent ++ [f] }) (send (.ring b pw (frameBytes f.words)) w) := rfl

/-- A frame leaves on its path as the last message, and stands last among the frames its ring has sent. -/
def Departs (b pw : Bool) (cls : Nat) (w v : Work) : Prop :=
  ∃ f : SentFrame, (getR b v).sent = (getR b w).sent ++ [f]
    ∧ f.pathW = pw ∧ f.cls = cls ∧ f.ncc = w.d.phase.ncc
    ∧ h0Class (nth 0 f.words 0) = cls ∧ nth 0 f.words 1 = w.d.phase.ncc
    ∧ v.d.out.getLast? = some (.ring b pw (frameBytes f.words))

theorem ringSend_departs {b pw : Bool} {cls : Nat} {e0 e1 : Word} (body : List Word) {u w : Work} (h : SentStays w u)
    (hc : cls < 16) : Departs b pw cls w (ringSend b pw cls e0 e1 body u) := by
  rw [ringSend_eq]
  refine ⟨keptFrame b pw cls e0 e1 body u, ?_, rfl, rfl, ?_, h0Class_frameHeader hc pw b _ u, ?_, ?_⟩
  · rw [getR_modR_same, ← h.sent b]
    rfl
  · rw [← h.phase]; rfl
  · rw [← h.phase]; rfl
  · exact List.getLast?_concat

/-! The departure. -/

/-- The frame of an entry leaves now. -/
def Leaves (i : Nat) (w : Work) : Prop :=
  let e := (trlEntry i w).1
  entryDue i w = true ∧ e0Class e ≠ 1 ∧ pathOpen (e0Ring e) (e0Path e) w = true

section
variable {i : Nat} {w : Work} (hb : w.d.trl.builtIn = false)
include hb

theorem frameDeparture_not (b pw : Bool) (h : ¬ Leaves i w) : frameDeparture b pw i w = w := by
  unfold frameDeparture
  rw [if_neg (by simp [hb])]
  refine if_pos ?_
  by_contra hc
  simp only [Bool.not_eq_true, Bool.or_eq_false_iff, Bool.not_eq_false', beq_eq_false_iff_ne] at hc
  obtain ⟨⟨hdue, hsync⟩, hopen⟩ := hc
  exact h ⟨hdue, hsync, hopen⟩

theorem frameDeparture_departs (b pw : Bool) (h : Leaves i w) (he : w.d.mem.ecc = []) :
    let e := (trlEntry i w).1
    Departs (e0Ring e) (e0Path e) (e0Class e) w (frameDeparture b pw i w) := by
  obtain ⟨hdue, hsync, hopen⟩ := h
  have hclass : e0Class (trlEntry i w).1 < 16 := Nat.mod_lt _ (by decide)
  have hg : ((!entryDue i w || e0Class (trlEntry i w).1 == 1)
      || !pathOpen (e0Ring (trlEntry i w).1) (e0Path (trlEntry i w).1) w) = false := by simp [hdue, hsync, hopen]
  unfold frameDeparture
  rw [if_neg (by simp [hb])]
  dsimp only
  rw [hg, if_neg Bool.false_ne_true]
  simp only [guardReads, badIn, he, List.filter_nil, List.find?_nil, each_nil]
  split
  · next h5 =>
    rw [beq_iff_eq] at h5
    rw [h5]
    exact ringSend_departs _ (takeXfers_sentStays ..) (by decide)
  · exact ringSend_departs _ (fillBlocks_sentStays ..) hclass

end

end Sys2Proof.Machine
end

section
/-! SUPPORT. The reception of a frame: a damaged one is counted, a unit that forwards passively sends every frame on, a standby takes
the position of an ENUM transfer, and a controller lets its own SYNC go (spec/10 R328, R345, R348, spec/11 R358). -/

namespace Sys2Proof.Machine

open Sys2Proof.Claims

/-! Ports. -/

/-- A ring with another port. -/
def withPort (p1 : Bool) (p : RPort) (r : RingSt) : RingSt := if p1 then { r with p1 := p } else { r with p0 := p }

@[simp] theorem portOf_withPort (p1 : Bool) (p : RPort) (r : RingSt) : portOf p1 (withPort p1 p r) = p := by
  cases p1 <;> rfl

@[simp] theorem portOf_withPort_not (p1 : Bool) (p : RPort) (r : RingSt) :
    portOf (!p1) (withPort p1 p r) = portOf (!p1) r := by
  cases p1 <;> rfl

@[simp] theorem withPort_sent (p1 : Bool) (p : RPort) (r : RingSt) : (withPort p1 p r).sent = r.sent := by
  cases p1 <;> rfl

/-- A port that has discarded one frame more. -/
def countedPort (p : RPort) : RPort := { p with rcrc := p.rcrc + 1 }

/-- Below its maximum the counter goes up without an event (R348, spec/02 R52). -/
theorem countRcrc_below {b p1 : Bool} {w : Work} (h : (portOf p1 (getR b w)).rcrc + 1 < 0xFFFFFFFF) :
    countRcrc b p1 w = setR b (withPort p1 (countedPort (portOf p1 (getR b w))) (getR b w)) w := by
  have hsat : satInc 0xFFFFFFFF (portOf p1 (getR b w)).rcrc = ((portOf p1 (getR b w)).rcrc + 1, false) := by
    rw [satInc, if_neg (by omega), decide_eq_false (by omega)]
  unfold countRcrc
  dsimp only
  change when_ (satInc 0xFFFFFFFF (portOf p1 (getR b w)).rcrc).2 _ (setR b (withPort p1 { portOf p1 (getR b w) with
    rcrc := (satInc 0xFFFFFFFF (portOf p1 (getR b w)).rcrc).1
    rcrcSat := (portOf p1 (getR b w)).rcrcSat || (satInc 0xFFFFFFFF (portOf p1 (getR b w)).rcrc).2 } (getR b w)) w) = _
  rw [hsat]
  simp only [Bool.or_false, when_, Bool.false_eq_true, if_false]
  rfl

/-! What receiving a frame leaves. -/

/-- The ports of a ring and the frames it has sent, the memory and the command system are as before. -/
structure RingQuiet (b : Bool) (w v : Work) : Prop where
  port : ∀ p1, portOf p1 (getR b v) = portOf p1 (getR b w)
  sent : (getR b v).sent = (getR b w).sent
  ops : v.ops = w.ops
  cmd : v.d.cmd = w.d.cmd

theorem RingQuiet.refl (b : Bool) (w : Work) : RingQuiet b w w := ⟨fun _ => rfl, rfl, rfl, rfl⟩

/-- A frame discarded on a port has been counted there; the rest is as before. -/
structure Discarded (b p1 : Bool) (w v : Work) : Prop where
  port : portOf p1 (getR b v) = countedPort (portOf p1 (getR b w))
  other : portOf (!p1) (getR b v) = portOf (!p1) (getR b w)
  sent : (getR b v).sent = (getR b w).sent
  ops : v.ops = w.ops
  cmd : v.d.cmd = w.d.cmd

theorem countRcrc_discarded {b p1 : Bool} {w : Work} (h : (portOf p1 (getR b w)).rcrc + 1 < 0xFFFFFFFF) :
    Discarded b p1 w (countRcrc b p1 w) := by
  rw [countRcrc_below h]
  constructor
  case ops => rfl
  case cmd => rfl
  all_goals
    rw [getR_setR, if_pos rfl]
    simp

theorem Discarded.after {b p1 : Bool} {u v w : Work} (h : RingQuiet b w u) (k : Discarded b p1 u v) :
    Discarded b p1 w v where
  port := k.port.trans (congrArg countedPort (h.port p1))
  other := k.other.trans (h.port _)
  sent := k.sent.trans h.sent
  ops := k.ops.trans h.ops
  cmd := k.cmd.trans h.cmd

theorem Discarded.before {b p1 : Bool} {u v w : Work} (h : Discarded b p1 w u) (k : RingQuiet b u v) :
    Discarded b p1 w v where
  port := (k.port p1).trans h.port
  other := (k.port _).trans h.other
  sent := k.sent.trans h.sent
  ops := k.ops.trans h.ops
  cmd := k.cmd.trans h.cmd

/-! A standby's place on its rings. -/

/-- Only the place of the unit on its rings, and the count of free values, have changed; the ports out of use are the same. -/
structure PlaceMoved (w v : Work) : Prop where
  units : v = { w with d.dq := v.d.dq, d.freeCtr := v.d.freeCtr }
  ring : ∀ b, ∃ n, getR b v = { getR b w with node := n }
    ∧ n.lost0 = (getR b w).node.lost0 ∧ n.lost1 = (getR b w).node.lost1

section
variable {u v w : Work}

theorem PlaceMoved.refl (w : Work) : PlaceMoved w w := ⟨rfl, fun b => ⟨(getR b w).node, rfl, rfl, rfl⟩⟩

theorem PlaceMoved.trans (h : PlaceMoved w u) (k : PlaceMoved u v) : PlaceMoved w v := by
  refine ⟨k.units.trans (congrArg (fun x : Work => { x with d.dq := v.d.dq, d.freeCtr := v.d.freeCtr }) h.units), fun b => ?_⟩
  obtain ⟨n, hn, h0, h1⟩ := h.ring b
  obtain ⟨m, hm, k0, k1⟩ := k.ring b
  rw [hn] at hm k0 k1
  exact ⟨m, hm, k0.trans h0, k1.trans h1⟩

theorem placeMoved_free (f : Nat) (w : Work) : PlaceMoved w { w with d.freeCtr := f } :=
  ⟨rfl, fun b => ⟨(getR b w).node, rfl, rfl, rfl⟩⟩

theorem modNp_placeMoved (b : Bool) {f : NodePart → NodePart} (hf : ∀ n, (f n).lost0 = n.lost0 ∧ (f n).lost1 = n.lost1)
    (w : Work) : PlaceMoved w (modNp b f w) := by
  refine ⟨rfl, fun c => ?_⟩
  rw [modNp, getR_modR]
  split
  · next h =>
    subst h
    exact ⟨_, rfl, hf _⟩
  · exact ⟨_, rfl, rfl, rfl⟩

theorem PlaceMoved.quiet (h : PlaceMoved w v) (b : Bool) : RingQuiet b w v := by
  obtain ⟨n, hn, -⟩ := h.ring b
  refine ⟨fun p1 => ?_, ?_, congrArg (·.ops) h.units, congrArg (·.d.cmd) h.units⟩
  · rw [hn]; cases p1 <;> rfl
  · rw [hn]

theorem nodesInit_placeMoved (w : Work) : PlaceMoved w (nodesInit w) := by
  unfold nodesInit
  refine iteInduction (fun _ => .refl w) fun _ => each_keeps _ (fun b _ v hv => hv.trans ?_) (.refl w)
  dsimp only
  unfold when_
  split
  · refine modNp_placeMoved b (fun n => ?_) v
    exact ⟨rfl, rfl⟩
  · exact .refl v

/-! What it sends on. -/

/-- What came in on a port is turned back: the port it would leave by is out of use (R345). -/
def turnsBack (p1 : Bool) (n : NodePart) : Bool := if p1 then n.lost0 else n.lost1

theorem PlaceMoved.turnsBack (h : PlaceMoved w v) (b p1 : Bool) :
    turnsBack p1 (getR b v).node = Machine.turnsBack p1 (getR b w).node := by
  obtain ⟨n, hn, h0, h1⟩ := h.ring b
  rw [hn]
  cases p1 <;> [exact h1; exact h0]

theorem nodeSend_frame (b p1 good : Bool) (ws : List Word) (w : Work) : ∃ o, nodeSend b p1 good ws w = { w with d.out := o } := by
  unfold nodeSend
  dsimp only
  split <;> exact ⟨_, rfl⟩

theorem nodeSendPart_frame (b p1 : Bool) (bytes : List Nat) (w : Work) :
    ∃ o, nodeSendPart b p1 bytes w = { w with d.out := o } := by
  unfold nodeSendPart
  dsimp only
  split <;> exact ⟨_, rfl⟩

theorem quiet_out (b : Bool) (o : List OutMsg) (w : Work) : RingQuiet b w { w with d.out := o } :=
  ⟨fun _ => rfl, rfl, rfl, rfl⟩

section
variable {b p1 : Bool} {ws : List Word} (hc : ringClk b w = true) (hr : refRuns w = true)
include hc hr

theorem nodeSend_through (h : turnsBack p1 (getR b w).node = false) :
    nodeSend b p1 true ws w = send (.ring b p1 (frameBytes ws)) w := by
  unfold nodeSend
  change (if ringClk b w && refRuns w then
    send (.ring b (p1 != turnsBack p1 (getR b w).node) (frameBytes (if turnsBack p1 (getR b w).node then _ else ws))) w
    else w) = _
  rw [hc, hr, h]
  simp

/-- A looped frame goes on or back as it came. -/
theorem nodeSend_looped (h : h0Looped (nth 0 ws 0) = true) :
    nodeSend b p1 true ws w = send (.ring b (p1 != turnsBack p1 (getR b w).node) (frameBytes ws)) w := by
  have hmark (x : Word) (h26 : h0Looped x = true) : x ||| wd (2 ^ 26) = x := by
    refine BitVec.eq_of_getLsbD_eq fun i hi => ?_
    have hbit : (wd (2 ^ 26)).getLsbD i = decide (i = 26) := by
      rw [wd, BitVec.getLsbD_ofNat, Nat.testBit_two_pow]
      simp [hi, eq_comm]
    rw [BitVec.getLsbD_or, hbit]
    by_cases h6 : i = 26
    · rw [h6, show x.getLsbD 26 = true from h26]; rfl
    · simp [h6]
  unfold nodeSend
  dsimp only
  cases ws with
  | nil => rw [ite_self, hc, hr]; rfl
  | cons x r =>
    dsimp only
    rw [hmark x h, ite_self, hc, hr]
    rfl

end

/-! A damaged frame. -/

/-- Serving the transfers of a damaged frame obeys nothing: free values alone are used. -/
theorem nodeXferServe_damaged (b : Bool) (t0 t1 : Word) (pay : List Word) (w : Work) :
    PlaceMoved w (nodeXferServe b false t0 t1 pay w).2 := by
  have same (x : Word × Word × List Word) : PlaceMoved w (x, w).2 := .refl w
  unfold nodeXferServe
  extract_lets n tag
  split
  case h_1 => split <;> exact .refl w
  case h_2 => split <;> exact .refl w
  case h_3 => split <;> [exact .refl w; exact (placeMoved_free _ w).trans (placeMoved_free _ _)]
  case h_4 => split <;> [skip; split <;> [skip; split]] <;> exact .refl w

theorem nodeBody_damaged (b : Bool) (f : Nat) (ws : List Word) (w : Work) : PlaceMoved w (nodeBody f b false ws w).2 := by
  induction f generalizing ws w with
  | zero => exact .refl w
  | succ f ih =>
    unfold nodeBody
    split
    · exact (nodeXferServe_damaged ..).trans (ih _ _)
    · exact .refl w

theorem nodeProcess_damaged (b p1 : Bool) (ws : List Word) (w : Work) : PlaceMoved w (nodeProcess b p1 false ws w).2 := by
  unfold nodeProcess
  extract_lets h n sync low w1
  have ite {c : Bool} {x y : List Word × Work} (hx : PlaceMoved w x.2) (hy : PlaceMoved w y.2) :
      PlaceMoved w (if c then x else y).2 := by split <;> assumption
  exact ite (.refl w) (ite (.refl w) (ite (nodeBody_damaged ..) (.refl w)))

end

theorem nodeFrame_damaged {b p1 : Bool} (bytes : List Nat) {w : Work} (h : (portOf p1 (getR b w)).rcrc + 1 < 0xFFFFFFFF) :
    Discarded b p1 w (nodeFrame b p1 bytes true w) := by
  have hcount := countRcrc_discarded h
  have sent (ws : List Word) (u : Work) : RingQuiet b u (nodeSend b p1 false ws u) := by
    obtain ⟨o, ho⟩ := nodeSend_frame b p1 false ws u
    rw [ho]
    exact quiet_out b o u
  unfold nodeFrame
  dsimp only
  simp only [Bool.not_true, Bool.false_and, Bool.false_eq_true, if_false]
  split
  · obtain ⟨o, ho⟩ := nodeSendPart_frame b p1 bytes (countRcrc b p1 w)
    rw [ho]
    exact hcount.before (quiet_out b o _)
  · split
    · exact hcount.before (sent _ _)
    · split
      · exact (hcount.before ((nodeProcess_damaged b p1 _ _).quiet b)).before (sent _ _)
      · exact hcount.before (sent _ _)

end Sys2Proof.Machine
end

section
/-! SUPPORT. The reception of an intact frame by a unit that forwards passively, and the unit's own SYNC come back (spec/10 R328,
R340, R345, R348, spec/11 R358). -/

namespace Sys2Proof.Machine

open Sys2Proof.Claims

/-! Intact frames. -/

/-- The bytes of an intact frame hold its words, whole pairs and a CRC. -/
theorem frameWords_eq {bytes : List Nat} {ws : List Word} (h : frameWords bytes = some ws) :
    (decide (bytes.length < 13) || (bytes.length - 4) % 9 != 0) = false
      ∧ bytesWords ((bytes.length - 4) / 9) (bytes.take (bytes.length - 4)) = ws := by
  unfold frameWords at h
  dsimp only at h
  split at h
  · simp at h
  · next hlen =>
    rw [Option.ite_none_right_eq_some, Option.some_inj] at h
    exact ⟨Bool.eq_false_iff.2 hlen, h.2⟩

/-- The frames a node looks into: of a defined class and of their own length, on their first pass. -/
def processed (ws : List Word) : Bool :=
  h0Class (nth 0 ws 0) != 0 && decide (h0Class (nth 0 ws 0) ≤ 6) && 2 * h0Pairs (nth 0 ws 0) + 2 == ws.length
    && !h0Looped (nth 0 ws 0)

section
variable {bytes : List Nat} {ws : List Word} (h : frameWords bytes = some ws)
include h

theorem nodeFrame_passed (b p1 : Bool) (w : Work) (hp : processed ws = false) :
    nodeFrame b p1 bytes false w = nodeSend b p1 true ws w := by
  obtain ⟨hlen, hws⟩ := frameWords_eq h
  unfold nodeFrame
  dsimp only
  rw [hlen, if_neg Bool.false_ne_true, hws, h]
  exact if_pos (by rw [← processed, hp]; rfl)

theorem nodeFrame_standby (b p1 : Bool) {w : Work} (hp : processed ws = true) (hr : w.d.sys.role = .standby) :
    nodeFrame b p1 bytes false w = nodeSend b p1 true (nodeProcess b p1 true ws w).1 (nodeProcess b p1 true ws w).2 := by
  obtain ⟨hlen, hws⟩ := frameWords_eq h
  unfold nodeFrame
  dsimp only
  rw [hlen, if_neg Bool.false_ne_true, hws, h]
  change (if !processed ws then _ else if w.d.sys.role == .standby then _ else _) = _
  rw [hp, hr]
  rfl

end

/-! An ENUM transfer at a standby (R328). -/

/-- The standby's words of an ENUM transfer that came with argument t1. -/
def enumAnswer (t1 : Word) : Word := wd (fld t1 7 29 * 128 + (fld t1 0 7 + 1))

section
variable {b : Bool} {t0 t1 : Word} {w : Work} (h3 : fld t0 24 4 = 3) (hk : fld t1 0 7 < 127)
include h3 hk

theorem nodeXferServe_enum (pay : List Word) : nodeXferServe b true t0 t1 pay w
    = ((answered t0 0, enumAnswer t1, pay), modNp b (fun n => { n with pos := fld t1 0 7 + 1 }) w) := by
  unfold nodeXferServe
  dsimp only
  rw [h3]
  exact if_neg (by simp; omega)

theorem nodeBody_enum (h0 : fld t0 0 8 = 0) (f : Nat) : nodeBody (f + 2) b true [t0, t1] w
    = ([answered t0 0, enumAnswer t1], modNp b (fun n => { n with pos := fld t1 0 7 + 1 }) w) := by
  unfold nodeBody
  dsimp only
  rw [nodeXferServe_enum h3 hk, h0]
  rfl

/-- The frame it came in has the unit's own epoch, which stays. -/
theorem nodeProcess_enum {p1 : Bool} {h n : Word} (h0 : fld t0 0 8 = 0) (hc : h0Class h = 5)
    (he : h0Epoch h = w.d.trl.epoch) : nodeProcess b p1 true [h, n, t0, t1] w
      = ([h, n, answered t0 0, enumAnswer t1],
          modNp b (fun x => { x with pos := fld t1 0 7 + 1 }) (modNp b (fun x => { x with anyEpoch := false }) w)) := by
  have hlow : modDiffN 16 w.d.trl.epoch w.d.trl.epoch = 0 := by simp [modDiffN]
  have hsame : { w with d.trl.epoch := w.d.trl.epoch } = w := rfl
  unfold nodeProcess
  simp only [nth, List.getD_cons_zero, hc, he, hlow, lt_self_iff_false, decide_false, Bool.false_and, Bool.false_eq_true,
    if_false, when_, if_true, Nat.reduceBEq, List.take_succ_cons, List.take_zero, List.drop_succ_cons, List.drop_zero,
    List.length_cons, List.length_nil]
  rw [hsame, nodeBody_enum h3 hk h0]
  rfl

end

/-! The unit's own SYNC (R358). -/

theorem foreignWord_self {b : Bool} {f : SentFrame} (w : Work) : foreignWord b f [] f.words w = none := by
  unfold foreignWord
  dsimp only
  refine List.find?_eq_none.2 fun j _ => ?_
  split
  · next hj => simp
  · split <;> simp

/-- It is forgotten, and shows that the ring works; the graft alone may note it (R412). -/
theorem ownFrame_sync {b p1 : Bool} {t : Nat} {f : SentFrame} {w : Work} (hf : (getR b w).sent = [f]) (hc : f.cls = 1)
    (hl : h0Looped (nth 0 f.words 0) = false) :
    ∃ g, ownFrame b p1 t f f.words w = { modR b (fun r => { r with sent := [], goodNow := true }) w with d.grf := g } := by
  have hforget : modR b (fun r => { r with sent := r.sent.erase f, goodNow := true }) w
      = modR b (fun r => { r with sent := [], goodNow := true }) w := by
    unfold modR
    dsimp only
    rw [hf, List.erase_cons_head]
  unfold ownFrame
  simp only [hforget, hc, hl, foreignWord_self, when_, Nat.reduceBEq, Bool.true_or, Bool.false_and, Bool.false_eq_true,
    if_true, if_false, each_nil]
  split <;> exact ⟨_, rfl⟩

end Sys2Proof.Machine
end

section
/-! SUPPORT. RING_FRAME_RECEIVED by the role of the unit (spec/10 R348). -/

namespace Sys2Proof.Machine

open Sys2Proof.Claims

section
variable {b : Bool} {w : Work} (hring : (b && !hasRingB w.variant) = false)
include hring

theorem ringFrame_forwards (hf : forwards w = true) (p1 : Bool) (at_ : Nat) (bytes : List Nat) (v : Bool) :
    ringFrame b p1 at_ bytes v w = nodeFrame b p1 bytes v (nodesInit w) := by
  unfold ringFrame
  rw [hring, hf]
  rfl

/-- A controller counts a damaged frame; the head of a GATHER may show in it (R370). -/
theorem ringFrame_damaged (hf : forwards w = false) (p1 : Bool) (at_ : Nat) (bytes : List Nat) :
    ∃ head, ringFrame b p1 at_ bytes true w
      = countRcrc b p1 (when_ head (modR b (fun r => { r with gatherBack := true })) w) := by
  unfold ringFrame
  rw [hring, hf]
  exact ⟨_, rfl⟩

section
variable {bytes : List Nat} {ws : List Word} (hf : forwards w = false) (hw : frameWords bytes = some ws)
include hf hw

theorem ringFrame_undefined (p1 : Bool) (at_ : Nat) (h : h0Class (nth 0 ws 0) = 0 ∨ 6 < h0Class (nth 0 ws 0)) :
    ringFrame b p1 at_ bytes false w = w := by
  unfold ringFrame
  rw [hring, hf]
  simp only [Bool.false_eq_true, if_false, hw]
  refine if_pos ?_
  simp only [Bool.or_eq_true, beq_iff_eq, decide_eq_true_eq]
  exact .inl h

theorem ringFrame_ownSync (p1 : Bool) (at_ : Nat) {f : SentFrame} (hs : (getR b w).sent = [f]) (hc : f.cls = 1)
    (hws : f.words = ws) (hn : f.ncc = nth 0 ws 1) (hp : f.pathW = h0Path (nth 0 ws 0)) (h1 : h0Class (nth 0 ws 0) = 1)
    (hl : 2 * h0Pairs (nth 0 ws 0) + 2 = ws.length) (he : h0Epoch (nth 0 ws 0) = w.d.trl.epoch) :
    ringFrame b p1 at_ bytes false w = ownFrame b p1 at_ f ws w := by
  have hmine : ((getR b w).sent.find? fun s => s.pathW == h0Path (nth 0 ws 0) && s.cls == 1 && s.ncc == nth 0 ws 1
      && s.words.length == ws.length) = some f := by
    rw [hs]
    exact List.find?_cons_of_pos (by simp [hc, hws, hn, hp])
  unfold ringFrame
  rw [hring, hf]
  simp only [Bool.false_eq_true, if_false, hw, h1, hl, he, hmine]
  simp

end
end

end Sys2Proof.Machine

namespace Sys2Proof.Claims

open Sys2Proof.Machine

theorem HasRing.present {b : Bool} {s : State} (h : HasRing b s) : (b && !hasRingB (begin_ s).variant) = false := by
  rcases h with h | h | h <;> simp [h, hasRingB, isBig]

section
variable {b p1 : Bool} {at_ : Nat} {bytes : List Nat} {s : State} (hl : live s = true) (hring : HasRing b s)
include hl hring

theorem damaged_discarded (hn : (portOf p1 (ring b s)).rcrc + 1 < 0xFFFFFFFF) :
    Ends (.ringFrameReceived b p1 at_ bytes true) s fun t =>
      portOf p1 (ring b t) = { portOf p1 (ring b s) with rcrc := (portOf p1 (ring b s)).rcrc + 1 }
        ∧ portOf (!p1) (ring b t) = portOf (!p1) (ring b s) ∧ (ring b t).sent = (ring b s).sent ∧ SameMemory s t
        ∧ (forwards (begin_ s) = false → ring (!b) t = ring (!b) s) ∧ t.dev.cmd = s.dev.cmd := by
  refine ends_run (f := ringFrame b p1 at_ bytes true) rfl hl ?_
  cases hf : forwards (begin_ s)
  case true =>
    have hq := (nodesInit_placeMoved (begin_ s)).quiet b
    obtain ⟨port, other, sent, ops, cmd⟩ := (nodeFrame_damaged bytes ((hq.port p1).symm ▸ hn)).after hq
    rw [ringFrame_forwards hring.present hf]
    exact ⟨port, other, sent, sameMemory_commit ops, nofun, cmd⟩
  case false =>
    obtain ⟨head, hrun⟩ := ringFrame_damaged hring.present hf p1 at_ bytes
    rw [hrun]
    generalize hu : when_ head _ (begin_ s) = u
    have hq : RingQuiet b (begin_ s) u ∧ getR (!b) u = getR (!b) (begin_ s) := by
      subst hu
      cases head
      case false => exact ⟨.refl .., rfl⟩
      case true =>
        simp only [when_, if_true, getR_modR_not, and_true]
        refine ⟨fun p1 => ?_, ?_, rfl, rfl⟩ <;> rw [getR_modR_same]
        cases p1 <;> rfl
    have hu : (portOf p1 (getR b u)).rcrc + 1 < 0xFFFFFFFF := by rw [hq.1.port]; exact hn
    obtain ⟨port, other, sent, ops, cmd⟩ := (countRcrc_discarded hu).after hq.1
    refine ⟨port, other, sent, sameMemory_commit ops, fun _ => ?_, cmd⟩
    rw [ring_commit, countRcrc_below hu, getR_setR, if_neg (by cases b <;> decide)]
    exact hq.2

section
variable {ws : List Word} (hw : frameWords bytes = some ws)
include hw

section
variable (hf : forwards (begin_ s) = true) (hc : ringClk b (begin_ s) = true) (hr : refRuns (begin_ s) = true)
include hf hc hr

theorem looped_forwarded (hloop : h0Looped (nth 0 ws 0) = true) : Ends (.ringFrameReceived b p1 at_ bytes false) s fun t =>
    t.dev.out = s.dev.out ++ [.ring b (p1 != turnsBack p1 (ring b s).node) (frameBytes ws)] ∧ SameMemory s t
      ∧ t.dev.cmd = s.dev.cmd ∧ (ring b t).sent = (ring b s).sent := by
  refine ends_run (f := ringFrame b p1 at_ bytes false) rfl hl ?_
  have hp : processed ws = false := by rw [processed, hloop, Bool.not_true, Bool.and_false]
  have hm := nodesInit_placeMoved (begin_ s)
  have hq := hm.quiet b
  have hback := hm.turnsBack b p1
  have hout : (nodesInit (begin_ s)).d.out = s.dev.out := congrArg (·.d.out) hm.units
  have hc' : ringClk b (nodesInit (begin_ s)) = true := by rw [hm.units]; exact hc
  have hr' : refRuns (nodesInit (begin_ s)) = true := by rw [hm.units]; exact hr
  rw [ringFrame_forwards hring.present hf, nodeFrame_passed hw b p1 _ hp, nodeSend_looped hc' hr' hloop, hback]
  refine ⟨?_, sameMemory_commit hq.ops, hq.cmd, hq.sent⟩
  change (nodesInit (begin_ s)).d.out ++ _ = _
  rw [hout]
  rfl

/-- A standby takes the next position and tells it. -/
theorem enum_served {h n t0 t1 : Word} (hws : ws = [h, n, t0, t1]) (hrole : s.dev.sys.role = .standby)
    (hloop : h0Looped h = false) (hcls : h0Class h = 5) (hpairs : h0Pairs h = 1) (he : h0Epoch h = s.dev.trl.epoch)
    (h3 : fld t0 24 4 = 3) (h0 : fld t0 0 8 = 0) (hk : fld t1 0 7 < 127) (hback : turnsBack p1 (ring b s).node = false) :
    Ends (.ringFrameReceived b p1 at_ bytes false) s fun t => (ring b t).node.pos = fld t1 0 7 + 1
      ∧ t.dev.out = s.dev.out ++ [.ring b p1 (frameBytes [h, n, Machine.answered t0 0, enumAnswer t1])] := by
  refine ends_run (f := ringFrame b p1 at_ bytes false) rfl hl ?_
  subst hws
  have hp : processed [h, n, t0, t1] = true := by simp [processed, nth, hloop, hcls, hpairs]
  have hm := nodesInit_placeMoved (begin_ s)
  have hb := (hm.turnsBack b p1).trans hback
  have hrole' : (nodesInit (begin_ s)).d.sys.role = .standby := (congrArg (·.d.sys.role) hm.units).trans hrole
  have he' : h0Epoch h = (nodesInit (begin_ s)).d.trl.epoch := he.trans (congrArg (·.d.trl.epoch) hm.units).symm
  have hout : (nodesInit (begin_ s)).d.out = s.dev.out := congrArg (·.d.out) hm.units
  have hc' : ringClk b (nodesInit (begin_ s)) = true := by rw [hm.units]; exact hc
  have hr' : refRuns (nodesInit (begin_ s)) = true := by rw [hm.units]; exact hr
  rw [ringFrame_forwards hring.present hf, nodeFrame_standby hw b p1 hp hrole', nodeProcess_enum h3 hk h0 hcls he']
  generalize nodesInit (begin_ s) = u at *
  rw [nodeSend_through]
  case hc => exact hc'
  case hr => exact hr'
  case h => simpa [modNp, turnsBack] using hb
  refine ⟨?_, ?_⟩
  · rw [ring_commit, getR_send, modNp, getR_modR_same]
  · change u.d.out ++ _ = _
    rw [hout]

end

theorem ownSync_gone (hf : forwards (begin_ s) = false) {f : SentFrame} (hs : (ring b s).sent = [f]) (hc : f.cls = 1)
    (hws : f.words = ws) (hn : f.ncc = nth 0 ws 1) (hp : f.pathW = h0Path (nth 0 ws 0)) (h1 : h0Class (nth 0 ws 0) = 1)
    (hlen : 2 * h0Pairs (nth 0 ws 0) + 2 = ws.length) (he : h0Epoch (nth 0 ws 0) = s.dev.trl.epoch)
    (hloop : h0Looped (nth 0 ws 0) = false) : Ends (.ringFrameReceived b p1 at_ bytes false) s fun t =>
      ring b t = { ring b s with sent := [], goodNow := true } ∧ ring (!b) t = ring (!b) s ∧ SameMemory s t
        ∧ t.dev.cmd = s.dev.cmd := by
  refine ends_run (f := ringFrame b p1 at_ bytes false) rfl hl ?_
  rw [ringFrame_ownSync hring.present hf hw p1 at_ hs hc hws hn hp h1 hlen he]
  subst hws
  obtain ⟨g, hg⟩ := ownFrame_sync (p1 := p1) (t := at_) (w := begin_ s) hs hc hloop
  rw [hg]
  refine ⟨?_, ?_, sameMemory_commit rfl, rfl⟩
  · rw [ring_commit, getR_grf, getR_modR_same, getR_begin]
  · rw [ring_commit, getR_grf, getR_modR_not, getR_begin]

end
end

/-! The fields of an answered transfer (spec/10 R328). -/

theorem answered_fields (t0 : Word) : (Machine.answered t0 0).getLsbD 35 = true ∧ bitsOf (Machine.answered t0 0) 8 4 = 0
    ∧ bitsOf (Machine.answered t0 0) 12 23 = bitsOf t0 12 23 := by
  have h1 : t0.toNat % 2 ^ 8 < 2 ^ 8 := Nat.mod_lt _ (by decide)
  have h2 : t0.toNat / 2 ^ 12 % 2 ^ 23 < 2 ^ 23 := Nat.mod_lt _ (by decide)
  have hn : (Machine.answered t0 0).toNat = t0.toNat % 2 ^ 8 + t0.toNat / 2 ^ 12 % 2 ^ 23 * 2 ^ 12 + 2 ^ 35 := by
    simp only [Machine.answered, wd, BitVec.toNat_ofNat, fld_eq_div_mod, put, putB_eq, Nat.shiftLeft_eq, Bool.toNat_true]
    omega
  refine ⟨bit_of_field (b := true) ?_, ?_, ?_⟩
  · rw [hn, Bool.toNat_true]; omega
  · rw [bitsOf, hn]; omega
  · rw [bitsOf, bitsOf, hn]; omega

theorem enumAnswer_fields {t1 : Word} (hk : bitsOf t1 0 7 < 127) :
    bitsOf (enumAnswer t1) 0 7 = bitsOf t1 0 7 + 1 ∧ bitsOf (enumAnswer t1) 7 29 = bitsOf t1 7 29 := by
  have h2 : t1.toNat / 2 ^ 7 % 2 ^ 29 < 2 ^ 29 := Nat.mod_lt _ (by decide)
  simp only [bitsOf, enumAnswer, wd, BitVec.toNat_ofNat, fld_eq_div_mod] at hk ⊢
  omega

end Sys2Proof.Claims

namespace Sys2Proof.Proofs

open Sys2Proof.Machine Sys2Proof.Claims

/-- Settles O47: a departure by what the filling of a frame leaves alone, a reception by the unit's role, from where on each
frame takes the branch of its clause. -/
theorem ringFrames : Obligations.RingFrames := by
  refine ⟨fun b pw i s hl hbuilt => ?_, fun b p1 at_ bytes v s hl hring => ⟨fun hv hn => ?_, fun ws hv hw hf hc hr => ?_,
    fun ws hv hw hf => ?_⟩⟩
  case refine_1 =>
    refine ⟨fun hgo => run_unchanged hl (frameDeparture_not hbuilt b pw hgo), fun hgo he => ?_⟩
    refine ends_run (f := frameDeparture b pw i) rfl hl ?_
    obtain ⟨f, hsent, hpath, hcls, hncc, hhead, hcycle, hout⟩ := frameDeparture_departs hbuilt b pw hgo he
    exact ⟨f, hsent, hpath, hcls, hncc, (bitsOf_eq ..).trans hhead, hcycle, hout⟩
  case refine_2 =>
    subst hv
    exact damaged_discarded hl hring hn
  case refine_3 =>
    subst hv
    refine ⟨fun hloop => looped_forwarded hl hring hw hf hc hr hloop,
      fun h n t0 t1 hws hrole hloop hcls hpairs he h3 h0 hk hback => ?_⟩
    obtain ⟨t, ht, hpos, hout⟩ := enum_served hl hring hw hf hc hr hws hrole hloop ((bitsOf_eq ..).symm.trans hcls)
      ((bitsOf_eq ..).symm.trans hpairs) ((bitsOf_eq ..).symm.trans he) ((bitsOf_eq ..).symm.trans h3)
      ((bitsOf_eq ..).symm.trans h0) (bitsOf_eq t1 0 7 ▸ hk) hback
    obtain ⟨hnext, hrest⟩ := enumAnswer_fields hk
    exact ⟨t, ht, bitsOf_eq t1 0 7 ▸ hpos, _, _, hout, hnext, hrest, answered_fields t0⟩
  case refine_4 =>
    subst hv
    simp only [bitsOf_eq]
    refine ⟨fun h => run_unchanged hl (ringFrame_undefined hring.present hf hw p1 at_ h), ?_⟩
    intro f hs hcls hws hn hp h1 hlen he hloop _
    exact ownSync_gone hl hring hw hf hs hcls hws hn hp h1 hlen he hloop

end Sys2Proof.Proofs
end

section
/-! SUPPORT. Commands that another protocol carries on: what the mailbox, the proposal of a mode and the reservation of ACYC
bytes leave alone, and the span of a node's own parameters (spec/03 R651, spec/11 R364, spec/14 R470, spec/17 R533). -/

namespace Sys2Proof.Machine

open Sys2Proof.Claims

/-! Posting to a mailbox. -/

/-- Only the mailboxes, and what an event and an interrupt show, have changed. -/
def Posted (w v : Work) : Prop :=
  v = { w with
    ops := v.ops, d.mbx := v.d.mbx, d.mem.ecc := v.d.mem.ecc, d.mem.pageCrc := v.d.mem.pageCrc
    d.cmd.evWr := v.d.cmd.evWr, d.cmd.evRd := v.d.cmd.evRd, d.cmd.evOvr := v.d.cmd.evOvr
    d.hif := v.d.hif, d.out := v.d.out, d.freeCtr := v.d.freeCtr }

section
variable {u v w : Work}

theorem Posted.refl (w : Work) : Posted w w := rfl

theorem Posted.trans (h : Posted w u) (k : Posted u v) : Posted w v :=
  Eq.trans k (congrArg (fun x : Work => { x with
    ops := v.ops, d.mbx := v.d.mbx, d.mem.ecc := v.d.mem.ecc, d.mem.pageCrc := v.d.mem.pageCrc
    d.cmd.evWr := v.d.cmd.evWr, d.cmd.evRd := v.d.cmd.evRd, d.cmd.evOvr := v.d.cmd.evOvr
    d.hif := v.d.hif, d.out := v.d.out, d.freeCtr := v.d.freeCtr }) h)

theorem Posted.slot (h : Posted w v) (q e : Nat) : getSlot q e v = getSlot q e w := by
  rw [h]
  rfl

theorem Posted.hdg (h : Posted w v) : v.d.hdg = w.d.hdg := congrArg (·.d.hdg) h

end

theorem setChan_posted (c : Nat) (x : MbxChan) (w : Work) : Posted w (setChan c x w) := rfl

theorem logEvent_posted (b : Blk) (i c x : Nat) (w : Work) : Posted w (logEvent b i c x w) := by
  obtain ⟨_, _, _, _, _, _, _, _, _, h⟩ := logEvent_frame b i c x w
  rw [h]
  rfl

theorem mbxIrq_posted (w : Work) : Posted w (mbxIrq w) := by
  unfold mbxIrq
  extract_lets h s rise _ _ w1
  have h1 : Posted w w1 := rfl
  refine iteInduction (fun _ => h1.trans ?_) fun _ => h1
  obtain ⟨_, _, hirq⟩ := irq_frame 8 w1
  rw [hirq]
  rfl

theorem mbxQueue_posted (sb : Bool) (c len : Nat) (w : Work) : Posted w (mbxQueue sb c len w) := by
  unfold mbxQueue
  extract_lets x y
  refine iteInduction (fun _ => .refl w) fun _ => iteInduction (fun _ => (setChan_posted ..).trans (mbxIrq_posted _)) fun _ => ?_
  split
  extract_lets z w1 w2
  have h2 : Posted w w2 := (setChan_posted ..).trans (iteInduction (fun _ => logEvent_posted ..) fun _ => .refl w1)
  exact iteInduction (fun _ => h2) fun _ => h2.trans (logEvent_posted ..)

theorem mbxAccess_posted (mid c : Nat) (w : Work) : Posted w (mbxAccess mid c w).2 := by
  unfold mbxAccess
  extract_lets x
  split
  · exact setChan_posted ..
  · split
    · dsimp only
      exact (setChan_posted ..).trans (logEvent_posted ..)
    · exact .refl w

theorem mbxPut_posted (mid c : Nat) (ws : List Word) (w : Work) : Posted w (mbxPut mid c ws w) := by
  have haccess := mbxAccess_posted mid c w
  unfold mbxPut
  split
  next s v hv =>
  rw [hv] at haccess
  split
  · exact (haccess.trans (setChan_posted ..)).trans (mbxQueue_posted ..)
  · exact haccess

/-! The reservation of ACYC bytes. -/

theorem acycReserve_frame (b : Bool) (f c n : Nat) (w : Work) : ∃ a, acycReserve b f c n w = { w with d.cmd.acyc := a } := by
  induction f generalizing c n w with
  | zero => exact ⟨_, rfl⟩
  | succ f ih =>
    unfold acycReserve
    dsimp only
    generalize min n (acycFree b c w) = k
    have hv : ∃ a, (if k = 0 then w else { w with d.cmd.acyc := w.d.cmd.acyc ++ [(b, c, k)] })
        = { w with d.cmd.acyc := a } := by
      by_cases hk : k = 0
      · exact ⟨_, if_pos hk⟩
      · exact ⟨_, if_neg hk⟩
    obtain ⟨a, hv⟩ := hv
    rw [hv]
    split
    · exact ⟨_, rfl⟩
    · obtain ⟨a', h⟩ := ih (c + 1) (n - k) { w with d.cmd.acyc := a }
      exact ⟨a', h⟩

/-! First and last of consecutive numbers that meet a condition. -/

section
variable {a n : Nat} {c : Nat → Bool}

/-- The first lies as far from the start as there are numbers before it, and the last as far from the end as there are
numbers behind it. -/
theorem filter_consecutive (h : ((List.range n).map (a + ·)).any c = true) :
    let l := (List.range n).map (a + ·)
    ((l.filter c).headD 0, (l.filter c).getLastD 0 + 1 - (l.filter c).headD 0)
      = (a + l.findIdx c, n - l.findIdx c - l.reverse.findIdx c) := by
  intro l
  have hlen : l.length = n := by simp [l]
  have hfirst : l.findIdx c < l.length := List.findIdx_lt_length.2 (List.any_eq_true.1 h)
  have hlast : l.reverse.findIdx c < l.reverse.length :=
    List.findIdx_lt_length.2 (List.any_eq_true.1 ((List.any_reverse ..).trans h))
  have hhead : (l.filter c).headD 0 = a + l.findIdx c := by
    rw [List.headD_eq_head?_getD, List.head?_filter, List.find?_eq_getElem?_findIdx, List.getElem?_eq_getElem hfirst]
    simp [l]
  have hback : (l.filter c).getLastD 0 = a + (n - 1 - l.reverse.findIdx c) := by
    rw [List.getLastD_eq_getLast?, ← List.head?_reverse, ← List.filter_reverse, List.head?_filter,
      List.find?_eq_getElem?_findIdx, List.getElem?_eq_getElem hlast]
    simp [l]
  rw [List.length_reverse, hlen] at hlast
  rw [hhead, hback]
  refine Prod.ext rfl ?_
  dsimp only
  omega

end

/-! The span of a node's parameters (R651). -/

/-- A number that the node holds. -/
def nodeHeld (o : Word) (n : Nat) : Bool := paramCls (objKind o) (objIndex o) n == some .n

/-- The words that the device has of its own end where the node's begin. -/
theorem idxOf_ownValues (o : Word) (l : List Nat) (w : Work) : (ownValues o l w).idxOf none = l.findIdx (nodeHeld o) := by
  rw [ownValues, List.idxOf, List.findIdx_map]
  congr 1
  funext n
  unfold nodeHeld
  rw [Function.comp_apply]
  by_cases h : (paramCls (objKind o) (objIndex o) n == some PCls.n) = true
  · rw [if_pos h, h]; rfl
  · rw [if_neg h, Bool.eq_false_iff.2 h]; rfl

theorem reverse_ownValues (o : Word) (l : List Nat) (w : Work) : (ownValues o l w).reverse = ownValues o l.reverse w :=
  List.map_reverse.symm

/-- The address and the count of a read's transfer. -/
theorem readSpan {ps : List Word} (w : Work) (h : nodeCmd 0x181 ps = true) :
    let own := ownValues (prm ps 1) (coveredNums 0x181 ps) w
    nodeSpan 0x181 ps
      = ((prm ps 2).toNat + own.idxOf none, own.length - own.idxOf none - own.reverse.idxOf none) := by
  have hcover : coveredNums 0x181 ps = (List.range (prm ps 3).toNat).map ((prm ps 2).toNat + ·) := rfl
  have hany : (coveredNums 0x181 ps).any (nodeHeld (prm ps 1)) = true := by
    unfold nodeCmd at h
    exact (Bool.and_eq_true_iff.1 h).2
  have hlength : (ownValues (prm ps 1) (coveredNums 0x181 ps) w).length = (prm ps 3).toNat := by
    rw [ownValues, hcover]; simp
  intro own
  rw [reverse_ownValues, idxOf_ownValues, idxOf_ownValues, hlength]
  exact filter_consecutive hany

end Sys2Proof.Machine
end

section
/-! SUPPORT. The verdicts on the commands that another protocol carries on, and what their slots and that protocol show (spec/03
Table 3.4, R651, spec/05 R172, spec/11 R364, spec/14 R470). -/

namespace Sys2Proof.Machine

open Sys2Proof.Claims

theorem setState_st (t : DevState) (w : Work) : (setState t w).d.sys.st = t := by
  unfold setState
  split
  · assumption
  · rw [irq_sys]

theorem setState_spares (p : Packet) (t : DevState) (w : Work) : Spares p w (setState t w) := by
  unfold setState
  split
  · exact .refl p w
  · have h : Spares p w { w with d.sys.prev := w.d.sys.st, d.sys.st := t } := spares_of_units rfl rfl
    exact h.trans (irq_spares p 10 _)

theorem getSlot_propose (q e : Nat) (x : Proposal) (w : Work) : getSlot q e (propose x w) = getSlot q e w := rfl

theorem propose_prop (x : Proposal) (w : Work) : (propose x w).d.trl.prop = some x := rfl

/-! Verdicts. -/

section
variable {p : Packet} {w : Work}

theorem admitSingle_toTest (hop : pOp p = 0x001) (h9 : (prm (pPs p) 1).toNat = 9) :
    admitSingle p w = .take (finishOk (pRef p) [] (setState .test w)) := by
  refine admitSingle_atOnce ?_
  unfold admitAtOnce
  dsimp only
  rw [hop]
  change some (admitState p w) = _
  unfold admitState
  rw [h9]
  rfl

/-- A mode whose slow group is no longer than the present one contradicts no slow effect. -/
theorem admitSingle_mode (hop : pOp p = 0x002) (hslow : 2 ^ (modeRec (prm (pPs p) 1).toNat w).slowl ≤ slowS w) :
    let n := w.d.phase.ncc + prm (pPs p) 2
    admitSingle p w = .take (propose { mode := (prm (pPs p) 1).toNat, n := n, cmd := pRef p } (accept p (some n) 0 w)) := by
  refine admitSingle_atOnce ?_
  unfold admitAtOnce
  dsimp only
  rw [hop]
  change some (admitMode p w) = _
  unfold admitMode
  dsimp only
  rw [decide_eq_false (Nat.not_lt.2 hslow), Bool.false_and]
  rfl

theorem admitSingle_brakeTest (hop : pOp p = 0x200) : admitSingle p w = .take (brakeRequest p w) := by
  refine admitSingle_atOnce ?_
  unfold admitAtOnce
  dsimp only
  rw [hop]
  rfl

/-- The axis whose brake is tested: named by its number, or by its pair (R470). -/
def testedAxis (p : Packet) (w : Work) : Nat :=
  let v := prm (pPs p) 1
  if bit v 8 then fld v 0 8 else (axisOfPair (fld v 0 3) w).getD 0

/-- The test is under way. -/
def withBrakeTest (p : Packet) (w : Work) : Work := { w with d.hdg.btCmd := some (pRef p, testedAxis p w) }

theorem withBrakeTest_spares (p : Packet) (w : Work) : Spares p w (withBrakeTest p w) := spares_of_units rfl rfl

/-- SC0 is told once the command is reported. -/
theorem brakeRequest_eq (p : Packet) (w : Work) :
    brakeRequest p w = mbxPut 2 15 [wd (2 * 2 ^ 32), prm (pPs p) 1] (accept p none 0 (withBrakeTest p w)) := rfl

theorem brakeRequest_hdg (p : Packet) (w : Work) : (brakeRequest p w).d.hdg.btCmd = some (pRef p, testedAxis p w) := by
  rw [brakeRequest_eq, (mbxPut_posted ..).hdg]
  exact congrArg (·.btCmd) (report_records ..).hdg

/-- The effect of a ratio that waits for its master. -/
def ratioEffect (p : Packet) (w : Work) : Effect :=
  let e := effectOf p w
  { e with time := .master (prm (pPs p) 2), ps := e.ps ++ [wdI (ratioSigma (pPs p) w)] }

theorem admitSingle_ratio (hop : pOp p = 0x081) (hs : ratioSigma (pPs p) w ≠ 0) :
    admitSingle p w = .take (addEffect (ratioEffect p w) (accept p none 0 w)) := by
  have hnone : admitAtOnce p w = none := by
    unfold admitAtOnce
    dsimp only
    rw [hop]
    rfl
  have hstop : stopClass 0x081 = false := by decide
  unfold admitSingle admitRatio
  rw [hnone, hop]
  simp only [hstop, Bool.false_eq_true, if_false, beq_self_eq_true, if_true, beq_iff_eq, hs]
  rfl

theorem addEffect_takenFor {e : Effect} (h : Reportable p w) :
    TakenFor p e (acceptance 0 none w) w (addEffect e (accept p none 0 w)) := by
  have hr := report_reported (acceptance 0 none w) h
  exact ⟨hr.slot, congrArg (· ++ [e]) hr.effects, hr.dispatch, hr.genNow⟩

end

/-! A node's command. -/

/-- The transfer kept until the node answers. -/
def nodeXferOf (p : Packet) (w : Work) : NodeXfer :=
  let ps := pPs p
  let read := pOp p == 0x181
  { cmd := pRef p, read := read, own := if read then ownValues (prm ps 1) (coveredNums 0x181 ps) w else []
    ringB := (objNode (prm ps 1)).1, node := (objNode (prm ps 1)).2, addr := (nodeSpan (pOp p) ps).1
    values := if read then [] else ps.drop 2, count := (nodeSpan (pOp p) ps).2 }

theorem admitSingle_node {p : Packet} {w : Work} (hop : pOp p ∈ [0x180, 0x181]) (hn : nodeCmd (pOp p) (pPs p) = true)
    (hroom : acycRoom (objNode (prm (pPs p) 1)).1 8 (acycBytes (nodeSpan (pOp p) (pPs p)).2) w = .fits) :
    ∃ v, admitSingle p w = .take v ∧ (∀ q e, getSlot q e v = getSlot q e (accept p none 0 w))
      ∧ v.d.cmd.xfers = (accept p none 0 w).d.cmd.xfers ++ [nodeXferOf p w] := by
  have hatOnce : admitAtOnce p w = some (admitNode p w) := by
    unfold admitAtOnce
    simp only [List.mem_cons, List.not_mem_nil, or_false] at hop
    rcases hop with hop | hop <;> rw [hop] at hn ⊢ <;> exact if_pos hn
  have hspan : nodeSpan (pOp p) (pPs p)
      = let own := if pOp p == 0x181 then ownValues (prm (pPs p) 1) (coveredNums 0x181 (pPs p)) w else []
        ((prm (pPs p) 2).toNat + (if pOp p == 0x181 then own.idxOf none else 0),
          if pOp p == 0x181 then own.length - own.idxOf none - own.reverse.idxOf none else (pPs p).length - 2) := by
    simp only [List.mem_cons, List.not_mem_nil, or_false] at hop
    rcases hop with hop | hop <;> rw [hop] at hn ⊢
    · rfl
    · exact readSpan w hn
  rw [admitSingle_atOnce hatOnce]
  unfold nodeXferOf
  dsimp only
  rw [hspan] at hroom ⊢
  obtain ⟨a, ha⟩ := acycReserve_frame (objNode (prm (pPs p) 1)).1 8 (nccN w) (acycBytes (nodeSpan (pOp p) (pPs p)).2)
    (accept p none 0 w)
  rw [hspan] at ha
  unfold admitNode
  dsimp only at hroom ha ⊢
  rw [hroom]
  dsimp only
  rw [ha]
  exact ⟨_, rfl, fun _ _ => rfl, rfl⟩

end Sys2Proof.Machine

namespace Sys2Proof.Claims

open Sys2Proof.Machine

section
variable {c : Instr} {op : Nat} {h : PktHead} {ps : List Word} {s : State}

/-! The end of a command, for the units these protocols keep. -/

theorem ended_sys (i : Nat) (v : Work) : (ended s i v).dev.sys = v.d.sys := by
  obtain ⟨_, _, _, _, h⟩ := bpRefresh_frame (tduDone i v)
  rw [ended, commit_dev, h]
  rfl

theorem ended_trl (i : Nat) (v : Work) : (ended s i v).dev.trl = v.d.trl := by
  obtain ⟨_, _, _, _, h⟩ := bpRefresh_frame (tduDone i v)
  rw [ended, commit_dev, h]
  rfl

theorem ended_hdg (i : Nat) (v : Work) : (ended s i v).dev.hdg = v.d.hdg := by
  obtain ⟨_, _, _, _, h⟩ := bpRefresh_frame (tduDone i v)
  rw [ended, commit_dev, h]
  rfl

theorem ended_xfers (i : Nat) (v : Work) : (ended s i v).dev.cmd.xfers = v.d.cmd.xfers := by
  obtain ⟨_, _, h⟩ := ended_cmd (s := s) i v
  rw [h]

/-- A served packet that is ACCEPTED without an effect of its own. -/
theorem exec_accepted {u v : Work} {eff : Option Word} (hx : exec c s = packet op h ps s)
    (hread : Reads op h ps (packetOf op h ps s)) (hs : Served op h ps s)
    (hv : verdict (packetOf op h ps s) (atAdmission op h ps s) = .take v) (hu : Reportable (packetOf op h ps s) u)
    (hslot : getSlot h.queue h.entry u = getSlot h.queue h.entry (atAdmission op h ps s))
    (hncc : u.d.phase.ncc = s.dev.phase.ncc)
    (hvs : getSlot h.queue h.entry v = getSlot h.queue h.entry (accept (packetOf op h ps s) eff 0 u)) :
    Ends c s fun t => SlotShows op h 0x02 s t ∧ t = ended s (freshId (begin_ s)) v := by
  have hr := report_reported (acceptance 0 eff u) hu
  have hfinal := hvs.trans (hr.slot.trans (congrArg (reportedSlot (pHdr (packetOf op h ps s)) (acceptance 0 eff u)) hslot))
  exact ⟨_, exec_admitted hx hread hs hv, slotShows_ended hs.dispatcherFree hread hfinal (congrArg some hncc)
    (.inr (acceptance_ne_ok 0 eff u)) _, rfl⟩

theorem reads_immediate (hs : Served op h ps s) (hop : op < 1024) (hph : h.phased = false) :
    ps.length + h.phased.toNat < 64 ∧ Reads op h ps (packetOf op h ps s) := by
  have hn : ps.length + h.phased.toNat < 64 := by rw [hph]; exact Nat.lt_of_le_of_lt hs.length_le (by decide)
  exact ⟨hn, reads_packetOf s hop hn⟩

end

section
variable {h : PktHead} {s : State} (ha : Alone h) (hph : h.phased = false)
include ha hph

theorem stateRequest_toTest {t0 : Word} (h9 : t0 = 9) (hs : Served 0x001 h [t0] s) (hp : Passes 0x001 h [t0] s)
    (hno : h.noResult = false) :
    Ends (.stateRequest h t0) s fun t => SlotShows 0x001 h 0x00 s t ∧ t.dev.sys.st = .test := by
  have hbusy := hs.dispatcherFree
  obtain ⟨hn, hread⟩ := reads_immediate hs (by decide) hph
  have hv := (verdict_alone hread (by decide) hp ha).trans
    (admitSingle_toTest hread.op (by rw [hread.ps, h9]; rfl))
  have hsp := setState_spares (packetOf 0x001 h [t0] s) .test (atAdmission 0x001 h [t0] s)
  obtain ⟨t, ht, hin⟩ := exec_completed (exec_of_rowOf (c := .stateRequest h t0) s rfl) (by decide) hn hs hv (hsp.reportable (reportable_atAdmission hbusy)) hsp.slot
    ((congrArg (·.ncc) hsp.phase).trans (atAdmission_ncc hbusy))
  refine ⟨t, ht, (hin.shown hno).1, ?_⟩
  obtain rfl : t = _ := Host.Outcome.next.inj (ht.symm.trans (exec_admitted (exec_of_rowOf (c := .stateRequest h t0) s rfl) hread hs hv))
  rw [ended_sys]
  exact (congrArg (·.st) (report_records ..).sys).trans (setState_st ..)

theorem modeSwitch_offered {m l : Word} (hs : Served 0x002 h [m, l] s) (hp : Passes 0x002 h [m, l] s)
    (hslow : max 1 s.dev.sys.slowDiv ≥ 2 ^ (tabGet {} s.dev.trl.modes m.toNat).slowl) :
    Ends (.modeSwitch h m l) s fun t => SlotShows 0x002 h 0x02 s t
      ∧ ∃ p, t.dev.trl.prop = some p ∧ p.mode = m.toNat ∧ p.n = s.dev.phase.ncc + l ∧ p.agreed = false := by
  have hbusy := hs.dispatcherFree
  obtain ⟨-, hread⟩ := reads_immediate hs (by decide) hph
  obtain ⟨hphase, hsys, htrl, -⟩ := claimed_keeps h.queue h.entry (packetWords 0x002 h [m, l]) hbusy
  have hslow' : 2 ^ (modeRec (prm (pPs (packetOf 0x002 h [m, l] s)) 1).toNat (atAdmission 0x002 h [m, l] s)).slowl
      ≤ slowS (atAdmission 0x002 h [m, l] s) := by
    rw [hread.ps]
    unfold modeRec slowS
    rw [show (atAdmission 0x002 h [m, l] s).d.trl = _ from htrl, show (atAdmission 0x002 h [m, l] s).d.sys = _ from hsys]
    exact hslow
  have hv := (verdict_alone hread (by decide) hp ha).trans (admitSingle_mode hread.op hslow')
  obtain ⟨t, ht, hshow, rfl⟩ := exec_accepted (exec_of_rowOf (c := .modeSwitch h m l) s rfl) hread hs hv (reportable_atAdmission hbusy) rfl (atAdmission_ncc hbusy)
    (getSlot_propose ..)
  refine ⟨_, ht, hshow, { mode := m.toNat, n := s.dev.phase.ncc + l, cmd := pRef (packetOf 0x002 h [m, l] s) }, ?_, rfl, rfl, rfl⟩
  rw [ended_trl, propose_prop, hread.ps, atAdmission_ncc hbusy]
  rfl

theorem gearRatioAt_waits {o p n d r : Word} (hs : Served 0x081 h [o, p, n, d, r] s) (hp : Passes 0x081 h [o, p, n, d, r] s)
    (hsigma : ratioSigma [o, p, n, d, r] (atAdmission 0x081 h [o, p, n, d, r] s) ≠ 0) :
    Ends (.gearRatioAt h o p n d r) s fun t => SlotShows 0x081 h 0x02 s t
      ∧ EffectAdded 0x081 [o, p, n, d, r] (.master p) s t := by
  have hbusy := hs.dispatcherFree
  obtain ⟨-, hread⟩ := reads_immediate hs (by decide) hph
  obtain ⟨-, heff, -⟩ := atAdmission_lists (op := 0x081) (h := h) (ps := [o, p, n, d, r]) hbusy
  have hv := (verdict_alone hread (by decide) hp ha).trans (admitSingle_ratio hread.op (by rwa [hread.ps]))
  obtain ⟨t, ht, hin⟩ := exec_takenFor (exec_of_rowOf (c := .gearRatioAt h o p n d r) s rfl) hread hs hv (addEffect_takenFor (reportable_atAdmission hbusy)) rfl
    (atAdmission_ncc hbusy) heff ⟨hread.op, (hread.isPrefix_keptWords _).trans (List.prefix_append _ _), rfl, rfl⟩
  have htime : (ratioEffect (packetOf 0x081 h [o, p, n, d, r] s) (atAdmission 0x081 h [o, p, n, d, r] s)).time = .master p := by
    unfold ratioEffect
    rw [hread.ps]
    rfl
  exact ⟨t, ht, hin.shown, htime ▸ hin.effect⟩

theorem brakeTest_underWay {v : Word} (hs : Served 0x200 h [v] s) (hp : Passes 0x200 h [v] s) :
    Ends (.brakeTestReq h v) s fun t => SlotShows 0x200 h 0x02 s t
      ∧ ∃ r a, t.dev.hdg.btCmd = some (r, a) ∧ r.id = freshId (begin_ s) ∧ r.q = h.queue.val
        ∧ (v.getLsbD 8 = true → a = v.toNat % 256) := by
  have hbusy := hs.dispatcherFree
  obtain ⟨-, hread⟩ := reads_immediate hs (by decide) hph
  have hv := (verdict_alone hread (by decide) hp ha).trans (admitSingle_brakeTest hread.op)
  have hsp := withBrakeTest_spares (packetOf 0x200 h [v] s) (atAdmission 0x200 h [v] s)
  obtain ⟨t, ht, hshow, rfl⟩ := exec_accepted (exec_of_rowOf (c := .brakeTestReq h v) s rfl) hread hs hv
    (hsp.reportable (reportable_atAdmission hbusy)) hsp.slot ((congrArg (·.ncc) hsp.phase).trans (atAdmission_ncc hbusy))
    ((mbxPut_posted ..).slot _ _)
  refine ⟨_, ht, hshow, _, _, by rw [ended_hdg, brakeRequest_hdg], rfl, rfl, fun h8 => ?_⟩
  unfold testedAxis
  rw [hread.ps]
  exact (if_pos h8).trans (by rw [fld_eq_div_mod, pow_zero, Nat.div_one]; rfl)

theorem nodeCommand_kept {c : Instr} {op : Nat} {ps : List Word} (hr : rowOf c = some (op, h, ps)) (hop : op ∈ [0x180, 0x181])
    (hnode : nodeCmd op ps = true) (hs : Served op h ps s) (hp : Passes op h ps s)
    (hroom : acycRoom (objNode (prm ps 1)).1 8 (acycBytes (nodeSpan op ps).2) (atAdmission op h ps s) = .fits) :
    Ends c s fun t => SlotShows op h 0x02 s t
      ∧ ∃ x, t.dev.cmd.xfers = s.dev.cmd.xfers ++ [x] ∧ x.cmd.id = freshId (begin_ s) ∧ x.addr = (nodeSpan op ps).1
        ∧ x.count = (nodeSpan op ps).2 ∧ x.read = decide (op = 0x181) ∧ x.sent = false := by
  have hbusy := hs.dispatcherFree
  have hops : ∀ o ∈ [0x180, 0x181], o < 1024 ∧ o ≠ 0x141 := by decide
  obtain ⟨hlt, h141⟩ := hops op hop
  obtain ⟨-, hread⟩ := reads_immediate hs hlt hph
  obtain ⟨-, -, -, hcmd⟩ := claimed_keeps h.queue h.entry (packetWords op h ps) hbusy
  obtain ⟨v, hadmit, hslot, hxfers⟩ := admitSingle_node (p := packetOf op h ps s) (w := atAdmission op h ps s) (by rwa [hread.op])
    (by rwa [hread.op, hread.ps]) (by rwa [hread.op, hread.ps])
  have hv := (verdict_alone hread h141 hp ha).trans hadmit
  obtain ⟨t, ht, hshow, rfl⟩ := exec_accepted (exec_of_rowOf s hr) hread hs hv (reportable_atAdmission hbusy) rfl
    (atAdmission_ncc hbusy) (hslot _ _)
  refine ⟨_, ht, hshow, nodeXferOf (packetOf op h ps s) (atAdmission op h ps s), ?_, rfl, ?_, ?_, ?_, rfl⟩
  · rw [ended_xfers, hxfers]
    exact congrArg (· ++ [_]) ((report_records ..).xfers.trans (congrArg (·.xfers) hcmd))
  · unfold nodeXferOf
    rw [hread.op, hread.ps]
  · unfold nodeXferOf
    rw [hread.op, hread.ps]
  · unfold nodeXferOf
    rw [hread.op]
    rfl

end

end Sys2Proof.Claims

namespace Sys2Proof.Proofs

open Sys2Proof.Machine Sys2Proof.Claims

/-- Settles O22: each of these verdicts is a report and one operation beside it, which leaves the reported slot alone; a read's
own numbers are consecutive, so their first and last place give the transfer's span. -/
theorem carriedCommandsAccepted : Obligations.CarriedCommandsAccepted := by
  refine ⟨?stateRequest, ?modeSwitch, ?gearRatioAt, ?brakeTest, ?node⟩
  case stateRequest => intro h t0 s h9 hs hp ha hph hno; exact stateRequest_toTest ha hph h9 hs hp hno
  case modeSwitch => intro h m l s hs hp ha hph hslow; exact modeSwitch_offered ha hph hs hp hslow
  case gearRatioAt => intro h o p n d r s hs hp ha hph hsigma; exact gearRatioAt_waits ha hph hs hp hsigma
  case brakeTest => intro h v s hs hp ha hph; exact brakeTest_underWay ha hph hs hp
  case node => intro c op h ps s hr hop hnode hs hp ha hph hroom; exact nodeCommand_kept ha hph hr hop hnode hs hp hroom

end Sys2Proof.Proofs
end

section
/-! SUPPORT. The choice of the task dispatcher: which jobs a core may take, and which of them it takes (spec/12 R404, R406). -/

namespace Sys2Proof.Machine

open Sys2Proof.Claims

/-- The jobs the dispatcher considers for core c: outside LEAN and HOLD all, else those whose core is c or left open. -/
def mayTake (c : Nat) (w : Work) (j : Job) : Bool :=
  !byAffinity w.d.therm.state || (tduCore j w).all (· == c)

/-- A level's offer to core c: the oldest job at it that the core may take. -/
def levelOffer (c : Nat) (w : Work) (n : Nat) : Option (Nat × Job) :=
  ((tduLevel n w).find? (mayTake c w)).map (n, ·)

theorem tduPick_eq (c : Nat) (w : Work) : tduPick c w = (List.range 8).reverse.findSome? (levelOffer c w) := by
  refine congrArg (List.findSome? · _) (funext fun n => congrArg (Option.map (n, ·)) ?_)
  refine congrArg (List.find? · _) (funext fun j => ?_)
  unfold mayTake
  cases tduCore j w <;> rfl

theorem byAffinity_iff (x : Therm) : byAffinity x = true ↔ x = .lean ∨ x = .hold := by cases x <;> decide

/-- The dispatcher's choice by key and record is the core R406 gives the job to. -/
theorem mayTake_iff_givenTo (c : Nat) (s : State) (j : Job) : mayTake c (begin_ s) j = true ↔ givenTo c j s := by
  unfold mayTake givenTo tduCore
  rw [begin_d]
  cases s.dev.therm.state with
  | full => simp [byAffinity]
  | trim => simp [byAffinity]
  | hold => simp [byAffinity, @eq_comm _ c]
  | lean =>
    cases tabGet 0 s.dev.tdu.lastCore (j.key % 256) with
    | zero => simp [byAffinity]
    | succ k => by_cases h : s.dev.tdu.awake.getLsbD k = true <;> simp [byAffinity, h, @eq_comm _ c]

/-- A search from N - 1 down finds the highest place that answers. -/
theorem findSome?_reverse_range {α : Type} {f : Nat → Option α} {b : α} {n : Nat} (hb : f n = some b) :
    ∀ N, n < N → (∀ m, n < m → m < N → f m = none) → (List.range N).reverse.findSome? f = some b
  | N + 1, hn, habove => by
    rw [List.range_succ, List.reverse_append, List.reverse_singleton, List.singleton_append, List.findSome?_cons]
    obtain rfl | hlt := Nat.eq_or_lt_of_le (Nat.le_of_lt_succ hn)
    · rw [hb]
    · rw [habove N hlt N.lt_succ_self]
      exact findSome?_reverse_range hb N hlt fun m hm hmN => habove m hm (Nat.lt_succ_of_lt hmN)

section
variable {c : Nat} {s : State}

theorem tduLevel_begin (n : Nat) (s : State) : tduLevel n (begin_ s) = s.dev.tdu.levels[n]?.getD [] :=
  List.getD_eq_getElem?_getD ..

/-- A level with no job given to the core offers none. -/
theorem levelOffer_none {n : Nat} (h : ∀ v, s.dev.tdu.levels[n]? = some v → ∀ x ∈ v, ¬ givenTo c x s) :
    levelOffer c (begin_ s) n = none := by
  have hnone : ∀ x ∈ tduLevel n (begin_ s), ¬ mayTake c (begin_ s) x = true := by
    intro x hx
    rw [tduLevel_begin] at hx
    rw [mayTake_iff_givenTo]
    cases hv : s.dev.tdu.levels[n]? with
    | none => simp [hv] at hx
    | some v => exact h v hv x (by rwa [hv] at hx)
  rw [levelOffer, List.find?_eq_none.2 hnone, Option.map_none]

/-- A level offers its first job that is given to the core. -/
theorem levelOffer_first {n : Nat} {l r : List Job} {j : Job} (hv : s.dev.tdu.levels[n]? = some (l ++ j :: r))
    (hj : givenTo c j s) (hl : ∀ x ∈ l, ¬ givenTo c x s) : levelOffer c (begin_ s) n = some (n, j) := by
  have hfind : (tduLevel n (begin_ s)).find? (mayTake c (begin_ s)) = some j := by
    rw [tduLevel_begin, hv, List.find?_eq_some_iff_append]
    exact ⟨(mayTake_iff_givenTo c s j).2 hj, l, r, rfl, fun x hx => by
      rw [Bool.not_eq_true', ← Bool.not_eq_true, mayTake_iff_givenTo]
      exact hl x hx⟩
  rw [levelOffer, hfind, Option.map_some]

theorem tduPick_none (h : ∀ v ∈ s.dev.tdu.levels, ∀ x ∈ v, ¬ givenTo c x s) : tduPick c (begin_ s) = none := by
  rw [tduPick_eq, List.findSome?_eq_none_iff]
  exact fun n _ => levelOffer_none fun v hv => h v (List.mem_of_getElem? hv)

theorem tduPick_highest {n : Nat} {l r : List Job} {j : Job} (hn : n < 8)
    (hv : s.dev.tdu.levels[n]? = some (l ++ j :: r)) (hj : givenTo c j s) (hl : ∀ x ∈ l, ¬ givenTo c x s)
    (habove : ∀ m v, n < m → s.dev.tdu.levels[m]? = some v → ∀ x ∈ v, ¬ givenTo c x s) :
    tduPick c (begin_ s) = some (n, j) := by
  rw [tduPick_eq]
  exact findSome?_reverse_range (levelOffer_first hv hj hl) 8 hn fun m hm _ => levelOffer_none fun v => habove m v hm

/-- The job taken leaves its level, and no equal one stands before it. -/
theorem level_erase {n : Nat} {l r : List Job} {j : Job} (hv : s.dev.tdu.levels[n]? = some (l ++ j :: r))
    (hj : givenTo c j s) (hl : ∀ x ∈ l, ¬ givenTo c x s) : (tduLevel n (begin_ s)).erase j = l ++ r := by
  have hmem : j ∉ l := fun h => hl j h hj
  rw [tduLevel_begin, hv, Option.getD_some, List.erase_append_right _ hmem, List.erase_cons_head]

end

theorem tduDispatch_parked {c : Nat} {w : Work} (h : w.d.tdu.awake.getLsbD c = false) : tduDispatch c w = w := by
  simp [tduDispatch, h]

theorem tduDispatch_idle {c : Nat} {w : Work} (h : tduPick c w = none) : tduDispatch c w = w := by
  simp [tduDispatch, h]

theorem tduDispatch_takes {c n : Nat} {j : Job} {w : Work} (ha : w.d.tdu.awake.getLsbD c = true)
    (h : tduPick c w = some (n, j)) : tduDispatch c w = { w with
      d.tdu.levels := w.d.tdu.levels.set n ((tduLevel n w).erase j)
      d.tdu.lastCore := if byAffinity w.d.therm.state then tabSet 0 w.d.tdu.lastCore (j.key % 256) (c + 1)
        else w.d.tdu.lastCore } := by
  simp [tduDispatch, ha, h]

end Sys2Proof.Machine

namespace Sys2Proof.Proofs

open Sys2Proof.Machine Sys2Proof.Claims

/-- Settles O29: the jobs the dispatcher considers are those given to the core, its search goes down the levels and along each
from the oldest job, and the job found is the first of its kind at its level. -/
theorem taskDispatch : Obligations.TaskDispatch := by
  intro c s hlive
  refine ⟨fun n l r j hn hawake hv hj hl habove => ?takes, fun h => run_unchanged hlive ?none⟩
  case takes =>
    have htaken := tduDispatch_takes hawake (tduPick_highest hn hv hj hl habove)
    rw [level_erase hv hj hl] at htaken
    simp only [byAffinity_iff] at htaken
    exact (run_live _ s hlive).trans (congrArg (Host.Outcome.next <| commit s ·) htaken)
  case none =>
    obtain hparked | hnone := h
    · exact tduDispatch_parked hparked
    · exact tduDispatch_idle (tduPick_none hnone)

end Sys2Proof.Proofs
end

section
/-! SUPPORT. The frames that leave in a graft slot: their header, the records a SET frame takes from the set and the stream, and
the status of a standby (spec/13 R416 to R420, R431, Table 13.2). -/

namespace Sys2Proof.Machine

open Sys2Proof.Claims

/-! The frame. -/

/-- The header of a graft frame with n word pairs. -/
def graftHeader (kind k : Nat) (lane : Bool) (n : Nat) (w : Work) : Word :=
  wd (put 32 4 kind + put 29 3 (2 * k + lane.toNat) + putB 28 lane + putB 27 (kind == 1 && w.d.grf.incomplete)
    + put 16 10 n + put 0 16 w.d.trl.epoch)

theorem padded_eq (body : List Word) : padded body = body ++ List.replicate (2 * ((body.length + 1) / 2) - body.length) 0 := by
  unfold padded
  rcases Nat.mod_two_eq_zero_or_one body.length with h | h
  · rw [h, show 2 * ((body.length + 1) / 2) - body.length = 0 by omega]
    simp
  · rw [h, show 2 * ((body.length + 1) / 2) - body.length = 1 by omega]
    rfl

theorem length_padded (body : List Word) : (padded body).length % 2 = 0 := by
  rw [padded_eq, List.length_append, List.length_replicate]
  omega

theorem isPrefix_padded (body : List Word) : body <+: padded body := by
  rw [padded_eq]
  exact List.prefix_append ..

theorem graftSend_eq (kind k : Nat) (lane : Bool) (ncc : Word) (body : List Word) (w : Work) :
    graftSend kind k lane ncc body w = send (.graft kind (frameBytes
      (graftHeader kind k lane ((body.length + 1) / 2) w :: ncc :: padded body))) w := by
  rw [padded_eq]
  rfl

theorem headerIs_graftHeader {kind k : Nat} (hkind : kind < 16) (hk : k < 4) (lane : Bool) (n : Nat) (w : Work) :
    HeaderIs kind (2 * k + (if lane then 1 else 0)) (w.d.trl.epoch % 65536) (graftHeader kind k lane n w) := by
  have hl : (if lane then 1 else 0) = lane.toNat := by cases lane <;> rfl
  have hb := lane.toNat_le
  have hi := (kind == 1 && w.d.grf.incomplete).toNat_le
  have hn : n % 2 ^ 10 < 2 ^ 10 := Nat.mod_lt _ (by decide)
  have he : w.d.trl.epoch % 65536 < 65536 := Nat.mod_lt _ (by decide)
  have hw : (graftHeader kind k lane n w).toNat = kind * 2 ^ 32 + (2 * k + lane.toNat) * 2 ^ 29 + lane.toNat * 2 ^ 28
      + (kind == 1 && w.d.grf.incomplete).toNat * 2 ^ 27 + n % 2 ^ 10 * 2 ^ 16 + w.d.trl.epoch % 65536 := by
    unfold graftHeader
    rw [put_eq (n := 4) hkind, put_eq (n := 3) (show 2 * k + lane.toNat < 2 ^ 3 by omega)]
    simp only [put, putB_eq, Nat.shiftLeft_eq, wd, BitVec.toNat_ofNat]
    omega
  unfold HeaderIs bitsOf
  rw [hl, hw]
  generalize lane.toNat = b, (kind == 1 && w.d.grf.incomplete).toNat = i, n % 2 ^ 10 = m, w.d.trl.epoch % 65536 = e at *
  refine ⟨?kind, ?seqi, by omega⟩
  case kind =>
    exact div_mod_of_fields (hi := 0) (lo := (2 * k + b) * 2 ^ 29 + b * 2 ^ 28 + i * 2 ^ 27 + m * 2 ^ 16 + e)
      (by omega) (by omega) hkind
  case seqi =>
    exact div_mod_of_fields (hi := kind) (lo := b * 2 ^ 28 + i * 2 ^ 27 + m * 2 ^ 16 + e) (by omega) (by omega) (by omega)

/-! The status of a standby (R418). -/

theorem statusBody_fields {w : Work} (hr : w.d.sys.role = .standby) : ∃ v : Word, statusBody w = [v, 0]
    ∧ bitsOf v 32 4 = w.d.boot.unitId % 16 ∧ bitsOf v 30 2 = 2 ∧ v.getLsbD 29 = w.d.sys.stale
    ∧ v.getLsbD 28 = w.d.grf.suspect ∧ bitsOf v 0 16 = w.d.trl.epoch % 65536 := by
  have hs := w.d.sys.stale.toNat_le
  have hx := w.d.grf.suspect.toNat_le
  have hw := (graftReady w && !w.d.grf.suspect && !w.d.grf.syncOk).toNat_le
  refine ⟨_, rfl, ?_⟩
  rw [hr]
  refine ⟨?_, ?_, bit_of_field ?_, bit_of_field ?_, ?_⟩
  all_goals
    simp only [bitsOf, roleCode, put, putB_eq, Nat.shiftLeft_eq, wd, BitVec.toNat_ofNat]
    generalize w.d.sys.stale.toNat = a, w.d.grf.suspect.toNat = b,
      (graftReady w && !w.d.grf.suspect && !w.d.grf.syncOk).toNat = c at *
    omega

/-! The body of a SET frame: records of the set from its front, then records of the background stream. -/

/-- What a frame takes is the records that stood at the front of the set. -/
theorem takeRecords_front (room : Nat) (l : List (List Word)) :
    ∃ r, l = r ++ (takeRecords room l).2 ∧ r.flatten = (takeRecords room l).1 := by
  induction l generalizing room with
  | nil => exact ⟨[], rfl, rfl⟩
  | cons x l ih =>
    unfold takeRecords
    split
    · exact ⟨[], rfl, rfl⟩
    · obtain ⟨r, hl, hr⟩ := ih (room - x.length)
      exact ⟨x :: r, congrArg (x :: ·) hl, congrArg (x ++ ·) hr⟩

/-- Only the places of the background stream and the count of free values have changed. -/
def Streamed (w v : Work) : Prop :=
  v = { w with d.grf.statPos := v.d.grf.statPos, d.grf.rotPos := v.d.grf.rotPos, d.freeCtr := v.d.freeCtr }

section
variable {u v w : Work}

theorem Streamed.refl (w : Work) : Streamed w w := rfl

theorem Streamed.trans (h : Streamed w u) (k : Streamed u v) : Streamed w v :=
  Eq.trans k (congrArg (fun x : Work => { x with
    d.grf.statPos := v.d.grf.statPos, d.grf.rotPos := v.d.grf.rotPos, d.freeCtr := v.d.freeCtr }) h)

end

theorem freeWords_streamed (n : Nat) (w : Work) : Streamed w (freeWords n w).2 := by
  unfold freeWords
  refine List.foldlRecOn (motive := fun acc : List Word × Work => Streamed w acc.2) _ _ (.refl w) fun acc h k _ => ?_
  exact h.trans rfl

theorem recPlan_streamed (x : Nat) (w : Work) : Streamed w (recPlan x w).2 := freeWords_streamed _ w

theorem recStage_streamed (b : Bundle) (w : Work) : Streamed w (recStage b w).2 := freeWords_streamed 16 w

theorem rotRec_streamed (k : Nat) (w : Work) : Streamed w (rotRec k w).2 := by
  unfold rotRec
  dsimp only
  split
  · exact .refl w
  · exact recPlan_streamed ..
  · exact recPlan_streamed ..
  · exact recStage_streamed ..
  · exact .refl w

/-- The stream adds whole records behind what the frame holds. -/
theorem streamTake_adds (f room : Nat) (out : List Word) (w : Work) :
    out <+: (streamTake f room out w).1 ∧ Streamed w (streamTake f room out w).2 := by
  induction f generalizing out w with
  | zero => exact ⟨List.prefix_rfl, .refl w⟩
  | succ f ih =>
    have hrec : Streamed w (if w.d.grf.statPos < staticTotal w then (staticRec w.d.grf.statPos w, w)
        else rotRec w.d.grf.rotPos w).2 := by
      split
      · exact .refl w
      · exact rotRec_streamed ..
    unfold streamTake
    dsimp only
    generalize (if w.d.grf.statPos < staticTotal w then (staticRec w.d.grf.statPos w, w)
      else rotRec w.d.grf.rotPos w) = x at hrec ⊢
    split
    · exact ⟨List.prefix_rfl, hrec⟩
    · obtain ⟨hp, hs⟩ := ih (out ++ x.1) (if w.d.grf.statPos < staticTotal x.2
        then { x.2 with d.grf.statPos := w.d.grf.statPos + 1 }
        else { x.2 with d.grf.rotPos := (w.d.grf.rotPos + 1) % max 1 (rotTotal x.2) })
      refine ⟨(List.prefix_append ..).trans hp, hrec.trans (.trans ?_ hs)⟩
      split <;> exact rfl

/-! The slot (R416). -/

section
variable {k : Nat} {lane : Bool} {w : Work}

theorem graftSlot_silent (h : graftRuns w = false ∨ laneUp lane w = false) : graftSlot k lane w = w := by
  unfold graftSlot
  rw [if_pos (by rcases h with h | h <;> simp [h])]

variable (hg : graftRuns w = true) (hl : laneUp lane w = true)
include hg hl

theorem graftSlot_standby (hr : w.d.sys.role = .standby) :
    graftSlot k lane w = graftSend 2 k lane w.d.grf.last (statusBody w) w := by
  simp [graftSlot, hg, hl, hr]

/-- A unit in charge sends one SET frame: records from the front of the set, and what the stream adds. -/
theorem graftSlot_inCharge (hr : w.d.sys.role ≠ .standby) : ∃ (r rest : List (List Word)) (ws : List Word) (v : Work),
    w.d.grf.out = r ++ rest ∧ r.flatten <+: ws ∧ Streamed { w with d.grf.out := rest } v
      ∧ graftSlot k lane w = graftSend 1 k lane v.d.grf.outNcc ws v := by
  let room := 2 * pairsMax w.d.sys.rate
  let x := takeRecords room w.d.grf.out
  let y := streamTake (room + 1) room x.1 { w with d.grf.out := x.2 }
  obtain ⟨r, hout, hflat⟩ := takeRecords_front room w.d.grf.out
  obtain ⟨hp, hs⟩ := streamTake_adds (room + 1) room x.1 { w with d.grf.out := x.2 }
  refine ⟨r, x.2, y.1, y.2, hout, hflat ▸ hp, hs, ?_⟩
  simp [graftSlot, hg, hl, hr, x, y, room]

end

end Sys2Proof.Machine

namespace Sys2Proof.Claims

open Sys2Proof.Machine

section
variable {k : Fin 4} {lane : Bool} {s : State} (hlive : live s = true) (hg : graftRuns (begin_ s) = true)
  (hl : laneUp lane (begin_ s) = true)
include hlive hg hl

theorem standby_sendsStatus (hr : s.dev.sys.role = .standby) : Ends (.graftSlot k lane) s fun t => ∃ h v : Word,
    t = withDev s { s.dev with out := s.dev.out ++ [.graft 2 (frameBytes [h, s.dev.grf.last, v, 0])] }
      ∧ HeaderIs 2 (2 * k + (if lane then 1 else 0)) (s.dev.trl.epoch % 65536) h
      ∧ bitsOf v 32 4 = s.dev.boot.unitId % 16 ∧ bitsOf v 30 2 = 2 ∧ v.getLsbD 29 = s.dev.sys.stale
      ∧ v.getLsbD 28 = s.dev.grf.suspect ∧ bitsOf v 0 16 = s.dev.trl.epoch % 65536 := by
  obtain ⟨v, hv, hfields⟩ := statusBody_fields (w := begin_ s) hr
  refine ends_run (f := graftSlot k.val lane) rfl hlive ?_
  have hpad : padded [v, 0] = [v, 0] := if_neg (by simp)
  rw [graftSlot_standby hg hl hr, graftSend_eq, hv, hpad]
  exact ⟨_, v, rfl, headerIs_graftHeader (by decide) k.isLt lane _ (begin_ s), hfields⟩

theorem inCharge_sendsSet (hr : s.dev.sys.role ≠ .standby) : Ends (.graftSlot k lane) s fun t =>
    ∃ (h : Word) (body : List Word) (l : List (List Word)),
      t.dev.out = s.dev.out ++ [.graft 1 (frameBytes (h :: s.dev.grf.outNcc :: body))]
        ∧ HeaderIs 1 (2 * k + (if lane then 1 else 0)) (s.dev.trl.epoch % 65536) h
        ∧ s.dev.grf.out = l ++ t.dev.grf.out ∧ l.flatten <+: body ∧ body.length % 2 = 0
        ∧ SameMemory s t ∧ t.dev.cmd = s.dev.cmd := by
  obtain ⟨r, rest, ws, v, hout, hp, hs, hx⟩ := graftSlot_inCharge (k := k) hg hl hr
  refine ends_run (f := graftSlot k.val lane) rfl hlive ?_
  rw [hx, graftSend_eq, hs]
  exact ⟨_, padded ws, r, rfl, headerIs_graftHeader (by decide) k.isLt lane _ _, hout, hp.trans (isPrefix_padded ws),
    length_padded ws, sameMemory_commit rfl, rfl⟩

end

end Sys2Proof.Claims

namespace Sys2Proof.Proofs

open Sys2Proof.Machine Sys2Proof.Claims

/-- Settles O51: a silent slot does nothing, a standby's frame is its status, and the frame of a unit in charge takes records
from the front of the set before what the stream adds behind them. -/
theorem graftSlots : Obligations.GraftSlots := by
  intro k lane s hlive
  exact ⟨fun h => run_unchanged hlive (graftSlot_silent h), standby_sendsStatus hlive, inCharge_sendsSet hlive⟩

end Sys2Proof.Proofs
end

section
/-! SUPPORT. What a received graft frame leaves at a standby and at the active, and what a missing one leaves at a standby
(spec/13 R418, R426, R429, R432). -/

namespace Sys2Proof.Machine

open Sys2Proof.Claims

/-! Frames received. -/

theorem modDiffN_self (n a : Nat) : modDiffN n a a = 0 := by simp [modDiffN]

/-- The lane bits and the length the model checks are those of the rules (Table 13.2). -/
theorem whole_of_wholeOn {lane : Bool} {ws : List Word} (h : WholeOn lane ws) :
    (bit (nth 0 ws 0) 28 == lane && decide (fld (nth 0 ws 0) 29 3 % 2 = lane.toNat)
      && ws.length == 2 + 2 * fld (nth 0 ws 0) 16 10) = true := by
  obtain ⟨h28, h29, hlen⟩ := h
  have hseq : fld (nth 0 ws 0) 29 3 % 2 = lane.toNat := by
    rw [← h29, fld_eq_div_mod, Nat.mod_mod_of_dvd _ (by decide), ← Nat.toNat_testBit]
    rfl
  rw [bitsOf_eq] at hlen
  simp only [Bool.and_eq_true, beq_iff_eq, decide_eq_true_eq]
  exact ⟨⟨h28, hseq⟩, hlen⟩

theorem fields_of_headerIs {kind seqi epoch : Nat} {ws : List Word} (h : HeaderIs kind seqi epoch (ws.getD 0 0)) :
    fld (nth 0 ws 0) 32 4 = kind ∧ fld (nth 0 ws 0) 29 3 = seqi ∧ fld (nth 0 ws 0) 0 16 = epoch := by
  simp only [HeaderIs, bitsOf_eq] at h
  exact h

section
variable {lane ok : Bool} {bytes : List Nat} {ws : List Word} {w : Work}

theorem graftWords_unused (hu : graftUsed w = false) : graftWords lane ok ws w = w := by simp [graftWords, hu]

theorem graftFrame_discarded (h : ok = false ∨ frameWords bytes = none ∨ graftUsed w = false) :
    graftFrame lane ok bytes w = w := by
  unfold graftFrame
  split
  · next ws hws =>
    rcases h with rfl | h | h
    · cases hws
    · rw [h, ite_self] at hws
      cases hws
    · exact graftWords_unused h
  · rfl

section
variable {seqi : Nat} (hu : graftUsed w = true) (hw : WholeOn lane ws)
include hu hw

/-- A whole SET frame of the present epoch at a standby (R418). -/
theorem graftWords_set (hr : w.d.sys.role = .standby) (hh : HeaderIs 1 seqi w.d.trl.epoch (ws.getD 0 0)) :
    graftWords lane true ws w = setFrame seqi (bit (ws.getD 0 0) 27) w.d.trl.epoch (ws.getD 1 0) (ws.drop 2) w := by
  obtain ⟨hk, hs, he⟩ := fields_of_headerIs hh
  have hwhole := whole_of_wholeOn hw
  unfold graftWords
  rw [hs] at hwhole
  simp only [hwhole, hu, hr, hk, hs, he, modDiffN_self, Bool.true_and]
  simp [nth]

/-- A whole STATUS frame of the present epoch at the active (R418). -/
theorem graftWords_status (hr : w.d.sys.role = .active) (hh : HeaderIs 2 seqi w.d.trl.epoch (ws.getD 0 0)) :
    graftWords lane true ws w = statusFrame (ws.getD 2 0) { w with d.grf.got := w.d.grf.got ||| 2 ^ seqi } := by
  obtain ⟨hk, hs, he⟩ := fields_of_headerIs hh
  have hwhole := whole_of_wholeOn hw
  unfold graftWords
  rw [hs] at hwhole
  simp only [hwhole, hu, hr, hk, hs, he, modDiffN_self, Bool.true_and]
  simp [Nat.one_shiftLeft, nth]

end

/-- The frame is kept under its place, with its cycle; a new cycle begins a new set (R426). -/
theorem setFrame_kept (seqi : Nat) (inc : Bool) (ncc : Word) (body : List Word) (hs : w.d.grf.suspect = false) :
    setFrame seqi inc w.d.trl.epoch ncc body w = { w with
      d.grf.rx := tabIns (if w.d.grf.rxNcc = ncc then w.d.grf.rx else []) seqi body
      d.grf.rxNcc := ncc, d.grf.rxBad := (decide (w.d.grf.rxNcc = ncc) && w.d.grf.rxBad) || inc
      d.grf.got := w.d.grf.got ||| 2 ^ seqi, d.grf.missRun := 0, d.grf.gotStatus := true } := by
  unfold setFrame
  by_cases hn : w.d.grf.rxNcc = ncc <;> simp [hs, hn, Nat.one_shiftLeft]

/-- An active without RINGWAIT to answer only notes what the status says. -/
theorem statusFrame_active {v : Word} (hr : w.d.sys.role = .active) (hv : bit v 27 = false) :
    ∃ p q, statusFrame v w = { w with
      d.grf.gotStatus := true, d.grf.pUnit := fld v 32 4, d.grf.pRole := fld v 30 2, d.grf.pStale := bit v 29
      d.grf.pSuspect := bit v 28, d.grf.pRingWait := false, d.grf.pEpoch := fld v 0 16, d.grf.statPos := p
      d.grf.rotPos := q } := by
  refine ⟨if fld v 30 2 == 2 && w.d.grf.pRole != 2 then 0 else w.d.grf.statPos,
    if fld v 30 2 == 2 && w.d.grf.pRole != 2 then 0 else w.d.grf.rotPos, ?_⟩
  unfold statusFrame
  simp only [hv, hr, when_, Bool.false_and, Bool.false_eq_true, if_false]
  rw [if_neg (by simp)]

end

/-! Missing frames. -/

section
variable {k : Nat} {w : Work}

/-- The lanes whose frame of slot k is missing. -/
def missingLanes (k : Nat) (w : Work) : List Bool :=
  [false, true].filter (fun b =>
    (if w.d.sys.role == .standby then laneCounts b w else laneUp b w) && !w.d.grf.got.testBit (2 * k + b.toNat))

theorem graftSlotEnd_off (h : graftRuns w = false) : graftSlotEnd k w = w := by simp [graftSlotEnd, h]

theorem graftSlotEnd_on (h : graftRuns w = true) :
    graftSlotEnd k w = each (missingLanes k w) (fun _ w => frameMissing w) w := by
  simp [graftSlotEnd, h, missingLanes]

theorem graftSlotEnd_complete (h0 : w.d.grf.got.testBit (2 * k) = true) (h1 : w.d.grf.got.testBit (2 * k + 1) = true) :
    graftSlotEnd k w = w := by
  have hm : missingLanes k w = [] := by simp [missingLanes, h0, h1]
  cases h : graftRuns w
  case false => exact graftSlotEnd_off h
  case true => rw [graftSlotEnd_on h, hm, each_nil]

theorem frameMissing_standby (hr : w.d.sys.role = .standby) (hm : w.d.grf.miss + 1 < 0xFFFFFFFF) :
    frameMissing w = setMissing { w with d.grf.miss := w.d.grf.miss + 1 } := by
  have hs : satInc 0xFFFFFFFF w.d.grf.miss = (w.d.grf.miss + 1, false) := by
    unfold satInc
    rw [if_neg (by omega), decide_eq_false (by omega)]
  simp [frameMissing, hs, hr, when_]

theorem setMissing_first (hn : w.d.grf.missRun = 0) : setMissing w = { w with
    d.grf.eligible := !w.d.sys.stale && !w.d.grf.suspect, d.grf.suspect := true, d.grf.rotOk := false, d.grf.goodSets := 0
    d.grf.missRun := 1, d.grf.rxBad := true } := by
  simp [setMissing, hn]

theorem setMissing_second (hn : w.d.grf.missRun = 1) : setMissing w = { w with d.grf.missRun := 2, d.grf.rxBad := true } := by
  simp [setMissing, hn]

/-- The third of a run decides the takeover, or logs that the standby was not eligible (R432). -/
theorem setMissing_third (hn : w.d.grf.missRun = 2) (hd : w.d.grf.decided = none) : setMissing w =
    let v := { w with d.grf.missRun := 3, d.grf.rxBad := true }
    if w.d.grf.eligible then { v with d.grf.decided := some w.d.ptm.frc } else logEvent .grf 0 2 0 v := by
  simp [setMissing, hn, hd]

end

end Sys2Proof.Machine

namespace Sys2Proof.Claims

open Sys2Proof.Machine

theorem graftUsed_iff (s : State) : graftUsed (begin_ s) = true ↔ UsesGraft s := by
  unfold graftUsed hasGraft UsesGraft
  rw [Bool.and_eq_true, begin_variant]
  cases s.variant <;> simp [isBig]

section
variable {lane ok : Bool} {bytes : List Nat} {ws : List Word} {seqi epoch : Nat} {s : State} (hl : live s = true)
include hl

theorem graftFrame_ignored (h : ok = false ∨ frameWords bytes = none ∨ ¬ UsesGraft s) :
    exec (.graftFrameReceived lane ok bytes) s = .next s := by
  rw [← graftUsed_iff, Bool.not_eq_true] at h
  exact run_unchanged hl (graftFrame_discarded h)

variable (hok : ok = true) (hws : frameWords bytes = some ws)
include hok hws

theorem exec_graftFrame : exec (.graftFrameReceived lane ok bytes) s = .next (commit s (graftWords lane true ws (begin_ s))) := by
  refine (run_live (graftFrame lane ok bytes) s hl).trans ?_
  rw [graftFrame, hok, if_pos rfl, hws]

variable (hu : UsesGraft s) (hw : WholeOn lane ws) (he : epoch = s.dev.trl.epoch)
include hu hw he

theorem setFrame_received (hh : HeaderIs 1 seqi epoch (ws.getD 0 0)) (hr : s.dev.sys.role = .standby)
    (hs : s.dev.grf.suspect = false) :
    exec (.graftFrameReceived lane ok bytes) s = .next (withGrf { s.dev.grf with
      rx := tabIns (if s.dev.grf.rxNcc = ws.getD 1 0 then s.dev.grf.rx else []) seqi (ws.drop 2)
      rxNcc := ws.getD 1 0, missRun := 0, got := s.dev.grf.got ||| 2 ^ seqi, gotStatus := true
      rxBad := (decide (s.dev.grf.rxNcc = ws.getD 1 0) && s.dev.grf.rxBad) || (ws.getD 0 0).getLsbD 27 } s) := by
  subst he
  rw [exec_graftFrame hl hok hws, graftWords_set ((graftUsed_iff s).2 hu) hw hr hh, setFrame_kept _ _ _ _ hs]
  rfl

theorem statusFrame_received {v : Word} (hh : HeaderIs 2 seqi epoch (ws.getD 0 0)) (hr : s.dev.sys.role = .active)
    (hv : v = ws.getD 2 0) (h27 : v.getLsbD 27 = false) :
    Ends (.graftFrameReceived lane ok bytes) s fun t =>
      let g := t.dev.grf
      g.gotStatus = true ∧ g.pUnit = bitsOf v 32 4 ∧ g.pRole = bitsOf v 30 2 ∧ g.pStale = v.getLsbD 29
        ∧ g.pSuspect = v.getLsbD 28 ∧ g.pRingWait = false ∧ g.pEpoch = bitsOf v 0 16
        ∧ g.got = (s.dev.grf.got ||| 2 ^ seqi) ∧ t = withGrf g s := by
  subst he hv
  have hx := graftWords_status (w := begin_ s) ((graftUsed_iff s).2 hu) hw hr hh
  obtain ⟨p, q, hy⟩ := statusFrame_active
    (w := begin_ (withGrf { s.dev.grf with got := s.dev.grf.got ||| 2 ^ seqi } s)) hr h27
  refine ⟨_, (exec_graftFrame hl hok hws).trans (congrArg (Host.Outcome.next <| commit s ·) (hx.trans hy)), ?_⟩
  simp only [bitsOf_eq]
  exact ⟨rfl, rfl, rfl, rfl, rfl, rfl, rfl, rfl, rfl⟩

end

section
variable {k : Fin 4} {s : State} (hl : live s = true) (hm : MissesSlot k s)
include hm

/-- What a standby that misses the frame of its only lane does about it. -/
theorem graftSlotEnd_missed : graftSlotEnd k (begin_ s)
    = setMissing (begin_ (withGrf { s.dev.grf with miss := s.dev.grf.miss + 1 } s)) := by
  obtain ⟨hruns, hrole, hl0, hl1, hgot, hmiss⟩ := hm
  have hlanes : missingLanes k (begin_ s) = [false] := by
    simp [missingLanes, hrole, laneCounts, laneUp, hl0, hl1, hgot]
  rw [graftSlotEnd_on hruns, hlanes]
  exact frameMissing_standby (w := begin_ s) hrole hmiss

include hl

theorem exec_graftSlotEnd_missed : exec (.graftSlotEnd k) s
    = .next (commit s (setMissing (begin_ (withGrf { s.dev.grf with miss := s.dev.grf.miss + 1 } s)))) := by
  rw [← graftSlotEnd_missed hm]
  exact run_live (graftSlotEnd k.val) s hl

theorem thirdMiss_ineligible (hn : s.dev.grf.missRun = 2) (hd : s.dev.grf.decided = none) (hel : s.dev.grf.eligible = false) :
    Ends (.graftSlotEnd k) s fun t =>
      t.dev.grf = { s.dev.grf with miss := s.dev.grf.miss + 1, missRun := 3, rxBad := true }
        ∧ (logReady s → EventLogged 16 0 2 0 s t) := by
  let g : GrfSt := { s.dev.grf with miss := s.dev.grf.miss + 1 }
  let g' : GrfSt := { g with missRun := 3, rxBad := true }
  refine ⟨_, exec_graftSlotEnd_missed hl hm, ?_⟩
  have hx : setMissing (begin_ (withGrf g s)) = logEvent .grf 0 2 0 (begin_ (withGrf g' s)) := by
    rw [setMissing_third (w := begin_ (withGrf g s)) hn hd]
    exact if_neg (by simp [g, withGrf, withDev, hel])
  rw [hx]
  exact ⟨logEvent_grf .., fun hr => eventLogged_logEvent (s := withGrf g' s) .grf 0 hr (by decide) (by decide)⟩

end

end Sys2Proof.Claims

namespace Sys2Proof.Proofs

open Sys2Proof.Machine Sys2Proof.Claims

/-- Settles O52: a good frame is kept or noted by its kind and the unit's role, and a missing one extends the standby's run,
whose first and third frame take effect. -/
theorem graftFramesReceived : Obligations.GraftFramesReceived := by
  refine ⟨fun lane ok bytes s hl => ⟨graftFrame_ignored hl, fun ws seqi epoch hok hws hu hw _ he => ?received⟩,
    fun k s hl => ⟨fun h => run_unchanged hl (graftSlotEnd_off h), fun h0 h1 => run_unchanged hl (graftSlotEnd_complete h0 h1),
      fun hm => ?missed⟩⟩
  case received =>
    exact ⟨setFrame_received hl hok hws hu hw he, fun v => statusFrame_received hl hok hws hu hw he⟩
  case missed =>
    have hx := exec_graftSlotEnd_missed hl hm
    refine ⟨fun hn => ?first, fun hn => ?second, fun hn hd hel => ?third, thirdMiss_ineligible hl hm⟩
    case first => rw [hx, setMissing_first (by exact hn)]; rfl
    case second => rw [hx, setMissing_second (by exact hn)]; rfl
    case third =>
      rw [hx, setMissing_third (by exact hn) (by exact hd)]
      dsimp only
      rw [if_pos (by exact hel)]
      rfl

end Sys2Proof.Proofs
end

section
/-! SUPPORT. The events of the graft link, and the rebuild of the power timeline after a takeover (spec/13 R419, R441, spec/12
R393, R396, R408). -/

namespace Sys2Proof.Machine

open Sys2Proof.Claims

/-! The link. -/

/-- A role taken shows in the role, the interrupts and what is sent. -/
theorem setRole_frame (r : Role) (w : Work) :
    ∃ h o, setRole r w = { w with d.sys.role := r, d.hif := h, d.out := o } := by
  unfold setRole
  split
  · next hr => exact ⟨w.d.hif, w.d.out, by rw [← hr]⟩
  · obtain ⟨h, o, e⟩ := irq_frame 10 { w with d.sys.role := r }
    exact ⟨h, o, e⟩

section
variable {lane : Bool} {w : Work}

theorem laneDown_other (h : hasGraft w.variant = false ∨ laneUp lane w = false) : laneDown lane w = w :=
  if_pos (by rcases h with h | h <;> simp [h])

theorem laneDown_up (hg : hasGraft w.variant = true) (hu : laneUp lane w = true) : laneDown lane w
    = logEvent .grf lane.toNat 7 0 (if lane then { w with d.grf.lane1 := false } else { w with d.grf.lane0 := false }) :=
  if_neg (by simp [hg, hu])

theorem laneRaise_absent (hg : hasGraft w.variant = false) : laneRaise lane w = w := if_pos (by simp [hg])

theorem laneRaise_present (hg : hasGraft w.variant = true) :
    laneRaise lane w = if lane then { w with d.grf.lane1 := true } else { w with d.grf.lane0 := true } :=
  if_neg (by simp [hg])

end

/-! The timeline. -/

/-- An entry that a table reads other than the default is one of its own. -/
theorem mem_of_tabGet_ne {α : Type} {d : α} {t : Tab α} {j : Nat} (h : tabGet d t j ≠ d) : (j, tabGet d t j) ∈ t := by
  induction t with
  | nil => exact absurd rfl h
  | cons kv t ih =>
    rw [tabGet] at h ⊢
    split
    · next hj => rw [hj]; exact List.mem_cons_self
    · next hj =>
      rw [if_neg hj] at h
      exact List.mem_cons_of_mem kv (ih h)

/-- System registers and plans are as before, and so are the curves in force and whether a rebuild is due. -/
structure CurvesStay (w v : Work) : Prop where
  sys : v.d.sys = w.d.sys
  pln : v.d.pln = w.d.pln
  rebuild : v.d.egv.rebuild = w.d.egv.rebuild
  curves : v.d.egv.curves = w.d.egv.curves

section
variable {u v w : Work}

theorem CurvesStay.refl (w : Work) : CurvesStay w w := ⟨rfl, rfl, rfl, rfl⟩

theorem CurvesStay.trans (h : CurvesStay w u) (k : CurvesStay u v) : CurvesStay w v :=
  ⟨k.sys.trans h.sys, k.pln.trans h.pln, k.rebuild.trans h.rebuild, k.curves.trans h.curves⟩

theorem curvesStay_each {α : Type} {f : α → Work → Work} (l : List α) (h : ∀ a v, CurvesStay v (f a v)) (w : Work) :
    CurvesStay w (each l f w) := each_keeps l (fun a _ v hv => hv.trans (h a v)) (.refl w)

end

theorem wr_curvesStay (a : Nat) (x : Word) (w : Work) : CurvesStay w (wr a x w) := by
  obtain ⟨_, _, _, h⟩ := wr_frame a x w
  rw [h]
  exact ⟨rfl, rfl, rfl, rfl⟩

theorem logEvent_curvesStay (b : Blk) (i c x : Nat) (w : Work) : CurvesStay w (logEvent b i c x w) :=
  ⟨logEvent_sys .., logEvent_pln .., by rw [logEvent_egv], by rw [logEvent_egv]⟩

theorem irq_curvesStay (i : Nat) (w : Work) : CurvesStay w (irq i w) :=
  ⟨irq_sys .., irq_pln .., by rw [irq_egv], by rw [irq_egv]⟩

/-- Writing the timeline leaves the curves it shows alone (R408). -/
theorem egvWrite_curvesStay (w : Work) : CurvesStay w (egvWrite w) := by
  unfold egvWrite
  extract_lets e tl v
  have h : CurvesStay w v :=
    curvesStay_each _ (fun _ u => iteInduction (fun _ => .refl u) fun _ => wr_curvesStay ..) w
  exact ⟨h.sys, h.pln, h.rebuild, h.curves⟩

/-- So does reporting the bins that fail (R393). -/
theorem egvChanged_curvesStay (all : Bool) (w : Work) : CurvesStay w (egvChanged all w) := by
  have h := egvWrite_curvesStay w
  unfold egvChanged
  dsimp only
  split
  · exact h
  · refine h.trans (curvesStay_each _ (fun p u => ?_) _)
    have hu : CurvesStay u { u with
        d.egv.excess := true, d.egv.xbin := wd (u.d.egv.bin + p.1), d.egv.xdet := p.2 } := ⟨rfl, rfl, rfl, rfl⟩
    exact hu.trans ((logEvent_curvesStay ..).trans (irq_curvesStay ..))

/-- The axes whose move carries a curve into the rebuilt timeline (R396). -/
def movingAxes (w : Work) : List Nat :=
  (plnKnown w).filter (fun a => let k := (getPln a w).kind; k == .posMove || k == .velMove)

theorem movingAxes_eq_nil {w : Work} (h : ∀ kv ∈ w.d.pln.axes, kv.2.kind ≠ .posMove ∧ kv.2.kind ≠ .velMove) :
    movingAxes w = [] := by
  refine List.filter_eq_nil_iff.2 fun a _ => ?_
  by_cases hd : getPln a w = {}
  · simp [hd]
  · have hk : (getPln a w).kind ≠ .posMove ∧ (getPln a w).kind ≠ .velMove := h _ (mem_of_tabGet_ne hd)
    simpa using hk

theorem timelineRebuild_not {w : Work} (h : w.d.egv.rebuild = false) : timelineRebuild w = w := if_pos (by simp [h])

/-- The work of a rebuild before its check: no curve is in force. -/
def clearedTimeline (w : Work) : Work := { w with d.egv.rebuild := false, d.egv.curves := [] }

/-- The rebuild enters the curves of the moving axes into a cleared timeline, and then checks the whole of it. -/
theorem timelineRebuild_due {w : Work} (h : w.d.egv.rebuild = true) : ∃ v : Work,
    timelineRebuild w = egvChanged true (logEvent .egv 0 3 0 v) ∧ v.d.sys = w.d.sys ∧ v.d.pln = w.d.pln
      ∧ v.d.egv.rebuild = false ∧ (movingAxes (clearedTimeline w) = [] → v.d.egv.curves = []) := by
  unfold timelineRebuild
  rw [if_neg (by simp [h])]
  extract_lets d e w1 moving v
  refine ⟨v, rfl, ?_⟩
  refine each_keeps (P := fun u : Work => u.d.sys = w.d.sys ∧ u.d.pln = w.d.pln ∧ u.d.egv.rebuild = false
    ∧ (movingAxes (clearedTimeline w) = [] → u.d.egv.curves = [])) moving ?_ ⟨rfl, rfl, rfl, fun _ => rfl⟩
  rintro a ha u ⟨hsys, hpln, hre, -⟩
  have hne : movingAxes (clearedTimeline w) ≠ [] := List.ne_nil_of_mem ha
  have hnext : ∀ x : Work, x.d.sys = u.d.sys ∧ x.d.pln = u.d.pln ∧ x.d.egv.rebuild = u.d.egv.rebuild →
      x.d.sys = w.d.sys ∧ x.d.pln = w.d.pln ∧ x.d.egv.rebuild = false
        ∧ (movingAxes (clearedTimeline w) = [] → x.d.egv.curves = []) := fun x ⟨h1, h2, h3⟩ =>
    ⟨h1.trans hsys, h2.trans hpln, h3.trans hre, fun hm => absurd hm hne⟩
  refine hnext _ ?_
  dsimp only
  split
  · split <;> exact ⟨rfl, rfl, rfl⟩
  · exact ⟨rfl, rfl, rfl⟩

end Sys2Proof.Machine

namespace Sys2Proof.Claims

open Sys2Proof.Machine

theorem hasRing_iff_hasGraft (s : State) : HasRing true s ↔ hasGraft (begin_ s).variant = true := by
  unfold HasRing hasGraft
  rw [begin_variant]
  cases s.variant <;> simp [isBig]

/-- An active whose partner has been silent for three cycles is to be SOLO (R441). -/
theorem soloDue_iff (s : State) : (s.dev.sys.role == .active && graftUsed (begin_ s) && decide (3 ≤ s.dev.grf.noStatus)) = true
    ↔ s.dev.sys.role = .active ∧ UsesGraft s ∧ 3 ≤ s.dev.grf.noStatus := by
  rw [← graftUsed_iff, Bool.and_eq_true, Bool.and_eq_true, beq_iff_eq, decide_eq_true_eq, and_assoc]

section
variable {s : State} (hl : live s = true)
include hl

/-! GRAFT_DOWN (R441). -/

theorem graftDown_not (h : ¬ (s.dev.sys.role = .active ∧ UsesGraft s ∧ 3 ≤ s.dev.grf.noStatus)) :
    exec .graftDown s = .next s :=
  run_unchanged hl (if_neg fun hc => h ((soloDue_iff s).1 hc))

theorem graftDown_solo (h : s.dev.sys.role = .active ∧ UsesGraft s ∧ 3 ≤ s.dev.grf.noStatus) : Ends .graftDown s fun t =>
    t.dev.sys = { s.dev.sys with role := .solo } ∧ t.dev.grf = s.dev.grf ∧ (logReady s → EventLogged 16 0 6 0 s t) := by
  have hd : graftDown (begin_ s) = logEvent .grf 0 6 0 (setRole .solo (begin_ s)) := if_pos ((soloDue_iff s).2 h)
  obtain ⟨x, o, hs⟩ := setRole_frame .solo (begin_ s)
  refine ends_run (f := graftDown) rfl hl ?_
  rw [hd, hs]
  exact ⟨logEvent_sys .., logEvent_grf .., fun hr => eventLogged_logEvent
    (s := withDev s { s.dev with sys := { s.dev.sys with role := .solo }, hif := x, out := o }) .grf 0 hr
    (by decide) (by decide)⟩

/-! Lanes (R419). -/

theorem graftLaneDown_other {lane : Bool} (h : ¬ HasRing true s ∨ laneUp lane (begin_ s) = false) :
    exec (.graftLaneDown lane) s = .next s := by
  rw [hasRing_iff_hasGraft, Bool.not_eq_true] at h
  exact run_unchanged hl (laneDown_other h)

theorem graftLaneUp_absent {lane : Bool} (h : ¬ HasRing true s) : exec (.graftLaneUp lane) s = .next s := by
  rw [hasRing_iff_hasGraft, Bool.not_eq_true] at h
  exact run_unchanged hl (laneRaise_absent h)

theorem graftLaneDown_logged {lane : Bool} (hg : HasRing true s) (hu : laneUp lane (begin_ s) = true) :
    Ends (.graftLaneDown lane) s fun t =>
      t.dev.grf = (if lane then { s.dev.grf with lane1 := false } else { s.dev.grf with lane0 := false })
        ∧ (logReady s → EventLogged 16 (if lane then 1 else 0) 7 0 s t) := by
  refine ends_run (f := laneDown lane) rfl hl ?_
  rw [laneDown_up ((hasRing_iff_hasGraft s).1 hg) hu]
  cases lane
  · exact ⟨logEvent_grf .., fun hr =>
      eventLogged_logEvent (s := withGrf { s.dev.grf with lane0 := false } s) .grf 0 hr (by decide) (by decide)⟩
  · exact ⟨logEvent_grf .., fun hr =>
      eventLogged_logEvent (s := withGrf { s.dev.grf with lane1 := false } s) .grf 0 hr (by decide) (by decide)⟩

theorem graftLaneUp_marked {lane : Bool} (hg : HasRing true s) : exec (.graftLaneUp lane) s = .next (withGrf
    (if lane then { s.dev.grf with lane1 := true } else { s.dev.grf with lane0 := true }) s) := by
  refine (run_live (laneRaise lane) s hl).trans ?_
  rw [laneRaise_present ((hasRing_iff_hasGraft s).1 hg)]
  cases lane <;> rfl

/-! TIMELINE_REBUILD (R396). -/

theorem timelineRebuild_ends (h : s.dev.egv.rebuild = true) : Ends .timelineRebuild s fun t =>
    t.dev.egv.rebuild = false ∧ t.dev.sys = s.dev.sys ∧ t.dev.pln = s.dev.pln
      ∧ ((∀ kv ∈ s.dev.pln.axes, kv.2.kind ≠ .posMove ∧ kv.2.kind ≠ .velMove) → t.dev.egv.curves = []) := by
  obtain ⟨v, hx, hsys, hpln, hre, hcurves⟩ := timelineRebuild_due (w := begin_ s) h
  have hstay := (logEvent_curvesStay .egv 0 3 0 v).trans (egvChanged_curvesStay true _)
  refine ends_run (f := timelineRebuild) rfl hl ?_
  rw [hx, commit_dev]
  exact ⟨hstay.rebuild.trans hre, hstay.sys.trans hsys, hstay.pln.trans hpln,
    fun hm => hstay.curves.trans (hcurves (movingAxes_eq_nil (w := clearedTimeline (begin_ s)) hm))⟩

end

end Sys2Proof.Claims

namespace Sys2Proof.Proofs

open Sys2Proof.Machine Sys2Proof.Claims

/-- Settles O54: a lane or a silent partner changes one register and is logged, and the rebuild enters only the curves of the
axes that move. -/
theorem graftLanesAndTimeline : Obligations.GraftLanesAndTimeline := by
  refine ⟨fun s hl => ⟨graftDown_not hl, graftDown_solo hl⟩, fun lane s hl hg => ?present, fun lane s hl hg => ?absent,
    fun s hl => ⟨fun h => run_unchanged hl (timelineRebuild_not h), timelineRebuild_ends hl⟩⟩
  case present =>
    exact ⟨graftLaneDown_logged hl hg, fun h => graftLaneDown_other hl (.inr h), graftLaneUp_marked hl hg⟩
  case absent => exact ⟨graftLaneDown_other hl (.inl hg), graftLaneUp_absent hl hg⟩

end Sys2Proof.Proofs
end

section
/-! SUPPORT. The set a standby applies: when it is whole, the records it holds, and what one HEDGE record leaves (spec/13 R421,
R426, R428). -/

namespace Sys2Proof.Machine

open Sys2Proof.Claims

section
variable {stat rot : Bool} {w : Work}

theorem setApply_other (hr : w.d.sys.role ≠ .standby) : setApply stat rot w = w := if_pos (by simp [hr])

/-- A set that is not whole is discarded whole (R426). -/
theorem setApply_discarded (hr : w.d.sys.role = .standby) (hs : setWhole w = false) : setApply stat rot w
    = { w with d.grf.rx := [], d.grf.rxBad := true, d.grf.rotOk := false, d.grf.goodSets := 0 } := by
  simp [setApply, hr, hs]

theorem setWhole_not (h : w.d.grf.rxBad = true ∨ w.d.grf.rx = []) : setWhole w = false := by
  rcases h with h | h <;> simp [setWhole, h]

/-- With no plan held, none comes into force. -/
theorem plansUpTo_none (t : ℚ) (h : w.d.grf.plans = []) : plansUpTo t w = w := by
  have he : { w with d.grf.plans := [] } = w := by rw [← h]
  simpa [plansUpTo, h] using he

/-- The records of a whole set in the order of their frames. -/
def setRecords (w : Work) : List GrfRecord :=
  (List.range 8).flatMap (fun s => let b := tabGet [] w.d.grf.rx s; grfRecords b.length b)

/-- A whole set without a static transfer that leaves no plan to install. -/
theorem setApply_whole (hr : w.d.sys.role = .standby) (hs : setWhole w = true)
    (hp : (each (setRecords w) takeRecord w).d.grf.plans = []) : setApply false rot w =
    let v := each (setRecords w) takeRecord w
    { v with
      d.grf.staticOk := v.d.grf.staticOk, d.grf.rotOk := v.d.grf.rotOk || (v.d.grf.staticOk && rot)
      d.grf.goodSets := v.d.grf.goodSets + 1, d.grf.last := v.d.grf.rxNcc, d.grf.rx := [], d.grf.rxBad := true } := by
  unfold setApply
  rw [if_neg (by simp [hr]), if_neg (by simp [hs])]
  simp only [when_, Bool.false_and, Bool.false_eq_true, if_false, Bool.or_false]
  rw [plansUpTo_none]
  · rfl
  · exact hp

/-! Four frames on lane 0, of which the first carries one HEDGE record. -/

section
variable {h v : Word} (hrx : w.d.grf.rx = [(0, [h, v]), (2, [0]), (4, [0]), (6, [0])])
include hrx

theorem setWhole_lane0 (hb : w.d.grf.rxBad = false) (h1 : w.d.grf.lane1 = false) (h0 : w.d.grf.lane0 = true) :
    setWhole w = true := by
  simp [setWhole, hb, hrx, laneCounts, laneUp, h0, h1, List.range_succ]

theorem setRecords_hedge (ht : fld h 32 4 = 8) (hn : fld h 20 12 = 1) (hi : fld h 0 20 = 0) :
    setRecords w = [⟨8, 0, [v]⟩] := by
  have hz : fld 0#36 32 4 = 0 := by decide
  simp [setRecords, hrx, tabGet, grfRecords, ht, hn, hi, hz, List.range_succ]

end

end

end Sys2Proof.Machine

namespace Sys2Proof.Claims

open Sys2Proof.Machine

section
variable {stat rot : Bool} {s : State} (hl : live s = true) (hr : s.dev.sys.role = .standby)
include hl hr

theorem graftSet_discarded (h : s.dev.grf.rxBad = true ∨ s.dev.grf.rx = []) : exec (.graftSetApply stat rot) s
    = .next (withGrf { s.dev.grf with rx := [], rxBad := true, rotOk := false, goodSets := 0 } s) := by
  refine (run_live (setApply stat rot) s hl).trans ?_
  rw [setApply_discarded (w := begin_ s) hr (setWhole_not h)]
  rfl

theorem graftSet_applied {h v : Word} (hb : s.dev.grf.rxBad = false) (h0 : s.dev.grf.lane0 = true)
    (h1 : s.dev.grf.lane1 = false) (hp : s.dev.grf.plans = []) (ht : bitsOf h 32 4 = 8) (hn : bitsOf h 20 12 = 1)
    (hi : bitsOf h 0 20 = 0) (hrx : s.dev.grf.rx = [(0, [h, v]), (2, [0]), (4, [0]), (6, [0])]) :
    exec (.graftSetApply false rot) s = .next (withGrf { s.dev.grf with
      hedge := [v], rotOk := s.dev.grf.rotOk || (s.dev.grf.staticOk && rot), goodSets := s.dev.grf.goodSets + 1
      last := s.dev.grf.rxNcc, rx := [], rxBad := true } s) := by
  rw [bitsOf_eq] at ht hn hi
  have hrec : setRecords (begin_ s) = [⟨8, 0, [v]⟩] := setRecords_hedge hrx ht hn hi
  have hx : each (setRecords (begin_ s)) takeRecord (begin_ s) = begin_ (withGrf { s.dev.grf with hedge := [v] } s) := by
    rw [hrec]; rfl
  refine (run_live (setApply false rot) s hl).trans ?_
  rw [setApply_whole hr (setWhole_lane0 hrx hb h1 h0) (by rw [hx]; exact hp), hx]
  rfl

end

end Sys2Proof.Claims
end

section
/-! SUPPORT. The takeover: what its later steps leave of the new active's role, mode, epoch and graft registers (spec/13 R432 to
R437, spec/04 R136, R137). -/

namespace Sys2Proof.Machine

open Sys2Proof.Claims

/-! What the later steps leave. -/

/-- System registers and the trellis' are as before, and of the graft's only the list of heirs has changed. -/
structure ReignStays (w v : Work) : Prop where
  sys : v.d.sys = w.d.sys
  trl : v.d.trl = w.d.trl
  grf : ∃ l, v.d.grf = { w.d.grf with heirs := l }

section
variable {u v w : Work}

theorem reignStays_of_units (hs : v.d.sys = w.d.sys) (ht : v.d.trl = w.d.trl) (hg : v.d.grf = w.d.grf) : ReignStays w v :=
  ⟨hs, ht, w.d.grf.heirs, hg⟩

theorem ReignStays.refl (w : Work) : ReignStays w w := reignStays_of_units rfl rfl rfl

theorem ReignStays.trans (h : ReignStays w u) (k : ReignStays u v) : ReignStays w v := by
  obtain ⟨l, hg⟩ := h.grf
  obtain ⟨m, kg⟩ := k.grf
  exact ⟨k.sys.trans h.sys, k.trl.trans h.trl, m, by rw [kg, hg]⟩

theorem Records.reignStays (h : Records w v) : ReignStays w v :=
  reignStays_of_units h.sys (congrArg (·.d.trl) h) (congrArg (·.d.grf) h)

theorem reignStays_each {α : Type} {f : α → Work → Work} (l : List α) (h : ∀ a v, ReignStays v (f a v)) (w : Work) :
    ReignStays w (each l f w) := each_keeps l (fun a _ v hv => hv.trans (h a v)) (.refl w)

end

theorem wrs_reignStays (a : Nat) (l : List Word) (w : Work) : ReignStays w (wrs a l w) := by
  obtain ⟨_, _, _, h⟩ := wrs_frame l a w
  rw [h]
  exact reignStays_of_units rfl rfl rfl

theorem modCe_reignStays (a : Nat) (f : CeAxis → CeAxis) (w : Work) : ReignStays w (modCe a f w) :=
  reignStays_of_units rfl rfl rfl

theorem logEvent_reignStays (b : Blk) (i c x : Nat) (w : Work) : ReignStays w (logEvent b i c x w) :=
  (logEvent_records b i c x w).reignStays

/-! The harvest engine, the brake test and the registers shown. -/

theorem dropSlots_reignStays (n : Nat) (w : Work) : ReignStays w (dropSlots n w) := by
  refine reignStays_each _ (fun i v => ?_) w
  split
  · exact iteInduction (fun _ => reignStays_of_units rfl rfl rfl) fun _ => .refl v
  · exact .refl v

theorem hvsDisarmAll_reignStays (w : Work) : ReignStays w (hvsDisarmAll w) := by
  refine reignStays_each _ (fun n v => ?_) w
  unfold hvsDisarm fxDisarm
  refine iteInduction (fun _ => .refl v) fun _ => .trans ?_ (logEvent_reignStays ..)
  refine iteInduction (fun _ => .refl v) fun _ => ?_
  have h : ReignStays v (setSet n { getSet n v with st := 0, waiting := none } v) := reignStays_of_units rfl rfl rfl
  exact h.trans (dropSlots_reignStays ..)

theorem btAbort_reignStays (w : Work) : ReignStays w (btAbort w) := by
  have hout (h : HdgSt) : ReignStays w { w with d.hdg := h } := reignStays_of_units rfl rfl rfl
  have hend (c : CmdRef) (r : Report) (v : Work) : ReignStays v (report c r { v with d.hdg.btCmd := none }) := by
    have h : ReignStays v { v with d.hdg.btCmd := none } := reignStays_of_units rfl rfl rfl
    exact h.trans (report_records ..).reignStays
  unfold btAbort
  extract_lets dev d h w1
  split
  · exact hout _
  · extract_lets w2 w3
    have h2 : ReignStays w1 w2 := modCe_reignStays ..
    have h3 : ReignStays w2 w3 := logEvent_reignStays ..
    clear_value w3
    exact (((hout _).trans h2).trans h3).trans (hend _ _ w3)

theorem ceShow_reignStays (w : Work) : ReignStays w (ceShow w) :=
  reignStays_each _ (fun _ _ => modCe_reignStays ..) w

theorem ringSend_reignStays (b pw : Bool) (cls : Nat) (e0 e1 : Word) (body : List Word) (w : Work) :
    ReignStays w (ringSend b pw cls e0 e1 body w) := by
  rw [ringSend_eq]
  exact reignStays_of_units rfl rfl rfl

theorem syncFrames_reignStays (w : Work) : ReignStays w (syncFrames w) := by
  refine reignStays_each _ (fun b v => reignStays_each _ (fun pw u => ?_) v) w
  exact iteInduction (fun _ => ringSend_reignStays ..) fun _ => .refl u

/-! The inherited journal. -/

theorem settleEntry_reignStays (x : Inherited) (r : Settled) (w : Work) : ReignStays w (settleEntry x r w) := by
  have hput (f : JEntry → JEntry) : ReignStays w (putJournal (inhCmd x) f w) := (putJournal_records ..).reignStays
  have heir (v : Work) : ReignStays v { v with d.grf.heirs := v.d.grf.heirs ++ [x.e.id] } := ⟨rfl, rfl, _, rfl⟩
  cases r with
  | was st det eff => exact hput _
  | now st det eff => exact (hput _).trans (heir _)
  | live => exact (hput _).trans (heir _)

theorem liveBundle_reignStays (c : Inherited) (ms : List Inherited) (w : Work) : ReignStays w (liveBundle c ms w) :=
  reignStays_of_units rfl rfl rfl

theorem settleQueue_reignStays (l : Word) (xs : List Inherited) (w : Work) : ReignStays w (settleQueue l xs w) := by
  unfold settleQueue
  dsimp only
  refine ((reignStays_each _ (fun _ _ => settleEntry_reignStays ..) w).trans
    (reignStays_each _ (fun _ v => ?effect) _)).trans (reignStays_each _ (fun b v => ?bundle) _)
  case effect => exact reignStays_of_units rfl rfl rfl
  case bundle =>
    split
    · exact liveBundle_reignStays ..
    · exact .refl v

theorem settleJournal_reignStays (l : Word) (w : Work) : ReignStays w (settleJournal l w) := by
  unfold settleJournal
  extract_lets now mine old xs d c g w1 w2
  have h1 : ReignStays w w1 := ⟨rfl, rfl, [], rfl⟩
  have h2 : ReignStays w1 w2 := reignStays_each _ (fun _ _ => wrs_reignStays ..) w1
  exact h1.trans (h2.trans (reignStays_each _ (fun _ _ => settleQueue_reignStays ..) w2))

/-! The plans in force, and the mode taken. -/

theorem plansUpTo_trl (t : ℚ) (w : Work) : (plansUpTo t w).d.trl = w.d.trl := by
  refine each_keeps (P := fun v : Work => v.d.trl = w.d.trl) _ (fun kv _ v hv => ?_) rfl
  unfold installPlan
  dsimp only
  split <;> exact hv

/-- The registers of a mode taken at the present sync point (R366). -/
theorem applyMode_takes (m : Nat) (w : Work) : (applyMode m w).d.sys.mode = m ∧ (applyMode m w).d.sys.stale = w.d.sys.stale
    ∧ (applyMode m w).d.trl.epoch = w.d.trl.epoch ∧ ∃ l, (applyMode m w).d.grf = { w.d.grf with heirs := l } := by
  have hlog (a : Nat) (v : Work) :
      ReignStays v (logEvent .ce a 7 0 (modCe a (fun x => { x with tapInit := true, dspInit := true }) v)) :=
    (modCe_reignStays ..).trans (logEvent_reignStays ..)
  have hx : ∃ v : Work, ReignStays v (applyMode m w) ∧ v.d.sys.mode = m ∧ v.d.sys.stale = w.d.sys.stale
      ∧ v.d.trl.epoch = w.d.trl.epoch ∧ v.d.grf = w.d.grf := by
    unfold applyMode
    refine ⟨_, (reignStays_each _ (fun a v => ?deadline) _).trans (reignStays_each _ (fun a v => ?unit) _),
      rfl, rfl, rfl, rfl⟩
    case deadline => exact modCe_reignStays ..
    case unit =>
      exact (modCe_reignStays ..).trans (iteInduction (fun _ => hlog a _) fun _ => .refl _)
  obtain ⟨v, h, hm, hs, he, hg⟩ := hx
  rw [h.sys, h.trl, ← hg]
  exact ⟨hm, hs, he, h.grf⟩

/-! The takeover itself. -/

/-- The registers of a reign that begins at the standby of graft registers g: the next epoch, with the takeover marked and its
report due (R433, R434). -/
structure ReignBegun (g : GrfSt) (epoch : Nat) (v : Work) : Prop where
  stale : v.d.sys.stale = false
  epoch : v.d.trl.epoch = (epoch + 1) % 65536
  tko : v.d.grf.tko = true
  tkoL : v.d.grf.tkoL = g.last
  decided : v.d.grf.decided = none
  reportDue : v.d.grf.reportDue = true

/-- The standby has taken the takeover mode and the role. -/
structure TookOver (g : GrfSt) (epoch : Nat) (v : Work) : Prop extends ReignBegun g epoch v where
  role : v.d.sys.role = .active
  mode : v.d.sys.mode = g.tkMode

section
variable {g : GrfSt} {e : Nat} {w v : Work}

theorem ReignBegun.stays (h : ReignBegun g e w) (hs : v.d.sys.stale = w.d.sys.stale) (he : v.d.trl.epoch = w.d.trl.epoch)
    (hg : ∃ l, v.d.grf = { w.d.grf with heirs := l }) : ReignBegun g e v := by
  obtain ⟨l, hg⟩ := hg
  exact ⟨hs.trans h.stale, he.trans h.epoch, by rw [hg]; exact h.tko, by rw [hg]; exact h.tkoL, by rw [hg]; exact h.decided,
    by rw [hg]; exact h.reportDue⟩

theorem TookOver.stays (h : TookOver g e w) (k : ReignStays w v) : TookOver g e v where
  toReignBegun := h.toReignBegun.stays (by rw [k.sys]) (by rw [k.trl]) k.grf
  role := by rw [k.sys, h.role]
  mode := by rw [k.sys, h.mode]

theorem TookOver.withTko3 (h : TookOver g e w) (b : Bool) : TookOver g e { w with d.grf.tko3 := b } := { h with }

theorem foldRings_reignStays (w : Work) : ReignStays w (foldRings w) :=
  reignStays_each _ (fun b v => show ReignStays v (modR b _ v) from reignStays_of_units rfl rfl rfl) w

theorem setRole_tookOver (h : ReignBegun g e w) : TookOver g e (setRole .active (foldRings (applyMode g.tkMode w))) := by
  obtain ⟨hm, hs, he, hg⟩ := applyMode_takes g.tkMode w
  have hb := h.stays hs he hg
  have hf := foldRings_reignStays (applyMode g.tkMode w)
  have hb' := hb.stays (by rw [hf.sys]) (by rw [hf.trl]) hf.grf
  obtain ⟨x, o, hr⟩ := setRole_frame .active (foldRings (applyMode g.tkMode w))
  rw [hr]
  exact { hb' with role := rfl, mode := (congrArg (·.mode) hf.sys).trans hm }

end

theorem takeover_not {w : Work} (h : ¬ (w.d.sys.role = .standby ∧ takeoverDue w = true)) : takeover w = w :=
  if_pos (by simpa [imp_iff_not_or] using h)

theorem takeover_tookOver {w : Work} (hr : w.d.sys.role = .standby) (hd : takeoverDue w = true) :
    TookOver w.d.grf w.d.trl.epoch (takeover w) := by
  unfold takeover
  rw [if_neg (by simp [hr, hd])]
  extract_lets g l past held d x1 x2 x3 x4 begun taken again d' x5 settled ended
  have hepoch : held.d.trl.epoch = w.d.trl.epoch := congrArg (·.epoch) (plansUpTo_trl (syncTime w - past) w)
  have h1 : ReignBegun g w.d.trl.epoch begun := hepoch ▸ ⟨rfl, rfl, rfl, rfl, rfl, rfl⟩
  have h2 : TookOver g w.d.trl.epoch taken := setRole_tookOver h1
  have h3 : TookOver g w.d.trl.epoch again := h2.stays (reignStays_each _ (fun _ _ => modCe_reignStays ..) taken)
  clear_value again
  have h4 : TookOver g w.d.trl.epoch { again with d.grf.tko3 := g.tkMode == 3 } := h3.withTko3 _
  have h5 : TookOver g w.d.trl.epoch settled := h4.stays (settleJournal_reignStays l _)
  have h6 : TookOver g w.d.trl.epoch ended := h5.stays ((hvsDisarmAll_reignStays settled).trans (btAbort_reignStays ..))
  exact h6.stays (((logEvent_reignStays ..).trans (ceShow_reignStays ..)).trans (syncFrames_reignStays ..))

/-! The report (spec/04 R137). -/

/-- The inherited entries that were not final at L. -/
def heirEntries (w : Work) : List JEntry := w.d.cmd.journal.filter (fun j => w.d.grf.heirs.contains j.id)

theorem takeoverReport_not {w : Work} (h : w.d.grf.reportDue = false) : takeoverReport w = w := if_pos (by simp [h])

/-- The report writes the words of those entries, if there are any, shows their number and is logged. -/
theorem takeoverReport_due {w : Work} (h : w.d.grf.reportDue = true) : ∃ o e k x m,
    takeoverReport w = logEvent .cmd 0 7 (heirEntries w).length { w with
      ops := o, d.mem.ecc := e, d.mem.pageCrc := k, d.grf.reportDue := false, d.grf.heirs := [], d.cmd.tkoRdy := true
      d.cmd.tkoCnt := (heirEntries w).length, d.hif := x, d.out := m }
    ∧ (heirEntries w = [] → o = w.ops) := by
  obtain ⟨o, e, k, hw⟩ := wrs_frame ((heirEntries w).flatMap jWords) (w.d.cmd.jBase + 81920) w
  obtain ⟨x, m, hi⟩ := irq_frame 11 { w with
    ops := o, d.mem.ecc := e, d.mem.pageCrc := k, d.grf.reportDue := false, d.grf.heirs := [], d.cmd.tkoRdy := true
    d.cmd.tkoCnt := (heirEntries w).length }
  refine ⟨o, e, k, x, m, ?_, fun hnil => ?_⟩
  · unfold takeoverReport
    rw [if_neg (by simp [h])]
    unfold heirEntries at hw hi ⊢
    dsimp only
    rw [hw, hi]
  · rw [hnil] at hw
    exact (congrArg Work.ops hw).symm

end Sys2Proof.Machine

namespace Sys2Proof.Claims

open Sys2Proof.Machine

/-- The decision lies at least 2 microseconds, 500 counts of the counter, before the sync point (R433). -/
theorem takeoverDue_iff (s : State) : takeoverDue (begin_ s) = true ↔ ∃ d, s.dev.grf.decided = some d
    ∧ 500 ≤ (s.dev.phase.frcSync - d).toNat ∧ (s.dev.phase.frcSync - d).toNat < 2 ^ 63 := by
  unfold takeoverDue
  rw [begin_d]
  cases s.dev.grf.decided <;> simp

section
variable {s : State} (hl : live s = true)
include hl

theorem takeover_early (h : ¬ (s.dev.sys.role = .standby ∧ ∃ d, s.dev.grf.decided = some d
    ∧ 500 ≤ (s.dev.phase.frcSync - d).toNat ∧ (s.dev.phase.frcSync - d).toNat < 2 ^ 63)) : exec .takeover s = .next s := by
  rw [← takeoverDue_iff] at h
  exact run_unchanged hl (takeover_not h)

theorem ends_takeover (hr : s.dev.sys.role = .standby) (hd : ∃ d, s.dev.grf.decided = some d
    ∧ 500 ≤ (s.dev.phase.frcSync - d).toNat ∧ (s.dev.phase.frcSync - d).toNat < 2 ^ 63) : Ends .takeover s fun t =>
    t.dev.sys.role = .active ∧ t.dev.sys.stale = false ∧ t.dev.sys.mode = s.dev.grf.tkMode
      ∧ t.dev.trl.epoch = (s.dev.trl.epoch + 1) % 65536 ∧ t.dev.grf.tko = true ∧ t.dev.grf.tkoL = s.dev.grf.last
      ∧ t.dev.grf.decided = none ∧ t.dev.grf.reportDue = true := by
  have h := takeover_tookOver (w := begin_ s) hr ((takeoverDue_iff s).2 hd)
  exact ends_run (f := takeover) rfl hl ⟨h.role, h.stale, h.mode, h.epoch, h.tko, h.tkoL, h.decided, h.reportDue⟩

theorem ends_takeoverReport (h : s.dev.grf.reportDue = true) : Ends .takeoverReport s fun t =>
    t.dev.grf = { s.dev.grf with reportDue := false, heirs := [] } ∧ t.dev.cmd.tkoRdy = true
      ∧ t.dev.cmd.tkoCnt = (heirEntries (begin_ s)).length ∧ t.dev.cmd.journal = s.dev.cmd.journal
      ∧ (heirEntries (begin_ s) = [] → logReady s → EventLogged 4 0 7 0 s t) := by
  obtain ⟨o, e, k, x, m, hx, ho⟩ := takeoverReport_due (w := begin_ s) h
  refine ends_run (f := takeoverReport) rfl hl ?_
  rw [hx]
  refine ⟨logEvent_grf .., ?_, ?_, ?_, fun hnil hr => ?logged⟩
  case logged =>
    rw [ho hnil, hnil]
    exact eventLogged_logEvent (s := withDev s { s.dev with
      mem := { s.dev.mem with ecc := e, pageCrc := k }, grf := { s.dev.grf with reportDue := false, heirs := [] }
      cmd := { s.dev.cmd with tkoRdy := true, tkoCnt := 0 }, hif := x, out := m }) .cmd 0 hr (by decide) (by decide)
  all_goals
    obtain ⟨_, _, _, _, _, _, _, _, _, hlog⟩ := logEvent_frame .cmd 0 7 (heirEntries (begin_ s)).length _
    rw [hlog]
    rfl

end

end Sys2Proof.Claims

namespace Sys2Proof.Proofs

open Sys2Proof.Machine Sys2Proof.Claims

/-- Settles O53: a set is discarded or applied by whether it is whole, no later step of the takeover touches what the new reign
began with, and the report counts the inherited entries that were open. -/
theorem graftTakeover : Obligations.GraftTakeover := by
  refine ⟨fun stat rot s hl => ⟨fun hr => run_unchanged hl (setApply_other hr), graftSet_discarded hl,
      fun h v hr hb h0 h1 hp ht hn hi hrx => graftSet_applied hl hr hb h0 h1 hp ht hn hi hrx⟩,
    fun s hl => ⟨takeover_early hl, ends_takeover hl⟩,
    fun s hl => ⟨fun h => run_unchanged hl (takeoverReport_not h), ends_takeoverReport hl⟩⟩

end Sys2Proof.Proofs
end

section
/-! SUPPORT. The machine as a whole: every answer is a commit of effects on the memory, so the canonical form, the variant and
the waiting commands stay; and which commands a main device that does not run ignores. -/

namespace Sys2Proof.Machine

/-- A command's effects on bank memory keep its canonical form. -/
theorem Shape.memWf {s t : State} (h : Shape s (.next t)) (hw : memWf s.mem = true) : memWf t.mem = true := by
  obtain h | ⟨w, h⟩ := h
  · cases h; exact hw
  · cases h; exact memApply_wf s.mem w.ops hw

/-- A command answers a next state of the same variant with the same commands waiting. -/
theorem Shape.answers {s : State} {o : Host.Outcome State Fault Refusal} (h : Shape s o) :
    ∃ t, o = .next t ∧ t.variant = s.variant ∧ t.pending = s.pending := by
  obtain h | ⟨w, h⟩ := h
  · exact ⟨s, h, rfl, rfl⟩
  · exact ⟨commit s w, h, rfl, rfl⟩

theorem idle_mem (s : State) : (idle s).mem = s.mem := by unfold idle; split <;> rfl

theorem step_empty {s : State} (h : s.pending = []) : step s = .next (idle s) := by simp [step, h]

theorem step_front {c : Instr} {rest : List Instr} {s : State} (h : s.pending = c :: rest) :
    step s = exec c { s with pending := rest } := by simp [step, h]

theorem live_iff (s : State) : live s = true ↔ s.dev.boot.start = .done ∧ s.dev.boot.dead = false := by simp [live]

end Sys2Proof.Machine

namespace Sys2Proof.Claims

open Sys2Proof.Machine

/-- A command that is not of the island, the resets or the start-up is a meaning of the main device. -/
theorem exec_not_live {c : Instr} {s : State} (hc : actsAnyway c = false) (h : live s = false) : exec c s = .next s := by
  cases c
  all_goals first | exact run_not_live _ s h | cases hc

end Sys2Proof.Claims

namespace Sys2Proof.Proofs

open Sys2Proof.Machine Sys2Proof.Claims

/-- Settles O4: a step is an idle period or a command, and a command reaches memory by its effects alone. -/
theorem memoryFormKept : Obligations.MemoryFormKept := by
  intro s t hs hst
  cases hp : s.pending with
  | nil =>
    rw [step_empty hp] at hst
    cases hst
    exact (congrArg memWf (idle_mem s)).trans hs
  | cons c rest =>
    rw [step_front hp] at hst
    have h := exec_shape c { s with pending := rest }
    rw [hst] at h
    exact h.memWf hs

/-- Settles O1: by the equation of a step whose queue has a front. -/
theorem stepRunsFrontCommand : Obligations.StepRunsFrontCommand := fun _ _ _ => step_front rfl

/-- Settles O2: idling is one count of the counter where the device lives. -/
theorem emptyQueueIdles : Obligations.EmptyQueueIdles := by
  intro s hp
  rw [step_empty hp]
  by_cases hl : live s = true
  · rw [if_pos ((live_iff s).1 hl), idle, if_pos hl]; rfl
  · rw [if_neg (fun h => hl ((live_iff s).2 h)), idle, if_neg hl]

/-- Settles O3: whatever a command does, it answers by a commit. -/
theorem everyCommandAnswers : Obligations.EveryCommandAnswers := fun c s => (exec_shape c s).answers

/-- Settles O6: every other command is a meaning that acts on a running device only. -/
theorem stoppedDeviceIgnores : Obligations.StoppedDeviceIgnores := by
  intro c s hc hs
  refine exec_not_live hc ?_
  rw [← Bool.not_eq_true, live_iff]
  rintro ⟨hstart, hdead⟩
  exact hs.elim (fun h => h hstart) (fun h => by simp [hdead] at h)

end Sys2Proof.Proofs
end

section
/-! SUPPORT. Semaphores and mailboxes: who holds a semaphore after each access, and what a send, a pop and an access leave in a
channel (spec/16 R527 to R530, spec/17 R533 to R540). -/

namespace Sys2Proof.Machine

open Sys2Proof.Claims

/-! Semaphores. -/

theorem semHolder_eq (n : Nat) (s : State) :
    semHolder n (begin_ s) = (match holder n s with | none => 0 | some m => m + 1) := by
  unfold semHolder holder
  rw [begin_d]
  cases tabGet 0 s.dev.mem.sems n <;> rfl

theorem semWrite_holder {mid n : Nat} {w : Work} (h : semHolder n w = mid + 1) : semWrite mid n w = setSem n 0 w :=
  if_pos (by simp [h])

theorem semWrite_stranger {mid n : Nat} {w : Work} (h : semHolder n w ≠ mid + 1) :
    semWrite mid n w = logEvent .sem n 1 mid w := if_neg (by simp [h])

theorem semForce_stranger {mid n : Nat} {w : Work} (h : 1 < mid) : semForce mid n w = w :=
  if_neg (by simp; omega)

theorem semForce_held {mid n m : Nat} {w : Work} (hm : mid ≤ 1) (h : semHolder n w = m + 1) :
    semForce mid n w = logEvent .sem n 2 m (setSem n 0 w) := by simp [semForce, hm, h]

/-! Channels of the working copy, and their two sides. -/

theorem getChan_setChan (k c : Nat) (x : MbxChan) (w : Work) : getChan k (setChan c x w) = if k = c then x else getChan k w :=
  tabGet_tabSet _ _ _ _ _

@[simp] theorem getChan_setChan_same (c : Nat) (x : MbxChan) (w : Work) : getChan c (setChan c x w) = x :=
  tabGet_tabSet_same _ _ _ _

@[simp] theorem getChan_logEvent (k : Nat) (b : Blk) (i c x : Nat) (w : Work) :
    getChan k (logEvent b i c x w) = getChan k w := by simp [getChan]

@[simp] theorem side_setSide (b : Bool) (y : MbxSide) (x : MbxChan) : side b (setSide b y x) = y := by cases b <;> rfl

@[simp] theorem side_setSide_not (b : Bool) (y : MbxSide) (x : MbxChan) : side (!b) (setSide b y x) = side (!b) x := by
  cases b <;> rfl

@[simp] theorem setSide_side (b : Bool) (x : MbxChan) : setSide b (side b x) x = x := by cases b <;> rfl

theorem sideRec_eq (b : Bool) (x : MbxChan) : sideRec b x = side b x := rfl

@[simp] theorem channel_commit (k : Nat) (s : State) (w : Work) : channel k (commit s w) = getChan k w := rfl
@[simp] theorem getChan_begin (k : Nat) (s : State) : getChan k (begin_ s) = channel k s := rfl

/-- The side of a bound channel that a MID is, on the working copy. -/
theorem sideOf_of_sideIs {mid c : Nat} {b : Bool} {s : State} (h : SideIs mid c b s) : sideOf mid (channel c s) = some b := by
  obtain ⟨hv, hne, rfl⟩ := h
  cases b <;> simp [sideOf, bound, hv, hne, Ne.symm hne]

/-! What an access leaves. -/

/-- Only the mailboxes, the interrupt registers and the messages sent out have changed. -/
def Mailed (w v : Work) : Prop := v = { w with d.mbx := v.d.mbx, d.hif := v.d.hif, d.out := v.d.out }

theorem Mailed.refl (w : Work) : Mailed w w := rfl

theorem Mailed.trans {u v w : Work} (h : Mailed w u) (k : Mailed u v) : Mailed w v :=
  Eq.trans k (congrArg (fun x : Work => { x with d.mbx := v.d.mbx, d.hif := v.d.hif, d.out := v.d.out }) h)

theorem setChan_mailed (c : Nat) (x : MbxChan) (w : Work) : Mailed w (setChan c x w) := rfl

theorem mbxIrq_mailed (w : Work) : Mailed w (mbxIrq w) := by
  unfold mbxIrq
  extract_lets h s rise _ _ w1
  have h1 : Mailed w w1 := rfl
  refine iteInduction (fun _ => h1.trans ?_) fun _ => h1
  obtain ⟨_, _, hirq⟩ := irq_frame 8 w1
  rw [hirq]
  rfl

@[simp] theorem getChan_mbxIrq (k : Nat) (w : Work) : getChan k (mbxIrq w) = getChan k w := by
  unfold mbxIrq getChan
  extract_lets h s rise _ _ w1
  split
  · rw [irq_mbx]
  · rfl

theorem onlyMailboxes_commit {s : State} {v : Work} (h : Mailed (begin_ s) v) : OnlyMailboxes s (commit s v) := by
  unfold OnlyMailboxes
  rw [h]
  rfl

/-- The channel after an access by one of its sides: a run of accesses by strangers has ended (R536). -/
def accessed (c : Nat) (w : Work) : Work := setChan c { getChan c w with strangerRun := false } w

theorem getChan_accessed (k c : Nat) (w : Work) :
    getChan k (accessed c w) = if k = c then { getChan c w with strangerRun := false } else getChan k w := getChan_setChan ..

@[simp] theorem side_accessed (b : Bool) (c : Nat) (w : Work) : side b (getChan c (accessed c w)) = side b (getChan c w) := by
  rw [getChan_accessed, if_pos rfl]; cases b <;> rfl

theorem accessed_mailed (c : Nat) (w : Work) : Mailed w (accessed c w) := setChan_mailed ..

/-- A MID that is a side of the channel acts for it. -/
theorem mbxAccess_side {mid c : Nat} {b : Bool} {w : Work} (h : sideOf mid (getChan c w) = some b) :
    mbxAccess mid c w = (some b, accessed c w) := by
  unfold mbxAccess
  dsimp only
  rw [h]
  rfl

/-- A side's record after a send of len words: queued where there is room, and otherwise counted as lost (R537, R538). -/
def sentSide (len : Nat) (y : MbxSide) : MbxSide :=
  if len = 0 ∨ 8 < len then y
  else if queueWords y.queue + len ≤ 8 then { y with queue := y.queue ++ [y.sd.take len], lostRun := false }
  else { y with
    slost := (satInc 65535 y.slost).1, slostSat := y.slostSat || (satInc 65535 y.slost).2, lostRun := true }

theorem satInc_fst (m v : Nat) : (satInc m v).1 = if v < m then v + 1 else v := by
  unfold satInc
  by_cases h : m ≤ v
  · rw [if_pos h, if_neg (Nat.not_lt.2 h)]
  · rw [if_neg h, if_pos (Nat.lt_of_not_le h)]

theorem sentSide_none {len : Nat} (h : len = 0 ∨ 8 < len) (y : MbxSide) : sentSide len y = y := if_pos h

theorem sentSide_fits {len : Nat} {y : MbxSide} (h : ¬ (len = 0 ∨ 8 < len)) (hroom : queueWords y.queue + len ≤ 8) :
    sentSide len y = { y with queue := y.queue ++ [y.sd.take len], lostRun := false } := (if_neg h).trans (if_pos hroom)

theorem sentSide_lost {len : Nat} {y : MbxSide} (h : ¬ (len = 0 ∨ 8 < len)) (hfull : 8 < queueWords y.queue + len) :
    sentSide len y = { y with
      slost := if y.slost < 65535 then y.slost + 1 else y.slost
      slostSat := y.slostSat || (satInc 65535 y.slost).2, lostRun := true } := by
  rw [sentSide, if_neg h, if_neg (Nat.not_le.2 hfull), satInc_fst]

theorem mbxQueue_none {len : Nat} (h : len = 0 ∨ 8 < len) (sb : Bool) (c : Nat) (w : Work) : mbxQueue sb c len w = w :=
  if_pos (by simpa using h)

theorem mbxQueue_fits {len : Nat} {sb : Bool} {c : Nat} {w : Work} (h : ¬ (len = 0 ∨ 8 < len))
    (hroom : queueWords (side sb (getChan c w)).queue + len ≤ 8) : mbxQueue sb c len w
      = mbxIrq (setChan c (setSide sb (sentSide len (side sb (getChan c w))) (getChan c w)) w) := by
  rw [sentSide_fits h hroom]
  unfold mbxQueue
  dsimp only
  rw [if_neg (by simpa using h), if_pos hroom]

theorem getChan_mbxQueue (k : Nat) (sb : Bool) (c len : Nat) (w : Work) : getChan k (mbxQueue sb c len w)
    = if k = c then setSide sb (sentSide len (side sb (getChan c w))) (getChan c w) else getChan k w := by
  by_cases hlen : len = 0 ∨ 8 < len
  · rw [mbxQueue_none hlen, sentSide_none hlen, setSide_side]
    split <;> simp [*]
  by_cases hroom : queueWords (side sb (getChan c w)).queue + len ≤ 8
  · rw [mbxQueue_fits hlen hroom, getChan_mbxIrq, getChan_setChan]
  · have hb : (len == 0 || 8 < len) = false := by simpa using hlen
    unfold mbxQueue
    dsimp only
    rw [hb, if_neg (by simp), if_neg hroom, sentSide, if_neg hlen, if_neg hroom, ← getChan_setChan]
    unfold logCntSat
    split <;> split <;> simp only [getChan_logEvent]

/-- A send by one side. -/
theorem mbxSend_side {mid c : Nat} {b : Bool} {w : Work} (h : sideOf mid (getChan c w) = some b) (len : Nat) :
    mbxSend mid c len w = mbxQueue b c len (accessed c w) := by
  unfold mbxSend
  rw [mbxAccess_side h]

/-- A side's record after its head message is removed. -/
def popped (y : MbxSide) : MbxSide := { y with queue := y.queue.tail }

theorem mbxDrop_eq (b : Bool) (c : Nat) (w : Work) : mbxDrop b c w
    = mbxIrq (setChan c (setSide (!b) (popped (side (!b) (getChan c w))) (getChan c w)) w) := rfl

theorem getChan_mbxDrop (k : Nat) (b : Bool) (c : Nat) (w : Work) : getChan k (mbxDrop b c w)
    = if k = c then setSide (!b) (popped (side (!b) (getChan c w))) (getChan c w) else getChan k w := by
  rw [mbxDrop_eq, getChan_mbxIrq, getChan_setChan]

theorem mbxDrop_mailed (b : Bool) (c : Nat) (w : Work) : Mailed w (mbxDrop b c w) := by
  rw [mbxDrop_eq]
  exact (setChan_mailed ..).trans (mbxIrq_mailed _)

/-- A pop by one side. -/
theorem mbxPop_side {mid c : Nat} {b : Bool} {w : Work} (h : sideOf mid (getChan c w) = some b) :
    mbxPop mid c w = mbxDrop b c (accessed c w) := by
  unfold mbxPop
  rw [mbxAccess_side h]

/-- A channel of which only one side's queue and lost sends may have changed. -/
theorem channelsKept_of {s t : State} {c : Nat} {b : Bool} {y : MbxSide}
    (h : ∀ k, channel k t = if k = c then setSide b y { channel c s with strangerRun := false } else channel k s)
    (hy : y.sd = (side b (channel c s)).sd) :
    ChannelsKept c s t ∧ sideRec (!b) (channel c t) = sideRec (!b) (channel c s) ∧ sideRec b (channel c t) = y := by
  have hc := (h c).trans (if_pos rfl)
  refine ⟨?_, ?_, ?_⟩
  · unfold ChannelsKept
    rw [hc]
    cases b
    · exact ⟨rfl, rfl, rfl, hy, rfl, fun k hk => (h k).trans (if_neg hk)⟩
    · exact ⟨rfl, rfl, rfl, rfl, hy, fun k hk => (h k).trans (if_neg hk)⟩
  · rw [hc]; cases b <;> rfl
  · rw [hc]; cases b <;> rfl

end Sys2Proof.Machine

namespace Sys2Proof.Claims

open Sys2Proof.Machine

section
variable {s : State} (hl : live s = true)
include hl

theorem semRead_runs (mid : Fin 32) (n : Fin 64) : exec (.semRead mid n) s = .next (match holder n s with
    | none => Claims.answered 1 (withHolder n (some mid) s)
    | some m => Claims.answered (BitVec.ofNat 36 (m % 32 * 256)) s) := by
  refine (run_live _ s hl).trans ?_
  unfold semRead
  rw [semHolder_eq]
  cases holder n s with
  | none => rfl
  | some m =>
    have hput : put 8 5 m = m % 32 * 256 := by simp [put, Nat.shiftLeft_eq]
    simp only [Nat.add_one_ne_zero, beq_iff_eq, if_false, Nat.add_sub_cancel, hput]
    rfl

theorem semWrite_byHolder {mid : Fin 32} {n : Fin 64} (h : holder n s = some mid.val) :
    exec (.semWrite mid n) s = .next (withHolder n none s) := by
  refine (run_live _ s hl).trans ?_
  rw [semWrite_holder (by rw [semHolder_eq, h])]
  rfl

theorem semWrite_byOther {mid : Fin 32} {n : Fin 64} (h : holder n s ≠ some mid.val) (hr : logReady s) :
    Ends (.semWrite mid n) s fun t => t.dev.mem.sems = s.dev.mem.sems ∧ EventLogged 6 n 1 mid s t := by
  refine ends_run (f := semWrite mid.val n.val) rfl hl ?_
  rw [semWrite_stranger (by rw [semHolder_eq]; cases hh : holder n s <;> simp_all)]
  exact ⟨logEvent_sems .., eventLogged_logEvent .sem mid.val hr (by omega) (by decide)⟩

theorem semForce_releases {mid : Fin 32} {v : Word} {m : Nat} (hm : mid.val ≤ 1) (h : holder (v.toNat % 64) s = some m)
    (hr : logReady s) : Ends (.semForceWrite mid v) s fun t =>
      t.dev.mem.sems = tabSet 0 s.dev.mem.sems (v.toNat % 64) 0 ∧ EventLogged 6 (v.toNat % 64) 2 m s t := by
  refine ends_run (f := semForce mid.val (fld v 0 6)) rfl hl ?_
  rw [show fld v 0 6 = v.toNat % 64 from by simp [fld_eq_div_mod], semForce_held hm (by rw [semHolder_eq, h])]
  refine ⟨logEvent_sems .., ?_⟩
  exact eventLogged_logEvent (s := withHolder (v.toNat % 64) none s) .sem m hr (by omega) (by decide)

/-- A send by one side leaves its record as the send makes it, and everything else of the channels (R537, R538). -/
theorem mbxSend_leaves {mid : Fin 32} {c : Fin 16} {b : Bool} (h : SideIs mid c b s) (v : Word) :
    Ends (.mbxSend mid c v) s fun t =>
      (ChannelsKept c s t ∧ sideRec (!b) (channel c t) = sideRec (!b) (channel c s)
        ∧ sideRec b (channel c t) = sentSide (v.toNat % 16) (sideRec b (channel c s)))
      ∧ (v.toNat % 16 = 0 ∨ 8 < v.toNat % 16 ∨ queueWords (sideRec b (channel c s)).queue + v.toNat % 16 ≤ 8 →
          OnlyMailboxes s t) := by
  refine ends_run (f := mbxSend mid.val c.val (fld v 0 4)) rfl hl ?_
  rw [show fld v 0 4 = v.toNat % 16 from by simp [fld_eq_div_mod], mbxSend_side (sideOf_of_sideIs h)]
  refine ⟨channelsKept_of (fun k => ?_) ?_, fun hroom => onlyMailboxes_commit ((accessed_mailed c _).trans ?_)⟩
  · rw [channel_commit, getChan_mbxQueue, side_accessed, getChan_accessed, getChan_accessed, if_pos rfl]
    split <;> rfl
  · unfold sentSide
    split
    · rfl
    · split <;> rfl
  · by_cases hlen : v.toNat % 16 = 0 ∨ 8 < v.toNat % 16
    · rw [mbxQueue_none hlen]; exact .refl _
    · rw [mbxQueue_fits hlen (by rw [side_accessed]; exact (or_assoc.2 hroom).resolve_left hlen)]
      exact (setChan_mailed ..).trans (mbxIrq_mailed _)

/-- A pop by one side takes the head message of the queue toward it (R540). -/
theorem mbxPop_takes {mid : Fin 32} {c : Fin 16} {b : Bool} (h : SideIs mid c b s) :
    Ends (.mbxPop mid c) s fun t =>
      (sideRec (!b) (channel c t)).queue = (sideRec (!b) (channel c s)).queue.drop 1
        ∧ sideRec b (channel c t) = sideRec b (channel c s) ∧ ChannelsKept c s t ∧ OnlyMailboxes s t := by
  refine ends_run (f := mbxPop mid.val c.val) rfl hl ?_
  rw [mbxPop_side (sideOf_of_sideIs h)]
  obtain ⟨hkept, hother, hpop⟩ := channelsKept_of (s := s) (c := c) (b := !b) (y := popped (side (!b) (channel c s)))
    (t := commit s (mbxDrop b c (accessed c (begin_ s)))) (fun k => by
      rw [channel_commit, getChan_mbxDrop, side_accessed, getChan_accessed, getChan_accessed, if_pos rfl]
      split <;> rfl) rfl
  rw [Bool.not_not] at hother
  refine ⟨?_, hother, hkept, onlyMailboxes_commit ((accessed_mailed c _).trans (mbxDrop_mailed ..))⟩
  rw [hpop]
  exact List.drop_one.symm

theorem mbxLock_sets (v : Word) : exec (.mbxLock v) s = .next (withDev s { s.dev with mbx := { s.dev.mbx with
    lock := decide (s.dev.mbx.lock = true ∨ v.toNat % 2 = 1) } }) := by
  have hbit : bit v 0 = decide (v.toNat % 2 = 1) := by simp [bit, BitVec.getLsbD, Nat.testBit_zero]
  refine (run_live _ s hl).trans ?_
  unfold mbxLock
  rw [hbit, show decide (s.dev.mbx.lock = true ∨ v.toNat % 2 = 1) = (s.dev.mbx.lock || decide (v.toNat % 2 = 1)) by simp]
  rfl

end

end Sys2Proof.Claims

namespace Sys2Proof.Proofs

open Sys2Proof.Machine Sys2Proof.Claims

/-- Settles O7: a read of a semaphore by who holds it. -/
theorem semaphoreReadIsTestAndSet : Obligations.SemaphoreReadIsTestAndSet := fun mid n _ hl => semRead_runs hl mid n

/-- Settles O8: by the holder, by another MID, and by force. -/
theorem semaphoreRelease : Obligations.SemaphoreRelease :=
  ⟨fun _ _ _ hl => ⟨semWrite_byHolder hl, semWrite_byOther hl⟩,
    fun _ _ _ hl => ⟨fun hm => (run_live _ _ hl).trans (congrArg _ (congrArg _ (semForce_stranger hm))),
      fun _ hm h hr => semForce_releases hl hm h hr⟩⟩

/-- Settles O9: a send makes of the sender's record what `sentSide` says, case by case, and a pop drops one message. -/
theorem mailboxCommands : Obligations.MailboxCommands := by
  refine ⟨?_, fun mid c b s hl h => mbxPop_takes hl h, fun v s hl => mbxLock_sets hl v⟩
  intro mid c v b s hl h len me used
  obtain ⟨t, ht, ⟨hkept, hother, hme⟩, honly⟩ := mbxSend_leaves hl h v
  refine ⟨t, ht, hkept, hother, ?fits, ?lost, ?none⟩ <;> rw [hme]
  case fits =>
    rintro ⟨h1, h8, hroom⟩
    rw [sentSide_fits (by omega) hroom]
    exact ⟨rfl, rfl, honly (.inr (.inr hroom))⟩
  case lost =>
    rintro ⟨h1, h8, hfull⟩
    rw [sentSide_lost (by omega) hfull]
    exact ⟨rfl, rfl⟩
  case none =>
    intro hnone
    rw [sentSide_none hnone]
    exact ⟨rfl, honly (or_assoc.1 (.inl hnone))⟩

end Sys2Proof.Proofs
end

section
/-! SUPPORT. Resets: what a whole-device reset leaves, the side reset of the host's port, and the reset of units (spec/18 R563
to R567). -/

namespace Sys2Proof.Machine

open Sys2Proof.Claims

/-! A meaning that acts whatever the main device does. -/

theorem ends_runAny {c : Instr} {s : State} {f : Work → Work} {P : State → Prop} (hc : exec c s = runAny f s)
    (h : P (commit s (f (begin_ s)))) : Ends c s P := ⟨_, hc, h⟩

/-- A meaning that changes units only. -/
theorem run_units {f : Work → Work} {s : State} {d : Dev} (hl : live s = true) (h : f (begin_ s) = { begin_ s with d := d }) :
    run f s = .next (withDev s d) := by
  rw [run_live f s hl, h]
  rfl

theorem runAny_units {f : Work → Work} {s : State} {d : Dev} (h : f (begin_ s) = { begin_ s with d := d }) :
    runAny f s = .next (withDev s d) := by
  rw [runAny, h]
  rfl

/-- A meaning that acts under a condition, and otherwise changes nothing. -/
theorem commit_ite {c : Prop} [Decidable c] (s : State) (w : Work) :
    commit s (if c then w else begin_ s) = if c then commit s w else s := apply_ite ..

/-! The whole device. -/

theorem clearHits_all {a : Nat} (h : isBank a = true) :
    clearHits (BitVec.allOnes 32) bankLo (bankHi - bankLo) a = true := by
  have hm : a % 32 < 32 := Nat.mod_lt _ (by decide)
  simp only [isBank, Bool.and_eq_true, decide_eq_true_eq] at h
  have hhi : bankLo + (bankHi - bankLo) = bankHi := by decide
  simp [clearHits, h, hhi, -BitVec.reduceAllOnes, hm]

/-- Every bank word is discarded. -/
theorem memRead_wholeReset (c : Nat) (st : Startup) (s : State) (w : Work) {a : Nat} (ha : isBank a = true) :
    memRead (commit s (wholeReset c st w)).mem a = 0 := by
  rw [commit_mem, memRead_memApply]
  exact if_pos (clearHits_all ha)

/-- The state a whole-device reset leaves, whatever becomes of the trip's flags and the ledger's count of trips (R565). -/
theorem resetTo_wholeReset (c : Nat) (st : Startup) (s : State) (tr lo : Bool) (n : Nat) :
    ResetTo c st s (commit s { wholeReset c st (begin_ s) with
      d.boot.tripped := tr, d.boot.tripLow := lo, d.age.trips := n }) := by
  have hmem : ∀ a, isBank a = true → memRead (commit s (wholeReset c st (begin_ s))).mem a = 0 :=
    fun a => memRead_wholeReset c st s _
  refine ⟨rfl, rfl, rfl, hmem, rfl, rfl, rfl, rfl, rfl, rfl, rfl, rfl, rfl, rfl, rfl, rfl, rfl, rfl, rfl, rfl, rfl, rfl, rfl, rfl,
    rfl, rfl, rfl, rfl, rfl, ?_, ?_⟩
  · rintro rfl
    exact ⟨rfl, rfl⟩
  · intro h
    have hk : (c != 0) = true := by simpa using h
    simp [wholeReset, resetDev, clearBanks, hk]

theorem rstKey_iff (v : Word) : rstKey v = true ↔ keyed v := by simp [rstKey, keyed, fld_eq_div_mod]

theorem thermalTrip_trips {w : Work} (h : w.d.boot.start ≠ .held) (hd : w.d.boot.dead = false) : thermalTrip w
    = { wholeReset 3 .held w with d.boot.tripped := true, d.age.trips := w.d.age.trips + 1 } :=
  if_neg (by simp [porstHeld, h, hd])

/-! The PCI Express side. -/

/-- Of the host interface's registers that a side reset clears, an interrupt changes none but the pending bits. -/
theorem irq_link (i : Nat) (w : Work) :
    (irq i w).d.hif.linkUp = w.d.hif.linkUp ∧ (irq i w).d.hif.msixEn = w.d.hif.msixEn := by
  unfold irq irqAssert send
  dsimp only
  split
  · split
    · exact ⟨rfl, rfl⟩
    · split <;> exact ⟨rfl, rfl⟩
  · exact ⟨rfl, rfl⟩

theorem logEvent_link (b : Blk) (i c x : Nat) (w : Work) :
    (logEvent b i c x w).d.hif.linkUp = w.d.hif.linkUp ∧ (logEvent b i c x w).d.hif.msixEn = w.d.hif.msixEn := by
  have hw : ∀ a vs (u : Work), (wrs a vs u).d.hif = u.d.hif := fun a vs u => by
    obtain ⟨_, _, _, h⟩ := wrs_frame vs a u; rw [h]
  unfold logEvent ptStamp freeN
  dsimp only
  split <;> simp only [irq_link, hw, and_self]

/-- What the side reset of the mailboxes leaves alone. -/
structure SideKept (w v : Work) : Prop where
  sys : v.d.sys = w.d.sys
  queues : v.d.cmd.queues = w.d.cmd.queues
  lists : v.d.cmd.dispatch = w.d.cmd.dispatch ∧ v.d.cmd.effects = w.d.cmd.effects ∧ v.d.cmd.journal = w.d.cmd.journal
  sems : v.d.mem.sems = w.d.mem.sems
  link : v.d.hif.linkUp = w.d.hif.linkUp ∧ v.d.hif.msixEn = w.d.hif.msixEn

theorem SideKept.refl (w : Work) : SideKept w w := ⟨rfl, rfl, ⟨rfl, rfl, rfl⟩, rfl, ⟨rfl, rfl⟩⟩

theorem SideKept.trans {u v w : Work} (h : SideKept w u) (k : SideKept u v) : SideKept w v where
  sys := k.sys.trans h.sys
  queues := k.queues.trans h.queues
  lists := ⟨k.lists.1.trans h.lists.1, k.lists.2.1.trans h.lists.2.1, k.lists.2.2.trans h.lists.2.2⟩
  sems := k.sems.trans h.sems
  link := ⟨k.link.1.trans h.link.1, k.link.2.trans h.link.2⟩

theorem logEvent_sideKept (b : Blk) (i c x : Nat) (w : Work) : SideKept w (logEvent b i c x w) where
  sys := logEvent_sys ..
  queues := logEvent_queues ..
  lists := by obtain ⟨_, _, _, _, _, _, _, _, _, h⟩ := logEvent_frame b i c x w; rw [h]; exact ⟨rfl, rfl, rfl⟩
  sems := logEvent_sems ..
  link := logEvent_link ..

theorem setChan_sideKept (c : Nat) (x : MbxChan) (w : Work) : SideKept w (setChan c x w) := ⟨rfl, rfl, ⟨rfl, rfl, rfl⟩, rfl, ⟨rfl, rfl⟩⟩

theorem irq_sideKept (i : Nat) (w : Work) : SideKept w (irq i w) where
  sys := irq_sys ..
  queues := by rw [irq_cmd]
  lists := by rw [irq_cmd]; exact ⟨rfl, rfl, rfl⟩
  sems := by rw [irq_mem]
  link := irq_link ..

theorem mbxIrq_sideKept (w : Work) : SideKept w (mbxIrq w) := by
  unfold mbxIrq
  extract_lets h s rise _ _ w1
  have h1 : SideKept w w1 := ⟨rfl, rfl, ⟨rfl, rfl, rfl⟩, rfl, ⟨rfl, rfl⟩⟩
  exact iteInduction (fun _ => h1.trans (irq_sideKept 8 w1)) fun _ => h1

theorem sideReset_sideKept (mid : Nat) (w : Work) : SideKept w (sideReset mid w) := by
  unfold sideReset
  refine SideKept.trans (each_keeps (P := SideKept w) _ ?_ (.refl w)) (mbxIrq_sideKept _)
  intro c _ v hv
  dsimp only
  split
  · exact (hv.trans (setChan_sideKept ..)).trans (logEvent_sideKept ..)
  · exact hv

theorem tabGet_eachSet (d x : Nat) (l : List Nat) (t : Tab Nat) (n : Nat) :
    tabGet d (l.foldl (fun t k => tabSet d t k x) t) n = if n ∈ l then x else tabGet d t n := by
  induction l generalizing t with
  | nil => simp
  | cons k l ih =>
    rw [List.foldl_cons, ih, tabGet_tabSet]
    by_cases hn : n = k <;> simp [hn]

theorem each_setSem (l : List Nat) (h : Nat) (w : Work) :
    each l (fun n => setSem n h) w = { w with d.mem.sems := l.foldl (fun t k => tabSet 0 t k h) w.d.mem.sems } := by
  induction l generalizing w with
  | nil => rfl
  | cons k l ih => exact ih (setSem k h w)

/-- Every semaphore of a MID is released, and no other (R530). -/
theorem semHolder_semReleaseAll (mid n : Nat) (w : Work) (hn : n < 64) :
    semHolder n (semReleaseAll mid w) = if semHolder n w = mid + 1 then 0 else semHolder n w := by
  unfold semReleaseAll
  rw [each_setSem, semHolder, tabGet_eachSet]
  have hmem : n ∈ (List.range 64).filter (fun n => semHolder n w == mid + 1) ↔ semHolder n w = mid + 1 := by
    simp [hn]
  simp only [hmem]
  rfl

theorem semReleaseAll_frame (mid : Nat) (w : Work) : ∃ t, semReleaseAll mid w = { w with d.mem.sems := t } :=
  ⟨_, each_setSem _ _ _⟩

theorem semHolder_congr {v w : Work} (h : v.d.mem.sems = w.d.mem.sems) (n : Nat) : semHolder n v = semHolder n w :=
  congrArg (tabGet 0 · n) h

/-- The holders after a release of all of a MID's semaphores, as the states show them. -/
theorem holder_released {mid n : Nat} {s : State} {w v : Work} (hn : n < 64) (hw : w.d.mem.sems = s.dev.mem.sems)
    (hv : v.d.mem.sems = (semReleaseAll mid w).d.mem.sems) :
    holder n (commit s v) = if holder n s = some mid then none else holder n s := by
  have h := (semHolder_congr hv n).trans (semHolder_semReleaseAll mid n w hn)
  rw [semHolder_congr (w := begin_ s) hw] at h
  unfold semHolder at h
  unfold holder
  rw [commit_dev, h, begin_d]
  cases tabGet 0 s.dev.mem.sems n with
  | zero => simp
  | succ m => by_cases hm : m = mid <;> simp [hm]

/-- The endpoint and the host interface's registers as a side reset leaves them. -/
def linkCleared (w : Work) : Work := { w with
  d.hif.msixEn := false, d.hif.linkUp := false, d.hif.speed := 0, d.hif.width := 0, d.hif.funcMask := false
  d.hif.vecMask := BitVec.allOnes 32, d.hif.pba := 0, d.hif.ienp := 0, d.hif.ivec := List.range 20, d.hif.cto := false }

/-- Queues that are no longer enabled. -/
def queuesOff (l : List Nat) (w : Work) : Work := each l (fun q w => modQ q (fun k => { k with en := false }) w) w

theorem getQ_linkCleared (k : Nat) (w : Work) : getQ k (linkCleared w) = getQ k w := rfl

theorem pcieSideReset_eq (w : Work) :
    Machine.pcieSideReset w = sideReset 0 (semReleaseAll 0 (queuesOff (List.range 4) (linkCleared w))) := rfl

theorem queuesOff_frame (l : List Nat) (w : Work) : ∃ q, queuesOff l w = { w with d.cmd.queues := q } := by
  refine each_keeps (P := fun v => ∃ q, v = { w with d.cmd.queues := q }) l ?_ ⟨w.d.cmd.queues, rfl⟩
  rintro a - _ ⟨q, rfl⟩
  exact ⟨_, rfl⟩

theorem getQ_queuesOff (k : Nat) (l : List Nat) (w : Work) :
    getQ k (queuesOff l w) = if k ∈ l then { getQ k w with en := false } else getQ k w := by
  induction l generalizing w with
  | nil => simp [queuesOff]
  | cons q l ih =>
    refine (ih (modQ q (fun x => { x with en := false }) w)).trans ?_
    rw [getQ_modQ]
    by_cases hk : k = q
    · subst hk; by_cases hl : k ∈ l <;> simp [hl]
    · by_cases hl : k ∈ l <;> simp [hk, hl]

/-! Units. -/

theorem each_filter {α σ : Type} (p : α → Bool) (f : α → σ → σ) (l : List α) (s : σ) :
    each (l.filter p) f s = each l (fun a s => if p a then f a s else s) s := by
  induction l generalizing s with
  | nil => rfl
  | cons a l ih =>
    rw [List.filter_cons]
    cases hp : p a with
    | true => simpa [each, hp] using ih (f a s)
    | false => simpa [each, hp] using ih s

end Sys2Proof.Machine

namespace Sys2Proof.Claims

open Sys2Proof.Machine

/-- What a side reset of the host's port leaves (R566). -/
theorem sideReset_leaves (s : State) : let t := commit s (Machine.pcieSideReset (begin_ s))
    (∀ q, q < 4 → queue q t = { queue q s with en := false }) ∧ queue 4 t = queue 4 s
      ∧ (∀ n, n < 64 → holder n t = (if holder n s = some 0 then none else holder n s))
      ∧ t.dev.sys = s.dev.sys ∧ t.dev.cmd.dispatch = s.dev.cmd.dispatch ∧ t.dev.cmd.effects = s.dev.cmd.effects
      ∧ t.dev.cmd.journal = s.dev.cmd.journal ∧ t.dev.hif.linkUp = false ∧ t.dev.hif.msixEn = false := by
  have hq (q : Nat) := getQ_queuesOff q (List.range 4) (linkCleared (begin_ s))
  simp only [getQ_linkCleared, getQ_begin, List.mem_range] at hq
  have k := sideReset_sideKept 0 (semReleaseAll 0 (queuesOff (List.range 4) (linkCleared (begin_ s))))
  rw [← pcieSideReset_eq] at k
  generalize Machine.pcieSideReset (begin_ s) = v at k ⊢
  have hsems := k.sems
  obtain ⟨sems, hs⟩ := semReleaseAll_frame 0 (queuesOff (List.range 4) (linkCleared (begin_ s)))
  obtain ⟨queues, he⟩ := queuesOff_frame (List.range 4) (linkCleared (begin_ s))
  rw [hs, he] at k
  obtain ⟨hsys, hqueues, ⟨hdispatch, heffects, hjournal⟩, -, hup, hen⟩ := k
  have hqueue (q : Nat) : getQ q v = if q < 4 then { queue q s with en := false } else queue q s := by
    rw [← hq q, he]
    exact congrArg (tabGet {} · q) hqueues
  exact ⟨fun q h => (hqueue q).trans (if_pos h), (hqueue 4).trans (if_neg (by decide)),
    fun n hn => holder_released hn (by rw [he]; rfl) hsems, hsys, hdispatch, heffects, hjournal, hup, hen⟩

/-- One unit reset where its bit is set. -/
def unitIf (b : Bool) (k : Nat) (w : Work) : Work := if b then unitReset k w else w

theorem unitIf_ce (b : Bool) (w : Work) : unitIf b 1 w = { w with d.ce := if b then {} else w.d.ce } := by cases b <;> rfl
theorem unitIf_fd (b : Bool) (w : Work) : unitIf b 2 w = { w with d.fd := if b then [] else w.d.fd } := by cases b <;> rfl
theorem unitIf_ringA (b : Bool) (w : Work) : unitIf b 3 w
    = { w with d.dq := ringCleared b 0 w.d.dq, d.dqShown := ringCleared b 0 w.d.dqShown } := by cases b <;> rfl
theorem unitIf_ringB (b : Bool) (w : Work) : unitIf b 4 w
    = { w with d.dq := ringCleared b 1 w.d.dq, d.dqShown := ringCleared b 1 w.d.dqShown } := by cases b <;> rfl
theorem unitIf_grf (b : Bool) (w : Work) : unitIf b 5 w = { w with d.grf := if b then {} else w.d.grf } := by cases b <;> rfl
theorem unitIf_hvs (b : Bool) (w : Work) : unitIf b 6 w = { w with d.hvs := if b then {} else w.d.hvs } := by cases b <;> rfl

/-- The units that SYS_RST.UNIT names, reset one after the other (Table 18.12). -/
theorem unitsReset (v : Word) (w : Work) : each ((List.range 7).filter (fun k => k != 0 && bit v k)) unitReset w
    = { w with
      d.ce := if v.getLsbD 1 then {} else w.d.ce
      d.fd := if v.getLsbD 2 then [] else w.d.fd
      d.dq := ringCleared (v.getLsbD 4) 1 (ringCleared (v.getLsbD 3) 0 w.d.dq)
      d.dqShown := ringCleared (v.getLsbD 4) 1 (ringCleared (v.getLsbD 3) 0 w.d.dqShown)
      d.grf := if v.getLsbD 5 then {} else w.d.grf
      d.hvs := if v.getLsbD 6 then {} else w.d.hvs } := by
  have h : each ((List.range 7).filter (fun k => k != 0 && bit v k)) unitReset w = unitIf (bit v 6) 6 (unitIf (bit v 5) 5
      (unitIf (bit v 4) 4 (unitIf (bit v 3) 3 (unitIf (bit v 2) 2 (unitIf (bit v 1) 1 w))))) := each_filter ..
  rw [h, unitIf_ce, unitIf_fd, unitIf_ringA, unitIf_ringB, unitIf_grf, unitIf_hvs]
  rfl

theorem rstUnit_iff (v : Word) (w : Work) : (rstKey v && (w.d.sys.st == .config || w.d.sys.st == .test)) = true
    ↔ keyed v ∧ (w.d.sys.st = .config ∨ w.d.sys.st = .test) := by simp [rstKey_iff]

end Sys2Proof.Claims

namespace Sys2Proof.Proofs

open Sys2Proof.Machine Sys2Proof.Claims

/-- Settles O23: each source is a whole-device reset with its cause. -/
theorem wholeDeviceReset : Obligations.WholeDeviceReset := by
  refine ⟨fun v s hl => ⟨fun hk hw => ?key, fun hk => ?wrong⟩, fun s => ?low, fun s hs => ?vdd, fun s hl hp => ?perst,
    fun s hs hd => ?trip⟩
  case key =>
    refine ends_run (f := rstWhole v) rfl hl ?_
    rw [rstWhole, if_pos (by simp [rstKey_iff, hk, bit, hw])]
    exact resetTo_wholeReset 2 .settle s ..
  case wrong =>
    exact run_unchanged (f := rstWhole v) hl (if_neg (by simp [rstKey_iff, hk]))
  case low => exact ends_runAny (f := tripReset .held true) rfl (resetTo_wholeReset 0 .held s ..)
  case vdd =>
    refine ends_runAny (f := vddMonitor) rfl ?_
    rw [vddMonitor, if_neg (by simpa using hs)]
    exact resetTo_wholeReset 0 .settle s ..
  case perst =>
    refine ends_run (f := perstLow) rfl hl ?_
    rw [show perstLow (begin_ s) = _ from if_pos hp]
    exact resetTo_wholeReset 1 .settle s ..
  case trip =>
    refine ends_runAny (f := thermalTrip) rfl ?_
    rw [thermalTrip_trips hs hd]
    exact ⟨resetTo_wholeReset 3 .held s .., rfl⟩

/-- Settles O24: the side reset part by part, the named units, and three changes of the boot registers. -/
theorem partialResets : Obligations.PartialResets := by
  refine ⟨fun c s hl hc => ?side, fun v s hl => ⟨fun h => ?units, fun h => ?ignored⟩, fun s => ?tripEnd, fun s hl => run_units hl rfl,
    fun s hl => ?refclk⟩
  case side =>
    obtain rfl | ⟨rfl, hp⟩ := hc
    · exact ends_run (f := Machine.pcieSideReset) rfl hl (sideReset_leaves s)
    · refine ends_run (f := perstLow) rfl hl ?_
      rw [show perstLow (begin_ s) = _ from if_neg (by simp [hp])]
      exact sideReset_leaves s
  case units => exact run_units hl ((if_pos ((rstUnit_iff v _).2 h)).trans (unitsReset v _))
  case ignored => exact run_unchanged (f := rstUnit v) hl (if_neg fun hc => h ((rstUnit_iff v _).1 hc))
  case tripEnd =>
    exact congrArg _ (commit_ite (c := s.dev.boot.tripped = true) s _)
  case refclk =>
    exact (run_live _ s hl).trans (congrArg _ (commit_ite (c := s.dev.boot.refsrc = true) s _))

end Sys2Proof.Proofs
end

section
/-! SUPPORT. Start-up: the judge's limits, the clearing of the bank groups, and the entry to BOOT (spec/18 R547 to R568). -/

namespace Sys2Proof.Machine

open Sys2Proof.Claims

/-! The judge. -/

/-- The limits of a window, in whole numbers (R547). -/
theorem judgePass_iff (age c : Nat) : judgePass age c = true ↔ windowPasses age c := by
  have hmin : (min (age : ℚ) 100) = ((min age 100 : Nat) : ℚ) := by push_cast; rfl
  obtain ⟨m, hm⟩ : ∃ m, m = min age 100 := ⟨_, rfl⟩
  have hle : 30000 + m ≤ 1000000 := by omega
  unfold judgePass windowPasses
  rw [hmin, ← hm]
  simp only [Bool.and_eq_true, decide_eq_true_eq, bne_iff_ne, ne_eq, and_assoc]
  refine and_congr_right fun _ => and_congr ?_ ?_
  · rw [← Nat.cast_le (α := ℚ)]
    push_cast [Nat.cast_sub hle]
    constructor <;> intro h <;> linarith
  · rw [← Nat.cast_le (α := ℚ)]
    push_cast
    constructor <;> intro h <;> linarith

theorem setState_frame (t : DevState) (w : Work) : ∃ p h o, setState t w
    = { w with d.sys.st := t, d.sys.prev := p, d.hif := h, d.out := o } := by
  unfold setState
  split
  next h => exact ⟨w.d.sys.prev, w.d.hif, w.d.out, by rw [← h]⟩
  next h =>
    obtain ⟨x, o, hirq⟩ := irq_frame 10 { w with d.sys.prev := w.d.sys.st, d.sys.st := t }
    exact ⟨w.d.sys.st, x, o, hirq⟩

@[simp] theorem setState_boot (t : DevState) (w : Work) : (setState t w).d.boot = w.d.boot := by
  obtain ⟨_, _, _, h⟩ := setState_frame t w; rw [h]
@[simp] theorem setState_mem (t : DevState) (w : Work) : (setState t w).d.mem = w.d.mem := by
  obtain ⟨_, _, _, h⟩ := setState_frame t w; rw [h]
@[simp] theorem setState_ops (t : DevState) (w : Work) : (setState t w).ops = w.ops := by
  obtain ⟨_, _, _, h⟩ := setState_frame t w; rw [h]

/-- A device held in BOOT_HOLD shows why. -/
theorem bootHold_holds (n : Nat) (w : Work) :
    (bootHold n w).d.sys.st = .bootHold ∧ (bootHold n w).d.boot = { w.d.boot with holdStat := n } :=
  ⟨setState_st .., setState_boot ..⟩

section
variable {w : Work} {c : Nat} (hs : w.d.boot.start = .judge) (hst : w.d.sys.st ≠ .bootHold)
include hs hst

theorem judgeWindow_pass (h : windowPasses w.d.boot.agePpm c) : judgeWindow c w = { w with
    d.boot.lastC := c, d.boot.passes := w.d.boot.passes + 1
    d.boot.start := if w.d.boot.passes + 1 = 8 then .locking else .judge } := by
  have hj : judgePass w.d.boot.agePpm c = true := (judgePass_iff _ _).2 h
  unfold judgeWindow
  rw [if_pos (by simp [hs, hst])]
  dsimp only
  rw [if_pos hj]
  by_cases h8 : w.d.boot.passes + 1 = 8
  · rw [if_pos (by simpa using h8), if_pos h8]
  · rw [if_neg (by simpa using h8), if_neg h8, ← hs]

theorem judgeWindow_fail (h : ¬ windowPasses w.d.boot.agePpm c) : judgeWindow c w =
    if w.d.boot.fails + 1 = 8
    then bootHold 3 { w with d.boot.lastC := c, d.boot.passes := 0, d.boot.fails := w.d.boot.fails + 1 }
    else { w with d.boot.lastC := c, d.boot.passes := 0, d.boot.fails := w.d.boot.fails + 1 } := by
  have hj : ¬ judgePass w.d.boot.agePpm c = true := fun k => h ((judgePass_iff _ _).1 k)
  unfold judgeWindow
  rw [if_pos (by simp [hs, hst])]
  dsimp only
  rw [if_neg hj]
  by_cases h8 : w.d.boot.fails + 1 = 8
  · rw [if_pos (by simpa using h8), if_pos h8]
  · rw [if_neg (by simpa using h8), if_neg h8]

end

/-! Bank groups. -/

theorem getLsbD_bvPut {n : Nat} (k j : Nat) (b : Bool) (v : BitVec n) (hk : k < n) :
    (bvPut k b v).getLsbD j = if j = k then b else v.getLsbD j := by
  have hbit : (BitVec.ofNat n (2 ^ k)).getLsbD j = decide (j = k) := by
    rw [BitVec.getLsbD_ofNat, Nat.testBit_two_pow]
    by_cases hj : j = k
    · subst hj; simp [hk]
    · simp [hj, Ne.symm hj]
  unfold bvPut
  generalize BitVec.ofNat n (2 ^ k) = x at hbit ⊢
  by_cases hj : j = k
  · subst hj
    cases b <;> simp [hbit, hk]
  · cases b
    · by_cases hn : j < n
      · rw [if_neg (by decide), BitVec.getLsbD_and, BitVec.getLsbD_not, hbit]
        simp [hj, hn]
      · simp [hj, BitVec.getLsbD_of_ge _ j (Nat.le_of_not_lt hn)]
    · simp [hbit, hj]

/-- The words of a group are cleared. -/
theorem clearHits_group {g a : Nat} (hg : g < 8) (ha : isBank a = true) :
    clearHits (groupBanks g) bankLo (bankHi - bankLo) a = decide (groupOf a = g) := by
  have hm : a % 32 < 32 := Nat.mod_lt _ (by decide)
  have hhi : bankLo + (bankHi - bankLo) = bankHi := by decide
  have hbanks : ∀ g < 8, ∀ b < 32, (groupBanks g).getLsbD b = decide (b / 4 = g) := by decide
  simp only [isBank, Bool.and_eq_true, decide_eq_true_eq] at ha
  rw [show groupOf a = a % 32 / 4 from rfl]
  simp [clearHits, hbanks g hg _ hm, ha, hhi]

/-- What the clear of a group leaves in a word. -/
theorem rd_clearGroup {g a : Nat} (hg : g < 8) (ha : isBank a = true) (w : Work) :
    rd a (clearBanks (groupBanks g) w) = if groupOf a = g then 0 else rd a w := by
  show (if clearHits (groupBanks g) bankLo (bankHi - bankLo) a then 0 else rd a w) = _
  rw [clearHits_group hg ha]
  by_cases h : groupOf a = g <;> simp [h]

/-- A group switched on or off: its words are cleared (R525, R564). -/
def groupSet (g : Nat) (on : Bool) (w : Work) : Work :=
  clearBanks (groupBanks g) { w with
    d.mem.pwrOn := bvPut g on w.d.mem.pwrOn, d.mem.clrBusy := bvPut g on w.d.mem.clrBusy
    d.mem.clrDone := bvPut g false w.d.mem.clrDone, d.boot.bgrp := bvPut g on w.d.boot.bgrp
    d.mem.ecc := w.d.mem.ecc.filter (fun kv => groupOf kv.1 != g) }

theorem groupUp_eq (g : Nat) (w : Work) : groupUp g w = groupSet g true w := rfl
theorem groupDown_eq (g : Nat) (w : Work) : groupDown g w = groupSet g false w := rfl

/-- The groups of a list switched to what is asked of them, where a switch is due. -/
def switchGroups (due : Nat → Bool → Bool) (on : Nat → Bool) (l : List Nat) (w : Work) : Work :=
  each l (fun g w => if due g (w.d.boot.bgrp.getLsbD g) then groupSet g (on g) w else w) w

/-- What switching groups leaves: BGRP, the clear engine's bits, and the words of the groups that were switched. -/
structure Switched (due : Nat → Bool → Bool) (on : Nat → Bool) (l : List Nat) (w v : Work) : Prop where
  units : v.base = w.base ∧ v.d.boot = { w.d.boot with bgrp := v.d.boot.bgrp } ∧ v.d.sys = w.d.sys
  bgrp : ∀ j, v.d.boot.bgrp.getLsbD j
    = if j ∈ l ∧ due j (w.d.boot.bgrp.getLsbD j) = true then on j else w.d.boot.bgrp.getLsbD j
  busy : ∀ j, v.d.mem.clrBusy.getLsbD j
    = if j ∈ l ∧ due j (w.d.boot.bgrp.getLsbD j) = true then on j else w.d.mem.clrBusy.getLsbD j
  done : ∀ j, v.d.mem.clrDone.getLsbD j
    = if j ∈ l ∧ due j (w.d.boot.bgrp.getLsbD j) = true then false else w.d.mem.clrDone.getLsbD j
  words : ∀ a, isBank a = true → rd a v
    = if groupOf a ∈ l ∧ due (groupOf a) (w.d.boot.bgrp.getLsbD (groupOf a)) = true then 0 else rd a w

theorem groupSet_switched (due : Nat → Bool → Bool) (on : Nat → Bool) {g : Nat} (hg : g < 8) (w : Work) :
    Switched due on [g] w (if due g (w.d.boot.bgrp.getLsbD g) then groupSet g (on g) w else w) := by
  by_cases hd : due g (w.d.boot.bgrp.getLsbD g) = true
  · rw [if_pos hd]
    refine ⟨⟨rfl, rfl, rfl⟩, fun j => (getLsbD_bvPut g j (on g) _ hg).trans ?_, fun j => (getLsbD_bvPut g j (on g) _ hg).trans ?_,
      fun j => (getLsbD_bvPut g j false _ hg).trans ?_, fun a ha => (rd_clearGroup hg ha _).trans ?_⟩
    case refine_4 =>
      by_cases h : groupOf a = g
      · subst h; simp [hd]
      · rw [if_neg h, if_neg (fun k => h (List.mem_singleton.1 k.1))]; rfl
    all_goals
      by_cases h : j = g
      · subst h; simp [hd]
      · simp [h]
  · rw [if_neg hd]
    have hno (j : Nat) : ¬ (j ∈ [g] ∧ due j (w.d.boot.bgrp.getLsbD j) = true) := by
      rintro ⟨hj, hdue⟩
      rw [List.mem_singleton.1 hj] at hdue
      exact hd hdue
    exact ⟨⟨rfl, rfl, rfl⟩, fun j => (if_neg (hno j)).symm, fun j => (if_neg (hno j)).symm, fun j => (if_neg (hno j)).symm,
      fun a _ => (if_neg (hno _)).symm⟩

theorem ite_mem_cons {α : Type} {j g : Nat} {l : List Nat} {p : Prop} [Decidable p] (x y : α) (_hg : j = g → j ∉ l) :
    (if j ∈ l ∧ p then x else if j ∈ [g] ∧ p then x else y) = if j ∈ g :: l ∧ p then x else y := by
  by_cases h1 : j = g <;> by_cases h2 : j ∈ l <;> by_cases h3 : p <;> simp [*]

theorem switchGroups_switched (due : Nat → Bool → Bool) (on : Nat → Bool) (l : List Nat) (hn : l.Nodup) (hl : ∀ g ∈ l, g < 8)
    (w : Work) : Switched due on l w (switchGroups due on l w) := by
  induction l generalizing w with
  | nil => exact ⟨⟨rfl, rfl, rfl⟩, fun j => by simp [switchGroups], fun j => by simp [switchGroups], fun j => by simp [switchGroups], fun a _ => by simp [switchGroups]⟩
  | cons g l ih =>
    obtain ⟨hgl, hn⟩ := List.nodup_cons.1 hn
    have h := groupSet_switched due on (hl g (List.mem_cons_self ..)) w
    have k := ih hn (fun x hx => hl x (List.mem_cons_of_mem g hx))
      (if due g (w.d.boot.bgrp.getLsbD g) then groupSet g (on g) w else w)
    change Switched due on l _ (switchGroups due on (g :: l) w) at k
    generalize switchGroups due on (g :: l) w = v at k ⊢
    generalize (if due g (w.d.boot.bgrp.getLsbD g) then groupSet g (on g) w else w) = u at h k
    have hsame {j : Nat} (hj : j ∈ l) : u.d.boot.bgrp.getLsbD j = w.d.boot.bgrp.getLsbD j := by
      rw [h.bgrp, if_neg]
      rintro ⟨hx, -⟩
      exact hgl (List.mem_singleton.1 hx ▸ hj)
    have hdue (j : Nat) : (j ∈ l ∧ due j (u.d.boot.bgrp.getLsbD j) = true) ↔ (j ∈ l ∧ due j (w.d.boot.bgrp.getLsbD j) = true) :=
      and_congr_right fun hj => by rw [hsame hj]
    have hne {j : Nat} (hj : j = g) : j ∉ l := hj ▸ hgl
    refine ⟨⟨k.units.1.trans h.units.1, ?_, k.units.2.2.trans h.units.2.2⟩, fun j => ?_, fun j => ?_, fun j => ?_, fun a ha => ?_⟩
    · rw [k.units.2.1, h.units.2.1]
    · rw [k.bgrp, h.bgrp, ← h.bgrp j, if_congr (hdue j) rfl (h.bgrp j), ite_mem_cons _ _ hne]
    · rw [k.busy, if_congr (hdue j) rfl (h.busy j), ite_mem_cons _ _ hne]
    · rw [k.done, if_congr (hdue j) rfl (h.done j), ite_mem_cons _ _ hne]
    · rw [k.words a ha, if_congr (hdue _) rfl (h.words a ha), ite_mem_cons _ _ hne]

theorem groupOf_lt (a : Nat) : groupOf a < 8 := by unfold groupOf; omega

/-- At start-up every group is switched on (R564). -/
theorem pllLocked_eq {w : Work} (h : w.d.boot.start = .locking) : pllLocked w = switchGroups (fun _ _ => true) (fun _ => true)
    (List.range 8) { w with d.boot.start := .clearing, d.boot.refLock := true } := if_pos (by simp [h])

theorem switchGroups_range (due : Nat → Bool → Bool) (on : Nat → Bool) (w : Work) :
    Switched due on (List.range 8) w (switchGroups due on (List.range 8) w) :=
  switchGroups_switched due on _ List.nodup_range (fun _ => List.mem_range.1) w

/-! The entry to BOOT. -/

/-- The mapping of spares changes their registers and logs events. -/
theorem mapSpares_keeps (w : Work) : (mapSpares w).d.boot = w.d.boot ∧ (mapSpares w).d.sys = w.d.sys
    ∧ (mapSpares w).d.mem.clrDone = w.d.mem.clrDone := by
  have hlog (b : Nat) (c : Nat) (u : Work) : (logEvent .mem b c b u).d.boot = u.d.boot
      ∧ (logEvent .mem b c b u).d.sys = u.d.sys ∧ (logEvent .mem b c b u).d.mem.clrDone = u.d.mem.clrDone := by
    obtain ⟨_, _, _, _, _, _, _, _, _, h⟩ := logEvent_frame .mem b c b u
    rw [h]
    exact ⟨rfl, rfl, rfl⟩
  unfold mapSpares
  refine each_keeps (P := fun v : Work => v.d.boot = w.d.boot ∧ v.d.sys = w.d.sys ∧ v.d.mem.clrDone = w.d.mem.clrDone) _ ?_
    ⟨rfl, rfl, rfl⟩
  rintro b - v ⟨hb, hs, hc⟩
  split
  · obtain ⟨h1, h2, h3⟩ := hlog b 4 { v with d.mem.s0 := some b }
    exact ⟨h1.trans hb, h2.trans hs, h3.trans hc⟩
  · split
    · obtain ⟨h1, h2, h3⟩ := hlog b 4 { v with d.mem.s1 := some b }
      exact ⟨h1.trans hb, h2.trans hs, h3.trans hc⟩
    · obtain ⟨h1, h2, h3⟩ := hlog b 5 v
      exact ⟨h1.trans hb, h2.trans hs, h3.trans hc⟩

/-- BOOT, or BOOT_HOLD where the strapped mode is reserved (R568). -/
theorem enterBoot_enters (w : Work) :
    (enterBoot w).d.boot = { w.d.boot with
      start := .done, bootOk := true, unitId := w.d.boot.strapUnit, bootMode := w.d.boot.strapMode
      holdStat := if w.d.boot.strapMode = 3 then 7 else w.d.boot.holdStat }
    ∧ (enterBoot w).d.sys.st = (if w.d.boot.strapMode = 3 then .bootHold else .boot)
    ∧ (enterBoot w).d.mem.clrDone = w.d.mem.clrDone := by
  unfold enterBoot
  extract_lets _ _ _ u v _
  obtain ⟨hb, hs, hc⟩ : v.d.boot = u.d.boot ∧ v.d.sys = u.d.sys ∧ v.d.mem.clrDone = u.d.mem.clrDone := by
    unfold v
    split
    · exact mapSpares_keeps u
    · exact ⟨rfl, rfl, rfl⟩
  have hmode : v.d.boot.bootMode = w.d.boot.strapMode := by rw [hb]
  by_cases h3 : w.d.boot.strapMode = 3
  · rw [if_pos (by simp [hmode, h3]), if_pos h3, if_pos h3]
    obtain ⟨hst, hboot⟩ := bootHold_holds 7 v
    exact ⟨by rw [hboot, hb], hst, by rw [bootHold, setState_mem]; exact hc⟩
  · rw [if_neg (by simp [hmode, h3]), if_neg h3, if_neg h3]
    exact ⟨by rw [hb], by rw [hs], hc⟩

/-- The clear engine is done with a group (R526). -/
def groupCleared (g : Nat) (w : Work) : Work := { w with
  d.mem.clrBusy := bvPut g false w.d.mem.clrBusy, d.mem.clrDone := bvPut g true w.d.mem.clrDone }

/-- With its last group cleared, a starting device enters BOOT (Table 18.3). -/
theorem bankClearDone_last {g : Nat} {w : Work} (hs : w.d.boot.start = .clearing) (hg : w.d.mem.clrBusy.getLsbD g = true)
    (h0 : bvPut g false w.d.mem.clrBusy = 0) : bankClearDone g w = enterBoot (groupCleared g w) := by
  unfold bankClearDone
  rw [if_pos hg]
  exact if_pos (by simp [hs, h0])

end Sys2Proof.Machine

namespace Sys2Proof.Claims

open Sys2Proof.Machine

/-- The straps are sampled at PORST_N's rise (R547). -/
theorem porstNRelease_samples (u : Fin 16) (m : Fin 4) {s : State} (hs : s.dev.boot.start = .held)
    (ht : s.dev.boot.tripped = false) : exec (.porstNRelease u m) s = .next (withBoot { s.dev.boot with
      strapUnit := u, strapMode := m, tripLow := false, start := .settle } s) := by
  refine runAny_units ((if_pos (by simp [hs, ht])).trans ?_)
  rw [begin_d, ht]
  rfl

/-- A trip's hold outlasts PORST_N, the supply monitor and the release (R30). -/
theorem trip_holds {c : Instr} {s : State} (hs : s.dev.boot.start = .held) (ht : s.dev.boot.tripped = true)
    (hc : c = .porstNLow ∨ c = .vddMonitor ∨ ∃ u m, c = .porstNRelease u m) :
    Ends c s fun t => t.dev.boot.start = .held ∧ t.dev.boot.tripped = true := by
  obtain rfl | rfl | ⟨u, m, rfl⟩ := hc
  · exact ends_runAny (f := tripReset .held true) rfl ⟨rfl, ht⟩
  · refine ends_runAny (f := vddMonitor) rfl ?_
    rw [vddMonitor, if_pos (by simp [hs])]
    exact ⟨rfl, ht⟩
  · refine ends_runAny (f := porstRelease u m) rfl ?_
    unfold porstRelease
    split
    · exact ⟨if_pos ht, ht⟩
    · exact ⟨hs, ht⟩

theorem pllLocked_clears {s : State} (h : s.dev.boot.start = .locking) : Ends .pllLocked s fun t =>
    t.dev.boot.start = .clearing ∧ t.dev.boot.bgrp = 0xFF ∧ t.dev.mem.clrBusy = 0xFF ∧ t.dev.mem.clrDone = 0
      ∧ ∀ a, isBank a = true → memRead t.mem a = 0 := by
  refine ends_runAny (f := pllLocked) rfl ?_
  rw [pllLocked_eq h]
  obtain ⟨⟨hbase, hboot, -⟩, hbgrp, hbusy, hdone, hwords⟩ := switchGroups_range (fun _ _ => true) (fun _ => true)
    { begin_ s with d.boot.start := .clearing, d.boot.refLock := true }
  generalize switchGroups _ _ _ _ = v at *
  have ones (x : BitVec 8) (hx : ∀ j < 8, x.getLsbD j = true) : x = 0xFF :=
    BitVec.eq_of_getLsbD_eq fun j hj => by
      rw [hx j hj]
      revert j
      decide
  refine ⟨by rw [commit_dev, hboot], ones _ fun j hj => ?_, ones _ fun j hj => ?_, BitVec.eq_of_getLsbD_eq fun j hj => ?_,
    fun a ha => ?_⟩
  · exact (hbgrp j).trans (by simp [hj])
  · exact (hbusy j).trans (by simp [hj])
  · exact (hdone j).trans (by simp [hj])
  · rw [memRead_commit s v hbase, hwords a ha, if_pos ⟨List.mem_range.2 (groupOf_lt a), rfl⟩]

theorem bankClearDone_boots {g : Fin 8} {s : State} (hs : s.dev.boot.start = .clearing) (hd : s.dev.boot.dead = false)
    (hg : s.dev.mem.clrBusy.getLsbD g = true) (hothers : ∀ k : Fin 8, k ≠ g → s.dev.mem.clrBusy.getLsbD k = false) :
    Ends (.bankClearDone g) s fun t => t.dev.boot.start = .done ∧ t.dev.boot.bootOk = true
      ∧ t.dev.boot.unitId = s.dev.boot.strapUnit ∧ t.dev.boot.bootMode = s.dev.boot.strapMode
      ∧ t.dev.sys.st = (if s.dev.boot.strapMode = 3 then .bootHold else .boot)
      ∧ (s.dev.boot.strapMode = 3 → t.dev.boot.holdStat = 7) ∧ t.dev.mem.clrDone.getLsbD g = true := by
  have h0 : bvPut g.val false s.dev.mem.clrBusy = 0 := BitVec.eq_of_getLsbD_eq fun j hj => by
    rw [getLsbD_bvPut _ _ _ _ g.isLt]
    by_cases hjg : j = g.val
    · simp [hjg]
    · rw [if_neg hjg, hothers ⟨j, hj⟩ fun k => hjg (congrArg Fin.val k)]
      simp
  have hx : exec (.bankClearDone g) s = runAny (bankClearDone g.val) s := if_neg (by simp [hd])
  refine ends_runAny hx ?_
  rw [bankClearDone_last (w := begin_ s) hs hg h0]
  obtain ⟨hboot, hst, hclr⟩ := enterBoot_enters (groupCleared g (begin_ s))
  generalize enterBoot (groupCleared g (begin_ s)) = v at *
  refine ⟨by rw [commit_dev, hboot], by rw [commit_dev, hboot], by rw [commit_dev, hboot]; rfl, by rw [commit_dev, hboot]; rfl, hst,
    fun h3 => ?_, ?_⟩
  · rw [commit_dev, hboot]
    exact if_pos h3
  · rw [commit_dev, hclr]
    exact (getLsbD_bvPut _ _ _ _ g.isLt).trans (if_pos rfl)

end Sys2Proof.Claims

namespace Sys2Proof.Proofs

open Sys2Proof.Machine Sys2Proof.Claims

/-- Settles O25: each step of the start-up in its order. -/
theorem startUp : Obligations.StartUp := by
  refine ⟨fun u m s => porstNRelease_samples u m, fun c s => trip_holds, fun s h => runAny_units (if_pos (by simp [h])), ?judge,
    fun s => pllLocked_clears, fun g s => bankClearDone_boots⟩
  intro c s hs hst b
  refine ⟨fun hp => runAny_units (judgeWindow_pass (w := begin_ s) hs hst hp), fun hp h8 => ?_, fun hp h8 => ?_⟩
  · exact runAny_units ((judgeWindow_fail (w := begin_ s) hs hst hp).trans (if_neg h8))
  · refine ends_runAny (f := judgeWindow c) rfl ?_
    rw [judgeWindow_fail (w := begin_ s) hs hst hp, if_pos (by exact h8)]
    obtain ⟨hold, hboot⟩ := bootHold_holds 3 { begin_ s with
      d.boot.lastC := c, d.boot.passes := 0, d.boot.fails := b.fails + 1 }
    exact ⟨hold, congrArg BootSt.holdStat hboot, sameMemory_commit (setState_ops ..)⟩

end Sys2Proof.Proofs
end

section
/-! SUPPORT. The frequency counter, the clock gates and the switching of bank groups in TEST (spec/18 R558 to R564). -/

namespace Sys2Proof.Machine

open Sys2Proof.Claims

/-- The multiples of Table 18.2 lie between 1 and 48. -/
theorem xoMult_range {c m : Nat} (h : xoMult c = some m) : 1 ≤ m ∧ m ≤ 48 := by
  unfold xoMult at h
  split at h <;> cases h <;> decide

/-- A free number is below its bound, and drawing it counts the model's own counter. -/
theorem freeN_eq (n : Nat) (w : Work) :
    freeN n w = (Config.freeNat w.d.freeCtr % n, { w with d.freeCtr := w.d.freeCtr + 1 }) := rfl

/-- A count between clocks of the oscillator is exact to within one (R558, log 62). -/
theorem measureDone_between {k m r : Nat} {w : Work} (hb : w.d.boot.mBusy = true) (hm : xoMult w.d.boot.meas = some m)
    (hr : xoMult w.d.boot.mref = some r) : ∃ e, e < 3 ∧ measureDone k w = { w with
      d.boot.mBusy := false, d.boot.mcnt := (max 1 w.d.boot.nref * m / r + e - 1) % 2 ^ 32
      d.freeCtr := w.d.freeCtr + 1 } := by
  refine ⟨Config.freeNat w.d.freeCtr % 3, Nat.mod_lt _ (by decide), ?_⟩
  unfold measureDone
  rw [if_neg (by simp [hb])]
  dsimp only
  rw [hm, hr]
  rfl

/-- Another count is the operand. -/
theorem measureDone_other {k : Nat} {w : Work} (hb : w.d.boot.mBusy = true)
    (h : xoMult w.d.boot.meas = none ∨ xoMult w.d.boot.mref = none) :
    measureDone k w = { w with d.boot.mBusy := false, d.boot.mcnt := k % 2 ^ 32 } := by
  unfold measureDone
  rw [if_neg (by simp [hb])]
  dsimp only
  obtain h | h := h
  · rw [h]
  · rw [h]
    cases xoMult w.d.boot.meas <;> rfl

/-- A quotient by a divisor of at least 1, of a count below 2^24 times 48, leaves room for the count's error below 2^32. -/
theorem quotient_lt {n m r : Nat} (hn : n < 2 ^ 24) (hm : m ≤ 48) : n * m / r < 2 ^ 30 := by
  calc n * m / r ≤ n * m := Nat.div_le_self ..
    _ ≤ 2 ^ 24 * 48 := Nat.mul_le_mul hn.le hm
    _ < 2 ^ 30 := by decide

/-- A child is enabled under a gated parent (R560). -/
def gateRefused (g e : Nat) : Prop :=
  (∃ k, k < 4 ∧ g.testBit (14 + k) = true) ∧ g.testBit 19 = false ∨ e % 65536 ≠ 0 ∧ g.testBit 18 = false

/-- A field of four bits is zero where none of its bits is set. -/
theorem fld4_ne_zero_iff (g : Nat) : fld (wd g) 14 4 ≠ 0 ↔ ∃ k, k < 4 ∧ g.testBit (14 + k) = true := by
  have hbit (k : Nat) (hk : k < 4) : (fld (wd g) 14 4).testBit k = g.testBit (14 + k) := by
    simp only [fld, wd, BitVec.toNat_ofNat, Nat.testBit_mod_two_pow, Nat.testBit_shiftRight, hk, decide_true, Bool.true_and]
    rw [decide_eq_true (by omega), Bool.true_and]
  constructor
  · intro h
    obtain ⟨k, hk⟩ := Nat.exists_testBit_of_ne_zero h
    have hlt : k < 4 := by
      by_contra hge
      rw [fld, Nat.testBit_mod_two_pow] at hk
      simp [hge] at hk
    exact ⟨k, hlt, hbit k hlt ▸ hk⟩
  · rintro ⟨k, hk, h⟩ h0
    rw [← hbit k hk, h0] at h
    simp at h

theorem gateBad_iff (g e : Nat) : gateBad g e = true ↔ gateRefused g e := by
  unfold gateBad gateRefused
  rw [← fld4_ne_zero_iff]
  simp

/-- PWR_BGRP in TEST: the groups take the bits written (R564). -/
theorem bgrpWrite_test {v : Word} {w : Work} (h : w.d.sys.st = .test) : bgrpWrite v w
    = switchGroups (fun g on => on != v.getLsbD g) (fun g => v.getLsbD g) (List.range 8) w := by
  refine (if_pos (by simp [h])).trans ?_
  unfold switchGroups
  congr 1
  funext g u
  unfold bit
  cases hv : v.getLsbD g <;> cases hb : u.d.boot.bgrp.getLsbD g <;> simp only [hv] <;> rfl

end Sys2Proof.Machine

namespace Sys2Proof.Claims

open Sys2Proof.Machine

section
variable {s : State} (hl : live s = true)
include hl

theorem measurementStart_takes (v : Word) : exec (.measurementStart v) s = .next (if s.dev.boot.mBusy = true then s
    else withBoot { s.dev.boot with
      meas := v.toNat / 2 ^ 28 % 16, mref := v.toNat / 2 ^ 24 % 16, nref := v.toNat % 2 ^ 24, mBusy := v.getLsbD 35 } s) := by
  by_cases hb : s.dev.boot.mBusy = true
  · rw [if_pos hb]
    exact run_unchanged (f := mselWrite v) hl (if_pos hb)
  · rw [if_neg hb]
    refine run_units (f := mselWrite v) hl ((if_neg hb).trans ?_)
    simp only [fld_eq_div_mod, bit, Nat.pow_zero, Nat.div_one]
    rfl

theorem measurementDone_counts (k : Nat) (hb : s.dev.boot.mBusy = true) : Ends (.measurementDone k) s fun t =>
    let n := max 1 s.dev.boot.nref
    t.dev.boot.mBusy = false
      ∧ (∀ m r, xoMult s.dev.boot.meas = some m → xoMult s.dev.boot.mref = some r → n < 2 ^ 24 →
          t.dev.boot.mcnt ≤ n * m / r + 1 ∧ n * m / r ≤ t.dev.boot.mcnt + 1)
      ∧ (xoMult s.dev.boot.meas = none ∨ xoMult s.dev.boot.mref = none → t.dev.boot.mcnt = k % 2 ^ 32)
      ∧ t = withDev s { s.dev with boot := t.dev.boot, freeCtr := t.dev.freeCtr } := by
  refine ends_run (f := measureDone k) rfl hl ?_
  by_cases hx : xoMult s.dev.boot.meas = none ∨ xoMult s.dev.boot.mref = none
  · rw [measureDone_other hb hx]
    refine ⟨rfl, fun m r hm hr => ?_, fun _ => rfl, rfl⟩
    simp [hm, hr] at hx
  · obtain ⟨hm0, hr0⟩ := not_or.1 hx
    obtain ⟨m, hm⟩ := Option.ne_none_iff_exists'.1 hm0
    obtain ⟨r, hr⟩ := Option.ne_none_iff_exists'.1 hr0
    obtain ⟨e, he, hdone⟩ := measureDone_between (k := k) (w := begin_ s) hb hm hr
    rw [hdone]
    refine ⟨rfl, fun m' r' hm' hr' hn => ?_, fun h => absurd h hx, rfl⟩
    cases hm.symm.trans hm'
    cases hr.symm.trans hr'
    have hq := quotient_lt (r := r) hn (xoMult_range hm).2
    simp only [commit_dev, begin_d]
    generalize max 1 s.dev.boot.nref * m / r = q at hq ⊢
    rw [Nat.mod_eq_of_lt (by omega)]
    omega

theorem clkGateWrite_takes (ce : Bool) (v : Word) :
    let g := if ce then gateNow (begin_ s) else v.toNat &&& gateMask s.variant
    let e := if ce then v.toNat &&& (2 ^ numCE s.variant - 1) else gateCeNow (begin_ s)
    (s.dev.sys.st ≠ .config → s.dev.sys.st ≠ .test → exec (.clkGateWrite ce v) s = .next s)
    ∧ (s.dev.sys.st = .config ∨ s.dev.sys.st = .test → ¬ gateRefused g e →
        exec (.clkGateWrite ce v) s = .next (withBoot { s.dev.boot with gate := some g, gateCe := some e } s))
    ∧ (s.dev.sys.st = .config ∨ s.dev.sys.st = .test → gateRefused g e → logReady s → Ends (.clkGateWrite ce v) s fun t =>
        t.dev.boot = { s.dev.boot with prune := true } ∧ EventLogged 1 0 1 (v.toNat % 2 ^ 23) s t) := by
  intro g e
  have hon (h : s.dev.sys.st = .config ∨ s.dev.sys.st = .test) : gateWrite ce v (begin_ s) = if gateBad g e = true
      then logEvent .clk 0 1 (fld v 0 23) { begin_ s with d.boot.prune := true }
      else { begin_ s with d.boot.gate := some g, d.boot.gateCe := some e } := if_neg (by
    obtain h | h := h <;> simp [h])
  refine ⟨fun hc ht => run_unchanged (f := gateWrite ce v) hl (if_pos (by simp [hc, ht])), fun h hok => ?_, fun h hbad hr => ?_⟩
  · exact run_units hl ((hon h).trans (if_neg (mt (gateBad_iff g e).1 hok)))
  · refine ends_run (f := gateWrite ce v) rfl hl ?_
    rw [hon h, if_pos ((gateBad_iff g e).2 hbad), show fld v 0 23 = v.toNat % 2 ^ 23 by simp [fld_eq_div_mod]]
    exact ⟨logEvent_boot .., eventLogged_logEvent (s := withBoot { s.dev.boot with prune := true } s) .clk _ hr (by decide)
      (by decide)⟩

theorem pwrBgrpWrite_test (v : Word) (h : s.dev.sys.st = .test) : Ends (.pwrBgrpWrite v) s fun t =>
    (∀ g : Fin 8, t.dev.boot.bgrp.getLsbD g = v.getLsbD g)
      ∧ ∀ a, isBank a = true → memRead t.mem a
        = (if s.dev.boot.bgrp.getLsbD (a % 32 / 4) = v.getLsbD (a % 32 / 4) then memRead s.mem a else 0) := by
  refine ends_run (f := bgrpWrite v) rfl hl ?_
  rw [bgrpWrite_test (w := begin_ s) h]
  obtain ⟨⟨hbase, -, -⟩, hbgrp, -, -, hwords⟩ := switchGroups_range (fun g on => on != v.getLsbD g) (fun g => v.getLsbD g) (begin_ s)
  generalize switchGroups _ _ _ _ = u at *
  refine ⟨fun g => ?_, fun a ha => ?_⟩
  · refine (hbgrp g).trans ?_
    by_cases hg : s.dev.boot.bgrp.getLsbD g = v.getLsbD g
    · exact (if_neg fun h => bne_iff_ne.1 h.2 hg).trans hg
    · exact if_pos ⟨List.mem_range.2 g.isLt, bne_iff_ne.2 hg⟩
  · rw [memRead_commit s u hbase, hwords a ha]
    have hlt : a % 32 / 4 < 8 := groupOf_lt a
    by_cases hg : s.dev.boot.bgrp.getLsbD (a % 32 / 4) = v.getLsbD (a % 32 / 4)
    · rw [if_pos hg, if_neg fun h => bne_iff_ne.1 h.2 hg]
      rfl
    · rw [if_neg hg, if_pos ⟨List.mem_range.2 hlt, bne_iff_ne.2 hg⟩]

end

end Sys2Proof.Claims

namespace Sys2Proof.Proofs

open Sys2Proof.Machine Sys2Proof.Claims

/-- Settles O27: the counter's registers, the gates with their refusal, and the groups switched in TEST. -/
theorem clocksAndBankGroups : Obligations.ClocksAndBankGroups :=
  ⟨fun v _ hl => measurementStart_takes hl v, fun k _ hl hb => measurementDone_counts hl k hb,
    fun ce v _ hl => clkGateWrite_takes hl ce v,
    fun v _ hl => ⟨fun h => run_unchanged (f := bgrpWrite v) hl (if_neg (by simp [h])), pwrBgrpWrite_test hl v⟩⟩

end Sys2Proof.Proofs
end

section
/-! SUPPORT. The care of memory: a finding does the same whether the effects before it have been taken into memory or still
wait, and what each finding leaves (spec/16 R516 to R522). -/

namespace Sys2Proof.Machine

open Sys2Proof.Claims

/-! Working copies that read alike. -/

/-- Two working copies of the same units whose words read alike once their effects are applied. -/
structure Alike (w v : Work) : Prop where
  variant : v.variant = w.variant
  units : v.d = w.d
  words : memApply v.base v.ops = memApply w.base w.ops

/-- An operation that does the same to copies that are alike, and leaves the variant and the memory as found. -/
structure Steady (f : Work → Work) : Prop where
  alike : ∀ w v, Alike w v → Alike (f w) (f v)
  found : ∀ w, (f w).variant = w.variant ∧ (f w).base = w.base

section
variable {v w : Work} {f g : Work → Work}

theorem Alike.rd (h : Alike w v) (a : Nat) : rd a v = rd a w := by
  rw [Machine.rd, Machine.rd, ← memRead_memApply, ← memRead_memApply, h.words]

theorem Steady.comp (hg : Steady g) (hf : Steady f) : Steady fun w => g (f w) :=
  ⟨fun _ _ h => hg.alike _ _ (hf.alike _ _ h), fun w =>
    ⟨(hg.found _).1.trans (hf.found w).1, (hg.found _).2.trans (hf.found w).2⟩⟩

theorem steady_id : Steady fun w => w := ⟨fun _ _ h => h, fun _ => ⟨rfl, rfl⟩⟩

/-- An operation on the units alone. -/
theorem steady_units (k : Dev → Dev) : Steady fun w => { w with d := k w.d } :=
  ⟨fun _ _ h => ⟨h.variant, by rw [h.units], h.words⟩, fun _ => ⟨rfl, rfl⟩⟩

theorem Steady.ite {c : Work → Prop} [DecidablePred c] (hf : Steady f) (hg : Steady g) (hc : ∀ w v, Alike w v → (c v ↔ c w)) :
    Steady fun w => if c w then f w else g w := by
  refine ⟨fun w v h => ?_, fun w => ?_⟩
  · by_cases hw : c w
    · simpa only [if_pos hw, if_pos ((hc w v h).2 hw)] using hf.alike w v h
    · simpa only [if_neg hw, if_neg (mt (hc w v h).1 hw)] using hg.alike w v h
  · split
    · exact hf.found w
    · exact hg.found w

/-- An operation whose parts depend on the units. -/
theorem steady_dep {f : Dev → Work → Work} (h : ∀ d, Steady (f d)) : Steady fun w => f w.d w :=
  ⟨fun w v hwv => by rw [hwv.units]; exact (h w.d).alike w v hwv, fun w => (h w.d).found w⟩

/-- An effect on memory. -/
theorem steady_op (o : MemOp) : Steady fun w => { w with ops := o :: w.ops } :=
  ⟨fun _ _ h => ⟨h.variant, h.units, congrArg (memDo · o) h.words⟩, fun _ => ⟨rfl, rfl⟩⟩

theorem steady_each {α : Type} {f : α → Work → Work} (l : List α) (h : ∀ a, Steady (f a)) : Steady (each l f) := by
  induction l with
  | nil => exact steady_id
  | cons a l ih => exact ih.comp (h a)

/-- The state that a copy ends in, and the copy that a command begins with there. -/
theorem alike_begin_commit (s : State) (w : Work) (hv : w.variant = s.variant) (hb : w.base = s.mem) :
    Alike w (begin_ (commit s w)) := ⟨hv.symm, rfl, by rw [hb]; rfl⟩

/-- Copies that are alike end in the same state. -/
theorem commit_alike {s t : State} (h : Alike w v) (hw : w.base = s.mem) (hv : v.base = t.mem)
    (hst : { t with mem := s.mem, dev := s.dev } = s) : commit t v = commit s w := by
  have hmem : memApply t.mem v.ops = memApply s.mem w.ops := by rw [← hv, ← hw]; exact h.words
  unfold commit
  rw [hmem, h.units, ← hst]

end

/-! The operations of an event. -/

/-- The units after an interrupt. -/
def irqUnits (i : Nat) (d : Dev) : Dev := (irq i { variant := .vx1284, base := [], ops := [], d := d }).d

theorem irq_eq (i : Nat) (w : Work) : irq i w = { w with d := irqUnits i w.d } := by
  unfold irqUnits irq irqAssert send
  dsimp only
  split
  · split
    · rfl
    · split <;> rfl
  · rfl

theorem steady_irq (i : Nat) : Steady (irq i) := by
  rw [show irq i = fun w => { w with d := irqUnits i w.d } from funext (irq_eq i)]
  exact steady_units (irqUnits i)

theorem steady_freeN (n : Nat) : Steady fun w => (freeN n w).2 := steady_units fun d => { d with freeCtr := d.freeCtr + 1 }

theorem steady_clearBanks (b : BitVec 32) : Steady (clearBanks b) := steady_op _

theorem steady_crcPage (p : Nat) : Steady (crcPage p) := by
  refine ⟨fun w v h => ?_, fun w => ?_⟩
  case refine_2 =>
    obtain ⟨c, h⟩ := crcPage_frame p w
    rw [h]
    exact ⟨rfl, rfl⟩
  have hcrc : pageCrc p v = pageCrc p w := by
    unfold pageCrc
    exact congrArg (fun l => fcs (wordBytes5 l)) (List.map_congr_left fun k _ => h.rd _)
  have hstat : isStatic p v = isStatic p w := by unfold isStatic; rw [h.units]
  unfold crcPage
  rw [hstat]
  split
  · exact ⟨h.variant, by rw [h.units, hcrc], h.words⟩
  · exact h

theorem steady_wr (a : Nat) (x : Word) : Steady (wr a x) :=
  steady_dep (f := fun d w => if d.boot.bgrp.getLsbD (groupOf a)
      then crcPage (a / 256) { w with ops := .word a x :: w.ops, d.mem.ecc := tabSet 0 w.d.mem.ecc a 0 } else w) fun _ =>
    .ite ((steady_crcPage _).comp ((steady_op (.word a x)).comp
      (steady_units fun d => { d with mem := { d.mem with ecc := tabSet 0 d.mem.ecc a 0 } }))) steady_id fun _ _ _ => .rfl

theorem steady_wrs (l : List Word) : ∀ a, Steady (wrs a l) := by
  induction l with
  | nil => exact fun _ => steady_id
  | cons x l ih => exact fun a => (ih (a + 1)).comp (steady_wr a x)

/-- The log's indices and interrupts after its record is written (R93). -/
def logIndexed (w : Work) : Work :=
  let n := (w.d.cmd.evWr + 1) % evLength w
  let full := n == w.d.cmd.evRd
  let w := irq 5 { w with d.cmd.evWr := n }
  if full then irq 6 { w with d.cmd.evRd := (w.d.cmd.evRd + 1) % evLength w, d.cmd.evOvr := true } else w

/-- The words of an event's record. -/
def eventWords (b : Blk) (i c x : Nat) (d : Dev) : List Word :=
  [wd (plantTime d.ptm (d.ptm.frc + BitVec.ofNat 64 (Config.freeNat d.freeCtr % 501))).toNat, d.phase.ncc,
    wd (put 28 8 (blkCode b) + put 16 12 i + put 0 16 c), wd x]

theorem logEvent_eq (b : Blk) (i c x : Nat) (w : Work) : logEvent b i c x w = logIndexed
    (wrs (w.d.cmd.evBase + 4 * w.d.cmd.evWr) (eventWords b i c x w.d) { w with d.freeCtr := w.d.freeCtr + 1 }) := rfl

/-- The units after the log's indices have moved. -/
def logUnits (d : Dev) : Dev := (logIndexed { variant := .vx1284, base := [], ops := [], d := d }).d

theorem logIndexed_eq (w : Work) : logIndexed w = { w with d := logUnits w.d } := by
  unfold logUnits logIndexed
  simp only [irq_eq, evLength]
  split <;> rfl

theorem steady_logIndexed : Steady logIndexed := by
  rw [show logIndexed = fun w => { w with d := logUnits w.d } from funext logIndexed_eq]
  exact steady_units logUnits

theorem steady_logEvent (b : Blk) (i c x : Nat) : Steady (logEvent b i c x) :=
  steady_logIndexed.comp (steady_dep (f := fun d w => wrs (d.cmd.evBase + 4 * d.cmd.evWr) (eventWords b i c x d)
    { w with d.freeCtr := w.d.freeCtr + 1 }) fun _ => (steady_wrs _ _).comp (steady_freeN 501))

/-! What a finding does. -/

theorem steady_when {c : Bool} {f : Work → Work} (h : Steady f) : Steady (when_ c f) := by
  cases c
  · exact steady_id
  · exact h

/-- A single-bit error counted, marked and queued for its write-back (R516). -/
def singleNoted (a : Nat) (d : Dev) : Dev :=
  let b := bankOf a
  let (n, hit) := satInc 0xFFFFFF (tabGet 0 d.mem.cerr b)
  { d with
    mem := { d.mem with
      cerr := tabSet 0 d.mem.cerr b n
      cerrSat := if hit then bvPut b true d.mem.cerrSat else d.mem.cerrSat
      cerrLogged := bvPut b true d.mem.cerrLogged
      ecc := tabSet 0 d.mem.ecc a 1
      writeBack := d.mem.writeBack ++ [a] }
    age := { d.age with cerrHour := tabSet 0 d.age.cerrHour b (tabGet 0 d.age.cerrHour b + 1) } }

theorem foundSingle_eq (a : Nat) (w : Work) : foundSingle a w =
    when_ (!w.d.mem.cerrLogged.getLsbD (bankOf a)) (logEvent .mem (bankOf a) 3 a)
      (when_ (satInc 0xFFFFFF (tabGet 0 w.d.mem.cerr (bankOf a))).2 (logCntSat .mem (bankOf a) (0xF8100 + bankOf a) 0)
        { w with d := singleNoted a w.d }) := rfl

theorem steady_foundSingle (a : Nat) : Steady (foundSingle a) :=
  steady_dep (f := fun d w => when_ (!d.mem.cerrLogged.getLsbD (bankOf a)) (logEvent .mem (bankOf a) 3 a)
    (when_ (satInc 0xFFFFFF (tabGet 0 d.mem.cerr (bankOf a))).2 (logCntSat .mem (bankOf a) (0xF8100 + bankOf a) 0)
      { w with d := singleNoted a w.d })) fun _ =>
    (steady_when (steady_logEvent ..)).comp ((steady_when (steady_logEvent ..)).comp (steady_units (singleNoted a)))

/-- A page that cannot be trusted counted and kept (R521). -/
def pageNoted (a : Nat) (d : Dev) : Dev :=
  let (n, hit) := satInc 65535 d.mem.pcrc
  { d with mem := { d.mem with
    pcrc := n, pcrcSat := d.mem.pcrcSat || hit, badPages := a / 256 * 256 :: d.mem.badPages } }

/-- A failed page as it is logged, before the state decides whether it is memory death. -/
def pageLogged (a : Nat) (w : Work) : Work :=
  logEvent .mem (bankOf (a / 256 * 256)) 2 (a / 256 * 256)
    (when_ (satInc 65535 w.d.mem.pcrc).2 (logCntSat .mem 0 0xF8004 0) { w with d := pageNoted a w.d })

/-- Memory death at the scrubber's finding: the MID is free (R518, log 49). -/
def pageDeath (kind a : Nat) (w : Work) : Work :=
  memoryDeath (freeN 32 w).1 kind (if kind == 1 then a / 256 * 256 else a) (freeN 32 w).2

theorem pageFailed_eq (kind a : Nat) (w : Work) : pageFailed kind a w
    = if pageFatal (pageLogged a w).d.sys.st then pageDeath kind a (pageLogged a w) else pageLogged a w := rfl

theorem steady_pageLogged (a : Nat) : Steady (pageLogged a) :=
  (steady_logEvent ..).comp (steady_dep
    (f := fun d w => when_ (satInc 65535 d.mem.pcrc).2 (logCntSat .mem 0 0xF8004 0) { w with d := pageNoted a w.d }) fun _ =>
      (steady_when (steady_logEvent ..)).comp (steady_units (pageNoted a)))

theorem steady_wholeReset (c : Nat) (st : Startup) : Steady (wholeReset c st) :=
  (steady_clearBanks _).comp (steady_units (resetDev c st))

theorem steady_memoryDeath (mid kind a : Nat) : Steady (memoryDeath mid kind a) :=
  (steady_wholeReset 2 .settle).comp (steady_units fun d => { d with mem := { d.mem with
    ueValid := true, ueMid := mid, ueKind := kind, ueAddr := a } })

theorem steady_pageFailed (kind a : Nat) : Steady (pageFailed kind a) := by
  have hdeath : Steady (pageDeath kind a) :=
    steady_dep (f := fun d w => memoryDeath (Config.freeNat d.freeCtr % 32) kind (if kind == 1 then a / 256 * 256 else a)
      (freeN 32 w).2) fun _ => (steady_memoryDeath ..).comp (steady_freeN 32)
  exact (steady_dep (f := fun d w => if pageFatal d.sys.st then pageDeath kind a w else w) fun _ =>
    .ite hdeath steady_id fun _ _ _ => .rfl).comp (steady_pageLogged a)

theorem steady_staticFind (f : MemFind) : Steady (staticFind f) := by
  have hsingle (a : Nat) : Steady fun w => if isStatic (a / 256) w then foundSingle a w else w :=
    .ite (steady_foundSingle a) steady_id fun w v h => by unfold isStatic; rw [h.units]
  have hdouble (a : Nat) : Steady fun w => if isStatic (a / 256) w
      then pageFailed 2 a { w with d.mem.ecc := tabSet 0 w.d.mem.ecc a 2 } else w :=
    .ite ((steady_pageFailed 2 a).comp (steady_units fun d => { d with mem := { d.mem with ecc := tabSet 0 d.mem.ecc a 2 } }))
      steady_id fun w v h => by unfold isStatic; rw [h.units]
  cases f with
  | single a =>
    have h : staticFind (.single a) = fun w => if eccAt a w = 2
        then (if isStatic (a / 256) w then pageFailed 2 a { w with d.mem.ecc := tabSet 0 w.d.mem.ecc a 2 } else w)
        else if isStatic (a / 256) w then foundSingle a w else w := by
      funext w
      unfold staticFind found
      by_cases he : eccAt a w = 2 <;> simp [he]
    rw [h]
    exact .ite (hdouble a) (hsingle a) fun w v h => by unfold eccAt; rw [h.units]
  | double a => exact hdouble a
  | page a c =>
    exact .ite (c := fun w => (isStatic (a / 256) w && tabGet zeroPageCrc w.d.mem.pageCrc (a / 256) != c.toNat) = true)
      (steady_pageFailed 1 a) steady_id fun w v h => by unfold isStatic; rw [h.units]

theorem steady_dynamicFind (f : MemFind) : Steady (dynamicFind f) := by
  have hsingle (a : Nat) : Steady fun w => if isBank a && !isStatic (a / 256) w then foundSingle a w else w :=
    .ite (steady_foundSingle a) steady_id fun w v h => by unfold isStatic; rw [h.units]
  have hdouble (a : Nat) : Steady fun w => if isBank a && !isStatic (a / 256) w
      then logUe a { w with d.mem.ecc := tabSet 0 w.d.mem.ecc a 2 } else w :=
    .ite ((steady_logEvent ..).comp (steady_units fun d => { d with mem := { d.mem with ecc := tabSet 0 d.mem.ecc a 2 } }))
      steady_id fun w v h => by unfold isStatic; rw [h.units]
  cases f with
  | single a =>
    have h : dynamicFind (.single a) = fun w => if eccAt a w = 2
        then (if isBank a && !isStatic (a / 256) w then logUe a { w with d.mem.ecc := tabSet 0 w.d.mem.ecc a 2 } else w)
        else if isBank a && !isStatic (a / 256) w then foundSingle a w else w := by
      funext w
      unfold dynamicFind found
      by_cases he : eccAt a w = 2 <;> simp [he]
    rw [h]
    exact .ite (hdouble a) (hsingle a) fun w v h => by unfold eccAt; rw [h.units]
  | double a => exact hdouble a
  | page a c => exact steady_id

end Sys2Proof.Machine
end

section
/-! SUPPORT. The sweeps: one finding after the other, and what a finding leaves of the counters, the codes and the state
(spec/16 R516 to R522). -/

namespace Sys2Proof.Machine

open Sys2Proof.Claims

theorem when_records {c : Bool} {f : Work → Work} {w v : Work} (h : Records w v) (hf : Records v (f v)) :
    Records w (when_ c f v) := by
  cases c
  · exact h
  · exact h.trans hf

theorem Records.boot {w v : Work} (h : Records w v) : v.d.boot = w.d.boot := congrArg (·.d.boot) h
theorem Records.base {w v : Work} (h : Records w v) : v.base = w.base := congrArg (·.base) h

/-- Of the memory's registers a report changes the codes and the page CRCs alone. -/
theorem Records.mem {w v : Work} (h : Records w v) :
    v.d.mem = { w.d.mem with ecc := v.d.mem.ecc, pageCrc := v.d.mem.pageCrc } := congrArg (·.d.mem) h

theorem foundSingle_records (a : Nat) (w : Work) : Records { w with d := singleNoted a w.d } (foundSingle a w) := by
  rw [foundSingle_eq]
  exact when_records (when_records (.refl _) (logEvent_records ..)) (logEvent_records ..)

theorem pageLogged_records (a : Nat) (w : Work) : Records { w with d := pageNoted a w.d } (pageLogged a w) :=
  (when_records (.refl _) (logEvent_records ..)).trans (logEvent_records ..)

/-- A counted single-bit error waits for its write-back. -/
theorem foundSingle_leaves (a : Nat) (w : Work) : (foundSingle a w).d.boot = w.d.boot
    ∧ (foundSingle a w).d.mem.sweepUs = w.d.mem.sweepUs ∧ a ∈ (foundSingle a w).d.mem.writeBack
    ∧ tabGet 0 (foundSingle a w).d.mem.cerr (bankOf a) = (if tabGet 0 w.d.mem.cerr (bankOf a) < 0xFFFFFF
        then tabGet 0 w.d.mem.cerr (bankOf a) + 1 else tabGet 0 w.d.mem.cerr (bankOf a)) := by
  have h := foundSingle_records a w
  rw [h.mem, h.boot]
  refine ⟨rfl, rfl, List.mem_append_right _ (List.mem_singleton.2 rfl), ?_⟩
  rw [← satInc_fst]
  exact tabGet_tabSet_same ..

/-- A failed page counts, where the state lets the device live on. -/
theorem pageLogged_leaves (a : Nat) (w : Work) : (pageLogged a w).d.boot = w.d.boot ∧ (pageLogged a w).d.sys = w.d.sys
    ∧ (pageLogged a w).d.mem.sweepUs = w.d.mem.sweepUs ∧ (pageLogged a w).d.mem.ueValid = w.d.mem.ueValid
    ∧ (pageLogged a w).d.mem.pcrc = (if w.d.mem.pcrc < 65535 then w.d.mem.pcrc + 1 else w.d.mem.pcrc) := by
  have h := pageLogged_records a w
  rw [h.mem, h.boot, h.sys, ← satInc_fst]
  exact ⟨rfl, rfl, rfl, rfl, rfl⟩

theorem pageFailed_lives {kind a : Nat} {w : Work} (h : pageFatal w.d.sys.st = false) : pageFailed kind a w = pageLogged a w := by
  rw [pageFailed_eq, (pageLogged_leaves a w).2.1, if_neg (by simp [h])]

theorem pageFailed_dies {kind a : Nat} {w : Work} (h : pageFatal w.d.sys.st = true) :
    pageFailed kind a w = pageDeath kind a (pageLogged a w) := by
  rw [pageFailed_eq, (pageLogged_leaves a w).2.1, if_pos h]

/-- A finding leaves the device as it runs, or is its death, after which no page is static. -/
def SweepEnds (w v : Work) : Prop :=
  v.d.boot = w.d.boot ∧ v.d.mem.sweepUs = w.d.mem.sweepUs ∨ v.d.boot.start = .settle ∧ v.d.mem.static = []

theorem pageFailed_ends (kind a : Nat) {w u : Work} (hb : u.d.boot = w.d.boot) (hs : u.d.mem.sweepUs = w.d.mem.sweepUs) :
    SweepEnds w (pageFailed kind a u) := by
  by_cases h : pageFatal u.d.sys.st = true
  · rw [pageFailed_dies h]
    exact .inr ⟨rfl, rfl⟩
  · rw [pageFailed_lives (by simpa using h)]
    obtain ⟨kb, -, ks, -⟩ := pageLogged_leaves a u
    exact .inl ⟨kb.trans hb, ks.trans hs⟩

theorem staticFind_ends (f : MemFind) (w : Work) : SweepEnds w (staticFind f w) := by
  have hstay : SweepEnds w w := .inl ⟨rfl, rfl⟩
  unfold staticFind
  split
  · split
    · obtain ⟨hb, hs, -⟩ := foundSingle_leaves ‹Nat› w
      exact .inl ⟨hb, hs⟩
    · exact hstay
  · split
    · exact pageFailed_ends _ _ rfl rfl
    · exact hstay
  · split
    · exact pageFailed_ends _ _ rfl rfl
    · exact hstay

/-- With no page static, the static sweep does nothing. -/
theorem staticFind_noStatic {w : Work} (h : w.d.mem.static = []) (f : MemFind) : staticFind f w = w := by
  have hs (p : Nat) : isStatic p w = false := by simp [isStatic, h]
  unfold staticFind
  split <;> simp [hs]

theorem dynamicFind_boot (f : MemFind) (w : Work) : (dynamicFind f w).d.boot = w.d.boot := by
  unfold dynamicFind
  split
  · split
    · exact (foundSingle_leaves ..).1
    · rfl
  · split
    · exact logEvent_boot ..
    · rfl
  · rfl

/-- A finding of the static sweep that names a bank word. -/
def sweepFind (f : MemFind) (w : Work) : Work := if findOk f then staticFind f w else w

theorem steady_sweepFind (f : MemFind) : Steady (sweepFind f) := .ite (steady_staticFind f) steady_id fun _ _ _ => .rfl

theorem sweepFind_ends (f : MemFind) (w : Work) : SweepEnds w (sweepFind f w) :=
  iteInduction (fun _ => staticFind_ends f w) fun _ => .inl ⟨rfl, rfl⟩

/-- The sweep's time is shown. -/
def swept (us : Nat) (w : Work) : Work := { w with d.mem.sweepUs := min us 4095 }

theorem scrubSweep_eq (finds : List MemFind) (us : Nat) (w : Work) :
    scrubSweep finds us w = each finds sweepFind (swept us w) := by
  unfold scrubSweep sweepFind swept
  rw [each_filter]
  refine congrArg (each finds · _) (funext fun f => funext fun u => ?_)
  cases f <;> rfl

/-- What remains of a run of findings goes on from the state that the first ones lead to. -/
theorem commit_findings {s : State} {k : MemFind → Work → Work} (hk : ∀ f, Steady (k f)) (r : List MemFind) {u : Work}
    (hu : u.variant = s.variant ∧ u.base = s.mem) :
    commit (commit s u) (each r k (begin_ (commit s u))) = commit s (each r k u) :=
  commit_alike ((steady_each r hk).alike _ _ (alike_begin_commit s u hu.1 hu.2)) (((steady_each r hk).found u).2.trans hu.2)
    ((steady_each r hk).found _).2 rfl

section
variable {s t : State} (hl : live s = true)
include hl

theorem dynamicScrub_cons (f : MemFind) (r : List MemFind) (h : exec (.dynamicScrub [f]) s = .next t) :
    exec (.dynamicScrub (f :: r)) s = exec (.dynamicScrub r) t := by
  have hone : exec (.dynamicScrub [f]) s = .next (commit s (dynamicFind f (begin_ s))) := run_live _ s hl
  cases hone.symm.trans h
  have hlt : live (commit s (dynamicFind f (begin_ s))) = true := by
    rw [live_iff, commit_dev, dynamicFind_boot]
    exact (live_iff s).1 hl
  refine (run_live _ s hl).trans (.trans (congrArg _ ?_) (run_live _ _ hlt).symm)
  exact (commit_findings steady_dynamicFind r ((steady_dynamicFind f).found _)).symm

theorem scrubSweep_cons (f : MemFind) (r : List MemFind) (us : Nat) (h : exec (.scrubSweep [f] us) s = .next t) :
    exec (.scrubSweep (f :: r) us) s = exec (.scrubSweep r us) t := by
  have hone : exec (.scrubSweep [f] us) s = .next (commit s (sweepFind f (swept us (begin_ s)))) :=
    (run_live _ s hl).trans (by rw [scrubSweep_eq]; rfl)
  cases hone.symm.trans h
  have hall : exec (.scrubSweep (f :: r) us) s = .next (commit s (each r sweepFind (sweepFind f (swept us (begin_ s))))) :=
    (run_live _ s hl).trans (by rw [scrubSweep_eq]; rfl)
  have hfound := (steady_sweepFind f).found (swept us (begin_ s))
  rw [hall]
  obtain ⟨hb, hs⟩ | ⟨hst, hno⟩ := sweepFind_ends f (swept us (begin_ s))
  · generalize sweepFind f (swept us (begin_ s)) = u at hfound hb hs ⊢
    have hlt : live (commit s u) = true := by
      rw [live_iff, commit_dev, hb]
      exact (live_iff s).1 hl
    have hswept : swept us (begin_ (commit s u)) = begin_ (commit s u) := by
      unfold swept
      rw [← show u.d.mem.sweepUs = min us 4095 from hs]
      rfl
    refine .trans (congrArg _ ?_) (run_live _ _ hlt).symm
    rw [scrubSweep_eq, hswept]
    exact (commit_findings steady_sweepFind r hfound).symm
  · generalize sweepFind f (swept us (begin_ s)) = u at hst hno ⊢
    have hlt : live (commit s u) = false := by
      rw [← Bool.not_eq_true, live_iff, commit_dev, hst]
      exact fun h => nomatch h.1
    have hstay : each r sweepFind u = u := each_keeps (P := (· = u)) r (fun g _ v hv => by
      rw [hv]
      unfold sweepFind
      split
      · exact staticFind_noStatic hno g
      · rfl) rfl
    rw [hstay]
    exact (run_not_live _ _ hlt).symm

end

end Sys2Proof.Machine
end

section
/-! SUPPORT. What one finding of a sweep does to a state, by what it finds (spec/16 R516 to R522). -/

namespace Sys2Proof.Machine

open Sys2Proof.Claims

/-! The codes of the words that a report leaves alone. -/

theorem wr_ecc (a b : Nat) (x : Word) (w : Work) (h : b ≠ a) : eccAt b (wr a x w) = eccAt b w := by
  unfold wr
  split
  · obtain ⟨c, hc⟩ := crcPage_frame (a / 256)
      { w with ops := .word a x :: w.ops, d.mem.ecc := tabSet 0 w.d.mem.ecc a 0 }
    rw [hc]
    exact tabGet_tabSet_other (0 : Nat) w.d.mem.ecc a b 0 h
  · rfl

theorem wrs_ecc (b : Nat) (l : List Word) : ∀ (a : Nat) (w : Work), b < a ∨ a + l.length ≤ b →
    eccAt b (wrs a l w) = eccAt b w := by
  induction l with
  | nil => exact fun _ _ _ => rfl
  | cons x l ih =>
    intro a w h
    rw [List.length_cons] at h
    exact (ih (a + 1) (wr a x w) (by omega)).trans (wr_ecc a b x w (by omega))

theorem logUnits_mem (d : Dev) : (logUnits d).mem = d.mem := by
  unfold logUnits logIndexed
  dsimp only
  split <;> simp

theorem logEvent_ecc (b : Blk) (i c x a : Nat) (w : Work)
    (h : a < w.d.cmd.evBase + 4 * w.d.cmd.evWr ∨ w.d.cmd.evBase + 4 * w.d.cmd.evWr + 4 ≤ a) :
    eccAt a (logEvent b i c x w) = eccAt a w := by
  rw [logEvent_eq, logIndexed_eq]
  unfold eccAt
  dsimp only
  rw [logUnits_mem]
  exact wrs_ecc a _ _ _ h

/-! One finding. -/

section
variable {a : Nat} {w : Work}

theorem isStatic_iff (p : Nat) (w : Work) : isStatic p w = true ↔ ∃ r ∈ w.d.mem.static, r.1 ≤ p ∧ p < r.1 + r.2 := by
  simp [isStatic]

theorem sweepFind_single (ha : isBank a = true) (hs : isStatic (a / 256) w = true) (hk : eccAt a w ≠ 2) :
    sweepFind (.single a) w = foundSingle a w := by
  simp [sweepFind, findOk, ha, staticFind, found, hk, hs]

theorem dynamicFind_single (ha : isBank a = true) (hs : isStatic (a / 256) w = false) (hk : eccAt a w ≠ 2) :
    dynamicFind (.single a) w = foundSingle a w := by
  simp [dynamicFind, found, hk, hs, ha]

/-- The code of an uncorrectable word. -/
def doubleNoted (a : Nat) (d : Dev) : Dev := { d with mem := { d.mem with ecc := tabSet 0 d.mem.ecc a 2 } }

/-- A finding that makes the word uncorrectable, or that finds it so again (R517). -/
def FoundDouble (a : Nat) (f : MemFind) (w : Work) : Prop := f = .double a ∨ eccAt a w = 2 ∧ f = .single a

theorem FoundDouble.found {f : MemFind} (h : FoundDouble a f w) : found f w = .double a := by
  unfold FoundDouble at h
  obtain rfl | ⟨hk, rfl⟩ := h
  · rfl
  · simp [Machine.found, hk]

theorem dynamicFind_double {f : MemFind} (ha : isBank a = true) (hs : isStatic (a / 256) w = false) (hf : FoundDouble a f w) :
    dynamicFind f w = logEvent .mem (a % 32) 1 a { w with d := doubleNoted a w.d } := by
  unfold dynamicFind
  rw [hf.found]
  exact if_pos (by simp [ha, hs])

theorem sweepFind_double {f : MemFind} (ha : isBank a = true) (hs : isStatic (a / 256) w = true) (hf : FoundDouble a f w) :
    sweepFind f w = pageFailed 2 a { w with d := doubleNoted a w.d } := by
  have hok : findOk f = true := by
    unfold FoundDouble at hf
    obtain rfl | ⟨-, rfl⟩ := hf <;> exact ha
  unfold sweepFind staticFind
  rw [if_pos hok, hf.found]
  exact if_pos hs

theorem sweepFind_page {c : BitVec 32} (ha : isBank a = true) (hs : isStatic (a / 256) w = true)
    (hc : tabGet zeroPageCrc w.d.mem.pageCrc (a / 256) ≠ c.toNat) : sweepFind (.page a c) w = pageFailed 1 a w := by
  simp [sweepFind, findOk, ha, staticFind, found, hs, hc]

theorem sweepFind_page_keeps {c : BitVec 32} (h : isStatic (a / 256) w = false
    ∨ tabGet zeroPageCrc w.d.mem.pageCrc (a / 256) = c.toNat) : sweepFind (.page a c) w = w := by
  unfold sweepFind staticFind found
  cases h with
  | inl h => simp [h]
  | inr h => simp [h]

end

/-! A finding as a command. -/

section
variable {s : State} (hl : live s = true)
include hl

theorem ends_sweepFind {f : MemFind} {us : Nat} {P : State → Prop}
    (h : P (commit s (sweepFind f (swept us (begin_ s))))) : Ends (.scrubSweep [f] us) s P :=
  ends_run (f := scrubSweep [f] us) rfl hl (by rw [scrubSweep_eq]; exact h)

theorem ends_dynamicFind {f : MemFind} {P : State → Prop} (h : P (commit s (dynamicFind f (begin_ s)))) :
    Ends (.dynamicScrub [f]) s P :=
  ends_run (f := dynamicScrub [f]) rfl hl h

end

theorem pageFatal_iff (st : DevState) : pageFatal st = true ↔ st = .commission ∨ st = .run ∨ st = .recovery := by
  cases st <;> simp [pageFatal]

theorem eccWriteBack_begin (a : Nat) (s : State) (hl : live s = true) : exec (.eccWriteBack a) s = .next (if a ∈ s.dev.mem.writeBack
    then withDev s { s.dev with mem := { s.dev.mem with
      writeBack := s.dev.mem.writeBack.filter (fun x => x != a)
      ecc := if tabGet 0 s.dev.mem.ecc a = 1 then tabSet 0 s.dev.mem.ecc a 0 else s.dev.mem.ecc } } else s) := by
  split
  case isTrue h =>
    refine run_units (f := eccWriteBack a) hl ?_
    unfold eccWriteBack
    simp [h, eccAt]
  case isFalse h =>
    refine run_unchanged (f := eccWriteBack a) hl ?_
    unfold eccWriteBack
    simp [h]

end Sys2Proof.Machine

namespace Sys2Proof.Claims

open Sys2Proof.Machine

/-- A failing page, counted and, in a state that works, the device's death (R518, R521). -/
def PageFails (kind a us : Nat) (f : MemFind) (s : State) : Prop :=
  (pageFatal s.dev.sys.st = false → Ends (.scrubSweep [f] us) s fun t =>
    t.dev.mem.pcrc = (if s.dev.mem.pcrc < 65535 then s.dev.mem.pcrc + 1 else s.dev.mem.pcrc)
      ∧ t.dev.sys = s.dev.sys ∧ t.dev.mem.ueValid = s.dev.mem.ueValid)
  ∧ (pageFatal s.dev.sys.st = true → Ends (.scrubSweep [f] us) s fun t => t.dev.sys.st = .off ∧ t.dev.sys.rstCause = 2
    ∧ t.dev.boot.start = .settle ∧ t.dev.mem.ueValid = true ∧ t.dev.mem.ueKind = kind
    ∧ t.dev.mem.ueAddr = (if kind = 1 then a / 256 * 256 else a)
    ∧ ∀ x, isBank x = true → memRead t.mem x = 0)

section
variable {s : State} {a : Nat} (hl : live s = true)
include hl

theorem pageFails_of {kind us : Nat} {f : MemFind} {u : Work}
    (hf : sweepFind f (swept us (begin_ s)) = pageFailed kind a u) (hsys : u.d.sys = s.dev.sys)
    (hp : u.d.mem.pcrc = s.dev.mem.pcrc) (hu : u.d.mem.ueValid = s.dev.mem.ueValid) : PageFails kind a us f s := by
  constructor
  · intro h
    refine ends_sweepFind hl ?_
    rw [hf, pageFailed_lives (by rw [hsys]; exact h)]
    obtain ⟨-, ks, -, ku, kp⟩ := pageLogged_leaves a u
    exact ⟨kp.trans (by rw [hp]), ks.trans hsys, ku.trans hu⟩
  · intro h
    refine ends_sweepFind hl ?_
    rw [hf, pageFailed_dies (by rw [hsys]; exact h)]
    refine ⟨rfl, rfl, rfl, rfl, rfl, ?_, fun x hx => memRead_wholeReset 2 .settle s _ hx⟩
    show (if (kind == 1) = true then _ else _) = _
    simp only [beq_iff_eq]

theorem singleFound_ends {f : Work → Work} {c : Instr} {u : Work} (hc : exec c s = run f s) (hf : f (begin_ s) = foundSingle a u)
    (hcerr : u.d.mem.cerr = s.dev.mem.cerr) : Ends c s fun t => t.dev.mem.sweepUs = u.d.mem.sweepUs
      ∧ tabGet 0 t.dev.mem.cerr (a % 32) = (if tabGet 0 s.dev.mem.cerr (a % 32) < 0xFFFFFF
          then tabGet 0 s.dev.mem.cerr (a % 32) + 1 else tabGet 0 s.dev.mem.cerr (a % 32)) ∧ a ∈ t.dev.mem.writeBack := by
  refine ends_run hc hl ?_
  rw [hf]
  obtain ⟨-, ks, kw, kc⟩ := foundSingle_leaves a u
  rw [hcerr] at kc
  exact ⟨ks, kc, kw⟩

end

end Sys2Proof.Claims

namespace Sys2Proof.Proofs

open Sys2Proof.Machine Sys2Proof.Claims

/-- Settles O32: a finding does the same to copies that read alike, so that a run of findings goes on from the state that its
first one leads to; and each finding by its kind. -/
theorem memoryCare : Obligations.MemoryCare := by
  unfold Obligations.MemoryCare
  refine ⟨eccWriteBack_begin, fun f r us s t hl => ⟨scrubSweep_cons hl f r us, dynamicScrub_cons hl f r⟩, ?_⟩
  intro us a s hl ha static n dies known
  have hst : isStatic (a / 256) (begin_ s) = true ↔ static := isStatic_iff _ _
  have hst0 (h : ¬ static) : isStatic (a / 256) (begin_ s) = false := by simpa using mt hst.1 h
  refine ⟨fun h hk => ?_, fun h hk => ?_, fun f h hf => ?_, fun f kind h hf => ?_, fun c h => ?_⟩
  · refine singleFound_ends (f := scrubSweep [.single a] us) (u := swept us (begin_ s)) hl rfl ?_ rfl
    rw [scrubSweep_eq]
    exact sweepFind_single ha (hst.2 h) hk
  · obtain ⟨t, ht, -, hn, hw⟩ := singleFound_ends (c := .dynamicScrub [.single a]) (f := dynamicScrub [.single a]) (u := begin_ s) hl rfl
      (dynamicFind_single ha (hst0 h) hk) rfl
    exact ⟨t, ht, hn, hw⟩
  · refine ends_dynamicFind hl ?_
    rw [dynamicFind_double ha (hst0 h) hf]
    refine ⟨fun hout => ?_, fun hr => ?_⟩
    · exact (logEvent_ecc _ _ _ _ _ _ hout).trans (tabGet_tabSet_same (0 : Nat) s.dev.mem.ecc a 2)
    · exact eventLogged_logEvent (s := withDev s (doubleNoted a s.dev)) .mem a hr (by omega) (by decide)
  · have hfail : PageFails kind a us f s := by
      obtain ⟨rfl, hf⟩ | ⟨rfl, c, rfl, hc⟩ := hf
      · exact pageFails_of hl (sweepFind_double (w := swept us (begin_ s)) ha (hst.2 h) hf) rfl rfl rfl
      · exact pageFails_of hl (sweepFind_page (w := swept us (begin_ s)) ha (hst.2 h) hc) rfl rfl rfl
    obtain ⟨hlives, hdies⟩ := hfail
    exact ⟨fun hd => hlives (by simpa using mt (pageFatal_iff _).1 hd), fun hd => hdies ((pageFatal_iff _).2 hd)⟩
  · refine run_units (f := scrubSweep [.page a c] us) hl ?_
    rw [scrubSweep_eq]
    exact sweepFind_page_keeps (w := swept us (begin_ s)) (h.imp_left hst0)

end Sys2Proof.Proofs
end

section
/-! SUPPORT. What an entry to CONFIG leaves: the role, the load, the image and the island's states (spec/01 Table 1.8). -/

namespace Sys2Proof.Machine

open Sys2Proof.Claims

/-- What the steps of an entry to CONFIG from a state other than TEST leave as it is, before the role and the state change. -/
def idleView (w : Work) : DevState × Role × Bool × Option Image × HState × HState × Bool × List Word :=
  (w.d.sys.st, w.d.sys.role, w.d.boot.cfgBusy, w.d.trl.img, w.d.hdg.pState, w.d.hdg.lState, w.d.hdg.blocked, w.d.hdg.win)

theorem idleView_of_units {w v : Work} (hs : v.d.sys = w.d.sys) (hb : v.d.boot = w.d.boot) (ht : v.d.trl = w.d.trl)
    (hh : v.d.hdg = w.d.hdg) : idleView v = idleView w := by
  simp only [idleView, hs, hb, ht, hh]

theorem Records.idleView {w v : Work} (h : Records w v) : idleView v = idleView w :=
  idleView_of_units h.sys h.boot (congrArg (·.d.trl) h) (congrArg (·.d.hdg) h)

theorem idleView_each {α : Type} {f : α → Work → Work} (l : List α) (h : ∀ a v, idleView (f a v) = idleView v) (w : Work) :
    idleView (each l f w) = idleView w :=
  each_keeps (P := fun v => idleView v = idleView w) l (fun a _ v hv => (h a v).trans hv) rfl

theorem idleView_logEvent (b : Blk) (i c x : Nat) (w : Work) : idleView (logEvent b i c x w) = idleView w :=
  (logEvent_records b i c x w).idleView

theorem idleView_report (c : CmdRef) (r : Report) (w : Work) : idleView (report c r w) = idleView w :=
  (report_records c r w).idleView

theorem idleView_ite {c : Prop} [Decidable c] {u v w : Work} (hu : idleView u = idleView w) (hv : idleView v = idleView w) :
    idleView (if c then u else v) = idleView w := by
  split
  · exact hu
  · exact hv

/-! All axes disabled. -/

theorem idleView_btAbort (w : Work) : idleView (btAbort w) = idleView w := by
  unfold btAbort
  extract_lets dev d h w1
  have h1 : idleView w1 = idleView w := rfl
  split
  · exact h1
  · extract_lets w2 w3
    have h2 : idleView w2 = idleView w1 := rfl
    have h3 : idleView w3 = idleView w2 := idleView_logEvent ..
    clear_value w3 w2 w1
    exact (idleView_report _ _ { w3 with d.hdg.btCmd := none }).trans ((h3.trans h2).trans h1)

theorem idleView_breakCoord (a : Nat) (w : Work) : idleView (breakCoord a w) = idleView w := by
  unfold breakCoord
  split
  · rfl
  · extract_lets ms w1
    have h1 : idleView w1 = idleView w := by
      refine idleView_each ms (fun m v => ?_) w
      rfl
    exact (idleView_logEvent _ _ _ _ { w1 with d.pln.coords := w1.d.pln.coords.filter _ }).trans h1

theorem idleView_plnDisable (a : Nat) (w : Work) : idleView (plnDisable a w) = idleView w := by
  unfold plnDisable
  exact idleView_ite rfl (idleView_breakCoord a w)

theorem idleView_egvCut (a : Nat) (w : Work) : idleView (egvCut a w) = idleView w := rfl

theorem idleView_modCe (a : Nat) (f : CeAxis → CeAxis) (w : Work) : idleView (modCe a f w) = idleView w := rfl

theorem idleView_disableAll (w : Work) : idleView (disableAll w) = idleView w := by
  unfold disableAll
  extract_lets w1 w2 w3
  have h1 : idleView w1 = idleView w := idleView_ite (idleView_btAbort w) rfl
  have h2 : idleView w2 = idleView w1 := idleView_each _ (fun a v => (idleView_egvCut a _).trans (idleView_plnDisable a v)) w1
  have h3 : idleView w3 = idleView w2 := by
    refine idleView_each _ (fun a v => ?_) w2
    exact (idleView_modCe a _ (ceOff a v)).trans (idleView_modCe a _ v)
  refine .trans (idleView_each _ (fun a v => ?_) w3) (h3.trans (h2.trans h1))
  rfl

/-! The captures, the rings and the whole entry. -/

theorem idleView_dropSlots (n : Nat) (w : Work) : idleView (dropSlots n w) = idleView w := by
  refine idleView_each _ (fun i v => ?_) w
  split
  · exact idleView_ite rfl rfl
  · rfl

theorem idleView_hvsDisarmAll (w : Work) : idleView (hvsDisarmAll w) = idleView w := by
  refine idleView_each _ (fun n v => ?_) w
  unfold hvsDisarm fxDisarm
  refine idleView_ite rfl ((idleView_logEvent ..).trans ?_)
  exact idleView_ite rfl (idleView_dropSlots n _)

theorem idleView_dropProposal (n : Nat) (b : Bool) (w : Work) : idleView (dropProposal n b w) = idleView w := by
  unfold dropProposal
  split
  · rfl
  · extract_lets _ _ _ _ w1 _ _ w2 w3
    have h2 : idleView w2 = idleView w := by
      simp only [w2]
      split <;> rfl
    exact (idleView_logEvent ..).trans ((idleView_report ..).trans h2)

theorem idleView_dropRequests (w : Work) : idleView (dropRequests w) = idleView w :=
  idleView_each _ (fun _ _ => idleView_report ..) { w with d.trl.runWait := none, d.trl.discCmd := none }

theorem idleView_trlFresh (w : Work) : idleView (trlFresh w) = idleView w := by
  have h : idleView (dropRequests (dropProposal 0 false w)) = idleView w :=
    (idleView_dropRequests _).trans (idleView_dropProposal 0 false w)
  exact h

theorem idleView_ceIdle (w : Work) : idleView (ceIdle w) = idleView w := by
  refine idleView_each _ (fun a v => ?_) w
  exact idleView_modCe a _ v

theorem idleView_setState (t : DevState) (w : Work) : (idleView (setState t w)).2 = (idleView w).2 := by
  obtain ⟨_, _, _, h⟩ := setState_frame t w
  rw [h]
  rfl

theorem enterConfig_st (w : Work) : (enterConfig w).d.sys.st = .config := setState_st ..

theorem setRole_records (r : Role) (w : Work) : Records { w with d.sys.role := r } (setRole r w) := by
  unfold setRole
  split
  · rename_i h
    rw [← h]
    exact .refl w
  · exact irq_records ..

/-- An entry to CONFIG from another state than TEST: all but the role stays, and the role of a device that is no standby. -/
theorem enterConfig_leaves {w : Work} (ht : w.d.sys.st ≠ .test) : (idleView (enterConfig w)).2.2 = (idleView w).2.2
    ∧ (w.d.sys.role ≠ .standby → (enterConfig w).d.sys.role = w.d.sys.role) ∧ (enterConfig w).d.mbx.lock = true := by
  unfold enterConfig
  extract_lets was w1 w2 w3 _ _ _ _ _ _ w4 w5
  have h1 : idleView w1 = idleView w := (idleView_ceIdle _).trans
    ((idleView_trlFresh _).trans ((idleView_hvsDisarmAll _).trans (idleView_disableAll w)))
  have h2 : w2 = w1 := by simp [w2, was, when_, ht]
  have h3 : idleView w3 = idleView w2 := by
    refine idleView_each _ (fun n v => ?_) w2
    rfl
  have h4 : idleView w4 = idleView w := .trans rfl (h3.trans (by rw [h2, h1]))
  have hrole : w4.d.sys.role = w.d.sys.role := congrArg (·.2.1) h4
  have hlock : w4.d.mbx.lock = true := rfl
  have h5 : (idleView w5).2.2 = (idleView w).2.2 ∧ (w.d.sys.role ≠ .standby → w5.d.sys.role = w.d.sys.role)
      ∧ w5.d.mbx.lock = true := by
    clear_value w4
    rw [← h4]
    by_cases hs : w4.d.sys.role = .standby
    · have hr := setRole_records .solo w4
      have h5 : w5 = setRole .solo w4 := by simp [w5, when_, hs]
      refine ⟨?_, fun hne => absurd (hrole.symm.trans hs) hne, ?_⟩
      · rw [h5, hr.idleView]
        rfl
      · rw [h5, show (setRole .solo w4).d.mbx = w4.d.mbx from congrArg (·.d.mbx) hr]
        exact hlock
    · have h5 : w5 = w4 := by simp [w5, when_, hs]
      rw [h5]
      exact ⟨rfl, fun _ => hrole, hlock⟩
  obtain ⟨k1, k2, k3⟩ := h5
  clear_value w5
  obtain ⟨_, _, _, h⟩ := setState_frame .config w5
  refine ⟨(congrArg (·.2) (idleView_setState .config w5)).trans k1, fun hne => ?_, ?_⟩
  · rw [h]; exact k2 hne
  · rw [h]; exact k3

end Sys2Proof.Machine
end

section
/-! SUPPORT. The configuration load and direct flash access (spec/18 R570 to R577). -/

namespace Sys2Proof.Machine

open Sys2Proof.Claims

/-! What stands at an address. -/

/-- A report changes no word outside its record. -/
theorem rd_logEvent_other (b : Blk) (i c x : Nat) {w : Work} {a : Nat}
    (h : ∀ k, k < 4 → w.d.cmd.evBase + 4 * w.d.cmd.evWr + k ≠ a) : rd a (logEvent b i c x w) = rd a w := by
  obtain ⟨v, hv⟩ := logEvent_words b i c x w
  rw [hv, rd_wrs, if_neg]
  · rfl
  · rintro ⟨hlo, hhi, -⟩
    exact h (a - (w.d.cmd.evBase + 4 * w.d.cmd.evWr)) (by simp at hhi; omega) (by omega)

/-- Every group is on. -/
theorem groupOn_all {w : Work} (h : w.d.boot.bgrp = 0xFF) (a : Nat) : groupOn a w = true := by
  have hlt := groupOf_lt a
  unfold groupOn
  rw [h]
  generalize groupOf a = g at hlt
  revert g
  decide

/-! The pointer sector and the words of an image. -/

theorem length_takeWhile_range {p : Nat → Bool} {m N : Nat} (hm : m < N) (hp : ∀ k, k < m → p k = true) (hend : p m = false) :
    ((List.range N).takeWhile p).length = m := by
  obtain ⟨r, rfl⟩ := Nat.exists_eq_add_of_lt hm
  rw [Nat.add_assoc, List.range_add, List.takeWhile_append_of_pos (fun k hk => hp k (List.mem_range.1 hk)), List.range_succ_eq_map]
  simp [hend]

theorem ptrErased_iff (k : Nat) (w : Work) :
    ptrErased k w = true ↔ ∀ j, j < 5 → tabGet 255 w.d.flash.cells (0x800000 + 5 * k + j) = 255 := by
  simp [ptrErased, flashByte]

theorem ptrEntries_eq {n : Nat} {w : Work} (hn : n + 1 < 13107)
    (hp : ∀ k, k ≤ n → ∃ j, j < 5 ∧ tabGet 255 w.d.flash.cells (0x800000 + 5 * k + j) ≠ 255)
    (hend : ∀ j, j < 5 → tabGet 255 w.d.flash.cells (0x800000 + 5 * (n + 1) + j) = 255) : ptrEntries w = n + 1 := by
  refine length_takeWhile_range hn (fun k hk => ?_) ?_
  · obtain ⟨j, hj, h⟩ := hp k (by omega)
    have hne : ¬ ptrErased k w = true := fun he => h ((ptrErased_iff k w).1 he j hj)
    simpa using hne
  · have := (ptrErased_iff (n + 1) w).2 hend
    simpa using this

theorem flashWord_eq (a : Nat) (w : Work) : flashWord a w = BitVec.ofNat 36
    (flashByte a w % 256 * 2 ^ 32 + flashByte (a + 1) w % 256 * 2 ^ 24 + flashByte (a + 2) w % 256 * 2 ^ 16
      + flashByte (a + 3) w % 256 * 2 ^ 8 + flashByte (a + 4) w % 256) := by
  have h : flashWord a w = wd (ofBytesBE ([0, 1, 2, 3, 4].map fun k => flashByte (a + k) w)) := rfl
  rw [h]
  simp only [wd, ofBytesBE, List.map_cons, List.map_nil, List.reverse_cons, List.reverse_nil, List.nil_append,
    List.cons_append, ofBytesLE, Nat.add_zero]
  exact congrArg _ (by omega)

/-! The load. -/

/-- The slot, the address, the length and the words of the image that the pointer sector names. -/
def cfgSlot (w : Work) : Nat :=
  if ptrEntries w == 0 then 0 else fld (flashWord (0x800000 + 5 * (ptrEntries w - 1)) w) 0 3
def cfgAt (w : Work) : Nat := 0x900000 + 0x200000 * cfgSlot w
def cfgLength (w : Work) : Nat := min 409600 (flashWord (cfgAt w + 5) w).toNat
def cfgWords (w : Work) : List Word := (List.range (cfgLength w)).map fun k => flashWord (cfgAt w + 10 + 5 * k) w

/-- What the registers show of a load. -/
def cfgShown (img : Image) (w u : Work) : Work :=
  { u with
    d.boot.cfgBusy := false, d.boot.cfgId := flashWord (cfgAt w) w, d.boot.cfgLen := cfgLength w, d.boot.slot := cfgSlot w
    d.boot.ptrEmpty := ptrEntries w == 0, d.trl.img := some img }

/-- The load taken: the words in memory, zeros past their end, and what the registers show. -/
def cfgPlaced (img : Image) (w : Work) : Work :=
  cfgShown img w (wrs 0x780000 (cfgWords w ++ List.replicate (w.d.boot.cfgLen - cfgLength w) 0) w)

/-- The load taken and reported. -/
def cfgTold (img : Image) (w : Work) : Work :=
  logEvent .sys 0 3 (cfgSlot w) (when_ (ptrEntries w == 0) (logEvent .sys 0 4 0) (cfgPlaced img w))

theorem cfgLoaded_eq (img : Image) (w : Work) (h : w.d.boot.cfgBusy = true) : cfgLoaded img w =
    if (cfgTold img w).d.sys.st == .boot && (cfgTold img w).d.boot.verified then
      enterConfig (setRole .solo (ageLoad (cfgTold img w)))
    else if (cfgTold img w).d.sys.st == .safeLock && (cfgTold img w).d.sys.prev == .boot then ageLoad (cfgTold img w)
    else cfgTold img w := by
  unfold cfgLoaded cfgTold cfgPlaced cfgShown cfgWords cfgLength cfgAt cfgSlot
  rw [if_neg (by simp [h])]

theorem cfgTold_records (img : Image) (w : Work) : Records (cfgPlaced img w) (cfgTold img w) :=
  (when_records (.refl _) (logEvent_records ..)).trans (logEvent_records ..)

theorem cfgPlaced_units (img : Image) (w : Work) : (cfgPlaced img w).base = w.base ∧ (cfgPlaced img w).d.sys = w.d.sys
    ∧ (cfgPlaced img w).d.cmd = w.d.cmd ∧ (cfgPlaced img w).d.boot = { w.d.boot with
        cfgBusy := false, cfgId := flashWord (cfgAt w) w, cfgLen := cfgLength w, slot := cfgSlot w
        ptrEmpty := ptrEntries w == 0 } ∧ (cfgPlaced img w).d.trl.img = some img := by
  unfold cfgPlaced cfgShown
  obtain ⟨_, _, _, h⟩ := wrs_frame (cfgWords w ++ List.replicate (w.d.boot.cfgLen - cfgLength w) 0) 0x780000 w
  rw [h]
  exact ⟨rfl, rfl, rfl, rfl, rfl⟩

theorem rd_cfgShown (a : Nat) (img : Image) (w u : Work) : rd a (cfgShown img w u) = rd a u := rfl

theorem cfgLength_le (w : Work) : cfgLength w ≤ 409600 := Nat.min_le_left ..

/-- Words written with zeros after them. -/
theorem rd_wrs_padded {l : List Word} {n p k : Nat} {w : Work} (hb : isBank (p + k) = true) (hg : groupOn (p + k) w = true) :
    (k < l.length → rd (p + k) (wrs p (l ++ List.replicate n 0) w) = l.getD k 0)
    ∧ (l.length ≤ k → k < l.length + n → rd (p + k) (wrs p (l ++ List.replicate n 0) w) = 0) := by
  rw [rd_wrs, List.length_append, List.length_replicate, Nat.add_sub_cancel_left]
  refine ⟨fun h => ?_, fun h hlt => ?_⟩
  · rw [if_pos ⟨by omega, by omega, hb, hg⟩, List.getD_append _ _ _ _ h]
  · rw [if_pos ⟨by omega, by omega, hb, hg⟩, List.getD_append_right _ _ _ _ h]
    simp

theorem getD_cfgWords {k : Nat} {w : Work} (h : k < cfgLength w) :
    (cfgWords w).getD k 0 = flashWord (cfgAt w + 10 + 5 * k) w := by
  unfold cfgWords
  generalize cfgLength w = n at h
  simp [h]

theorem length_cfgWords (w : Work) : (cfgWords w).length = cfgLength w := by
  unfold cfgWords
  generalize cfgLength w = n
  simp

/-- The words of a load, where the report of it does not stand. -/
theorem rd_cfgTold {img : Image} {w : Work} {k : Nat} (hg : w.d.boot.bgrp = 0xFF) (hn : ptrEntries w ≠ 0) (hk : k < 409600)
    (hout : ∀ j, j < 4 → w.d.cmd.evBase + 4 * w.d.cmd.evWr + j ≠ 0x780000 + k) :
    (k < cfgLength w → rd (0x780000 + k) (cfgTold img w) = flashWord (cfgAt w + 10 + 5 * k) w)
    ∧ (cfgLength w ≤ k → k < w.d.boot.cfgLen → rd (0x780000 + k) (cfgTold img w) = 0) := by
  have htold : rd (0x780000 + k) (cfgTold img w)
      = rd (0x780000 + k) (wrs 0x780000 (cfgWords w ++ List.replicate (w.d.boot.cfgLen - cfgLength w) 0) w) := by
    have hn0 : (ptrEntries w == 0) = false := by simpa using hn
    have hcmd : (cfgPlaced img w).d.cmd = w.d.cmd := (cfgPlaced_units img w).2.2.1
    rw [cfgTold, hn0]
    refine (rd_logEvent_other .sys 0 3 (cfgSlot w) (w := cfgPlaced img w) ?_).trans (rd_cfgShown _ img w _)
    rw [hcmd]
    exact hout
  have hbank : isBank (0x780000 + k) = true := by
    have hlo : bankLo ≤ 0x780000 + k := (show bankLo ≤ 0x780000 by decide).trans (Nat.le_add_right ..)
    have hhi : 0x780000 + k < bankHi := show 0x780000 + k < 0x800000 by omega
    exact Bool.and_eq_true_iff.2 ⟨decide_eq_true hlo, decide_eq_true hhi⟩
  obtain ⟨hword, hzero⟩ := rd_wrs_padded (l := cfgWords w) (n := w.d.boot.cfgLen - cfgLength w) hbank (groupOn_all hg _)
  rw [length_cfgWords] at hword hzero
  rw [htold]
  exact ⟨fun h => (hword h).trans (getD_cfgWords h), fun h hlt => hzero h (by omega)⟩

/-- Loading the ledger leaves what an entry to CONFIG keeps, and the state and the role. -/
theorem ageLoad_leaves (w : Work) : idleView (ageLoad w) = idleView w ∧ (ageLoad w).d.sys = w.d.sys := by
  unfold ageLoad
  split
  · generalize hu : ({ w with d.age.fresh := true } : Work) = u
    have h := logEvent_records .age 0 7 0 u
    exact ⟨h.idleView.trans (by rw [← hu]; rfl), h.sys.trans (by rw [← hu])⟩
  · extract_lets hs hour eye _ _ _ u
    have hv : idleView u = idleView w := rfl
    have hsys : u.d.sys = w.d.sys := rfl
    clear_value u
    obtain ⟨_, _, _, h⟩ := wrs_frame ‹List Word› u.d.age.base u
    rw [h]
    exact ⟨hv, hsys⟩

theorem setRole_role (r : Role) (w : Work) : (setRole r w).d.sys.role = r ∧ (setRole r w).d.sys.st = w.d.sys.st
    ∧ (setRole r w).d.boot = w.d.boot ∧ (setRole r w).d.trl = w.d.trl := by
  unfold setRole
  split
  · exact ⟨‹_›, rfl, rfl, rfl⟩
  · simp

end Sys2Proof.Machine
end

section
/-! SUPPORT. Boot images and direct flash access (spec/18 R570 to R577), and what the statement of both says. -/

namespace Sys2Proof.Machine

open Sys2Proof.Claims

/-! Boot images. -/

theorem firmwareOk_boot (w : Work) :
    (firmwareOk w).d.boot = { w.d.boot with verified := true, cfgBusy := true } := by
  unfold firmwareOk mbxBoot
  split
  · rfl
  · refine each_keeps (P := fun v : Work => v.d.boot = _) _ (fun p _ v hv => ?_) rfl
    unfold mbxBind
    split
    · exact hv
    · exact hv

section
variable {w : Work} (hst : w.d.sys.st = .boot) (hv : w.d.boot.verified = false)
include hst hv

theorem bootImageCheck_twoImages (ok : Bool) (hm : w.d.boot.bootMode ≠ 2) : bootImageCheck ok w =
    if ok then when_ w.d.boot.img0Bad (logEvent .sys 0 2 0) (firmwareOk { w with d.boot.image := w.d.boot.img0Bad })
    else if w.d.boot.img0Bad then bootHold 7 w else { w with d.boot.img0Bad := true } := by
  unfold bootImageCheck when_
  simp [hst, hv, hm]

theorem bootImageCheck_afterGo (ok : Bool) (hm : w.d.boot.bootMode = 2) : bootImageCheck ok w =
    if w.d.boot.go then (if ok then firmwareOk w else bootHold 7 w) else w := by
  unfold bootImageCheck
  cases w.d.boot.go <;> simp [hst, hv, hm]

end

/-! Bytes of the buffer words. -/

/-- Byte i of buffer words, the lowest address in bits [31:24] of a word. -/
def byteOf (i : Nat) (t : Tab Nat) : Nat := tabGet 0 t (i / 4) / 2 ^ (24 - 8 * (i % 4)) % 256

theorem flashBufByte_eq (i : Nat) (w : Work) : flashBufByte i w = byteOf i w.d.flash.buf := by
  simp [flashBufByte, byteOf, Nat.shiftRight_eq_div_pow]

/-- A number with the byte at a power replaced. -/
theorem bytePut_eq (o v a : Nat) : o - (o / a % 256) * a + v % 256 * a = o / (a * 256) * (a * 256) + (v % 256 * a + o % a) := by
  have h1 := Nat.div_add_mod o a
  have h2 := Nat.div_add_mod (o / a) 256
  have h3 : o / a / 256 = o / (a * 256) := Nat.div_div_eq_div_mul o a 256
  rw [h3] at h2
  have h4 : o = o / (a * 256) * (a * 256) + (o / a % 256) * a + o % a := by
    calc o = a * (256 * (o / (a * 256)) + o / a % 256) + o % a := by rw [h2]; exact h1.symm
      _ = _ := by ring
  omega

theorem bytePut_same (o v s : Nat) : (o - (o / 2 ^ s % 256) * 2 ^ s + v % 256 * 2 ^ s) / 2 ^ s % 256 = v % 256 := by
  rw [bytePut_eq]
  have hpos : 0 < 2 ^ s := Nat.two_pow_pos s
  have h : o / (2 ^ s * 256) * (2 ^ s * 256) + (v % 256 * 2 ^ s + o % 2 ^ s)
      = o % 2 ^ s + 2 ^ s * (256 * (o / (2 ^ s * 256)) + v % 256) := by ring
  rw [h, Nat.add_mul_div_left _ _ hpos, Nat.div_eq_of_lt (Nat.mod_lt o hpos)]
  omega

theorem bytePut_other {s r : Nat} (o v : Nat) (h : s + 8 ≤ r ∨ r + 8 ≤ s) :
    (o - (o / 2 ^ s % 256) * 2 ^ s + v % 256 * 2 ^ s) / 2 ^ r % 256 = o / 2 ^ r % 256 := by
  obtain h | h := h
  · obtain ⟨k, rfl⟩ := Nat.exists_eq_add_of_le h
    have hpow : 2 ^ (s + 8 + k) = 2 ^ s * 256 * 2 ^ k := by rw [pow_add, pow_add]; rfl
    have hlow : v % 256 * 2 ^ s + o % 2 ^ s < 2 ^ s * 256 := by
      have h1 := Nat.mod_lt o (Nat.two_pow_pos s)
      have h2 : v % 256 * 2 ^ s ≤ 255 * 2 ^ s := Nat.mul_le_mul_right _ (by omega)
      omega
    have hdiv (x : Nat) : x / (2 ^ s * 256 * 2 ^ k) = x / (2 ^ s * 256) / 2 ^ k := (Nat.div_div_eq_div_mul ..).symm
    have hpos : 0 < 2 ^ s * 256 := Nat.mul_pos (Nat.two_pow_pos s) (by decide)
    rw [bytePut_eq, hpow, hdiv, hdiv, Nat.mul_comm (o / (2 ^ s * 256)), Nat.mul_add_div hpos, Nat.div_eq_of_lt hlow,
      Nat.add_zero]
  · obtain ⟨k, rfl⟩ := Nat.exists_eq_add_of_le h
    have hpow : 2 ^ (r + 8 + k) = 2 ^ r * (256 * 2 ^ k) := by rw [pow_add, pow_add]; ring
    have hsub : o - (o / 2 ^ (r + 8 + k) % 256) * 2 ^ (r + 8 + k) + v % 256 * 2 ^ (r + 8 + k)
        = o % 2 ^ (r + 8 + k) + 2 ^ (r + 8 + k) * (256 * (o / (2 ^ (r + 8 + k) * 256)) + v % 256) := by
      rw [bytePut_eq]; ring
    have ho : o = o % 2 ^ (r + 8 + k) + 2 ^ (r + 8 + k) * (o / 2 ^ (r + 8 + k)) := (Nat.mod_add_div ..).symm
    have hstep (x y : Nat) : (x + 2 ^ (r + 8 + k) * y) / 2 ^ r % 256 = x / 2 ^ r % 256 := by
      rw [hpow, Nat.mul_assoc, Nat.add_mul_div_left _ _ (Nat.two_pow_pos r), Nat.mul_assoc, Nat.add_mul_mod_self_left]
    rw [hsub, hstep]
    conv_rhs => rw [ho, hstep]

theorem byteOf_flashBufPut (i j v : Nat) (w : Work) :
    byteOf j (flashBufPut i v w).d.flash.buf = if j = i then v % 256 else byteOf j w.d.flash.buf := by
  have hput : (flashBufPut i v w).d.flash.buf = tabSet 0 w.d.flash.buf (i / 4) (tabGet 0 w.d.flash.buf (i / 4)
      - (tabGet 0 w.d.flash.buf (i / 4) / 2 ^ (24 - 8 * (i % 4)) % 256) * 2 ^ (24 - 8 * (i % 4))
      + v % 256 * 2 ^ (24 - 8 * (i % 4))) := by
    simp [flashBufPut, Nat.shiftRight_eq_div_pow, Nat.shiftLeft_eq]
  unfold byteOf
  rw [hput, tabGet_tabSet]
  by_cases hk : j / 4 = i / 4
  · rw [if_pos hk]
    by_cases hj : j = i
    · rw [if_pos hj, hj, bytePut_same]
    · rw [if_neg hj, hk, bytePut_other _ _ (by omega)]
  · rw [if_neg hk, if_neg (by rintro rfl; exact hk rfl)]

end Sys2Proof.Machine
end

section
/-! SUPPORT. The transfers of direct flash access (spec/18 R577), and the statement of the load, the firmware and the flash. -/

namespace Sys2Proof.Machine

open Sys2Proof.Claims

theorem each_range_succ {σ : Type} (f : Nat → σ → σ) (n : Nat) (s : σ) :
    each (List.range (n + 1)) f s = f n (each (List.range n) f s) := by
  have happ (l : List Nat) : ∀ s, each (l ++ [n]) f s = f n (each l f s) := by
    induction l with
    | nil => exact fun _ => rfl
    | cons a l ih => exact fun s => ih (f a s)
  rw [List.range_succ]
  exact happ _ s

/-! Transfers. -/

/-- Only the bytes of the flash and of its buffer, and free values, have changed. -/
def Moved (w v : Work) : Prop :=
  v = { w with d.flash.cells := v.d.flash.cells, d.flash.buf := v.d.flash.buf, d.freeCtr := v.d.freeCtr }

section
variable {u v w : Work}

theorem Moved.refl (w : Work) : Moved w w := rfl

theorem Moved.trans (h : Moved w u) (k : Moved u v) : Moved w v := by
  unfold Moved at h k ⊢
  rw [h] at k
  exact k

theorem moved_each {α : Type} {f : α → Work → Work} (l : List α) (h : ∀ a u, Moved u (f a u)) (w : Work) : Moved w (each l f w) :=
  each_keeps (P := Moved w) l (fun a _ u hu => hu.trans (h a u)) (.refl w)

end

/-- A byte read into the buffer, and a byte of the buffer programmed. -/
def flashReadByte (err : Bool) (a i : Nat) (w : Work) : Work :=
  flashBufPut i (flashMove err (flashByte (flashPage a i) w) w).1 (flashMove err (flashByte (flashPage a i) w) w).2
def flashProgramByte (err : Bool) (a i : Nat) (w : Work) : Work :=
  flashPut (flashPage a i) (flashMove err (flashBufByte i w) w).1 (flashMove err (flashBufByte i w) w).2

theorem flashReadByte_moved (err : Bool) (a i : Nat) (w : Work) :
    Moved w (flashReadByte err a i w) ∧ (flashReadByte err a i w).d.flash.cells = w.d.flash.cells := by
  cases err <;> exact ⟨rfl, rfl⟩

theorem flashProgramByte_moved (err : Bool) (a i : Nat) (w : Work) :
    Moved w (flashProgramByte err a i w) ∧ (flashProgramByte err a i w).d.flash.buf = w.d.flash.buf := by
  cases err <;> exact ⟨rfl, rfl⟩

/-- The operation that ends no longer stands. -/
def flashEnded (err : Bool) (w : Work) : Work :=
  { w with d.flash.busy := false, d.flash.op := none, d.flash.err := w.d.flash.err || err }

/-- A byte of a sector whose erase failed. -/
def flashSpoil (kv : Nat × Nat) (w : Work) : Work := flashPut kv.1 (freeN 256 w).1 (freeN 256 w).2

theorem flashDone_eq {err : Bool} {k a n : Nat} {w : Work} (h : w.d.flash.op = some (k, a, n)) : flashDone err w =
    if k == 1 then each (List.range n) (flashReadByte err a) (flashEnded err w)
    else if k == 2 then each (List.range n) (flashProgramByte err a) (flashEnded err w)
    else if err then
      each (w.d.flash.cells.filter (fun kv => kv.1 / 65536 == a / 65536)) flashSpoil (flashEnded err w)
    else flashErase a (flashEnded err w) := by
  unfold flashDone
  rw [h]
  rfl

theorem flashDone_moved {err : Bool} {k a n : Nat} {w : Work} (h : w.d.flash.op = some (k, a, n)) :
    Moved (flashEnded err w) (flashDone err w) := by
  rw [flashDone_eq h]
  split
  · exact moved_each _ (fun i u => (flashReadByte_moved err a i u).1) _
  split
  · exact moved_each _ (fun i u => (flashProgramByte_moved err a i u).1) _
  split
  · exact moved_each _ (fun kv u => (rfl : Moved u (flashSpoil kv u))) _
  · rfl

theorem flashRead_cells (err : Bool) (a n : Nat) (w : Work) :
    (each (List.range n) (flashReadByte err a) w).d.flash.cells = w.d.flash.cells :=
  each_keeps (P := fun v : Work => v.d.flash.cells = w.d.flash.cells) _
    (fun i _ v hv => (flashReadByte_moved err a i v).2.trans hv) rfl

theorem flashProgram_buf (err : Bool) (a n : Nat) (w : Work) :
    (each (List.range n) (flashProgramByte err a) w).d.flash.buf = w.d.flash.buf :=
  each_keeps (P := fun v : Work => v.d.flash.buf = w.d.flash.buf) _
    (fun i _ v hv => (flashProgramByte_moved err a i v).2.trans hv) rfl

/-- What a read leaves in the buffer words. -/
theorem byteOf_flashRead (a n : Nat) (w : Work) : ∀ i, i < n →
    byteOf i (each (List.range n) (flashReadByte false a) w).d.flash.buf = tabGet 255 w.d.flash.cells (flashPage a i) % 256 := by
  induction n with
  | zero => exact fun i hi => absurd hi (Nat.not_lt_zero i)
  | succ n ih =>
    intro i hi
    have hcells := flashRead_cells false a n w
    rw [each_range_succ]
    generalize each (List.range n) (flashReadByte false a) w = u at ih hcells
    have hstep : flashReadByte false a n u = flashBufPut n (flashByte (flashPage a n) u) u := rfl
    rw [hstep, byteOf_flashBufPut, flashByte, hcells]
    split
    · rename_i h
      rw [h]
    · exact ih i (by omega)

/-- Within a transfer of at most a page, no two bytes have the same address. -/
theorem flashPage_inj {a i j : Nat} (hi : i < 256) (hj : j < 256) (h : flashPage a i = flashPage a j) : i = j := by
  unfold flashPage at h
  omega

/-- What a program leaves in the flash. -/
theorem flashProgram_cells (a n x : Nat) (w : Work) (hn : n ≤ 256) :
    tabGet 255 (each (List.range n) (flashProgramByte false a) w).d.flash.cells x =
      match (List.range n).find? (fun i => flashPage a i == x) with
      | some i => byteOf i w.d.flash.buf
      | none => tabGet 255 w.d.flash.cells x := by
  induction n with
  | zero => rfl
  | succ n ih =>
    have ih := ih (by omega)
    have hbuf := flashProgram_buf false a n w
    rw [each_range_succ, List.range_succ, List.find?_append]
    generalize each (List.range n) (flashProgramByte false a) w = u at ih hbuf
    have hstep : (flashProgramByte false a n u).d.flash.cells
        = tabSet 255 u.d.flash.cells (flashPage a n) (flashBufByte n u % 256) := rfl
    rw [hstep, tabGet_tabSet, ih, flashBufByte_eq, hbuf]
    by_cases hx : x = flashPage a n
    · have hnone : (List.range n).find? (fun i => flashPage a i == x) = none := by
        rw [List.find?_eq_none]
        intro i hi he
        have hlt := List.mem_range.1 hi
        have hin := flashPage_inj (a := a) (by omega) (by omega) ((beq_iff_eq.1 he).trans hx)
        omega
      rw [if_pos hx, hnone]
      simp [hx, byteOf]
    · rw [if_neg hx]
      cases (List.range n).find? (fun i => flashPage a i == x) with
      | some i => rfl
      | none => simp [Ne.symm hx]

theorem flashErase_cells (a x : Nat) (w : Work) : tabGet 255 (flashErase a w).d.flash.cells x
    = if x / 65536 = a / 65536 then 255 else tabGet 255 w.d.flash.cells x := by
  have h : (flashErase a w).d.flash.cells = tabKeep (fun j => j / 65536 != a / 65536) w.d.flash.cells := rfl
  rw [h, tabGet_tabKeep]
  by_cases hx : x / 65536 = a / 65536 <;> simp [hx]

end Sys2Proof.Machine

namespace Sys2Proof.Claims

open Sys2Proof.Machine

section
variable {s : State} (hl : live s = true)
include hl

theorem bootImageCheck_ends (ok : Bool) (hst : s.dev.sys.st = .boot) (hv : s.dev.boot.verified = false) :
    Ends (.bootImageCheck ok) s fun t =>
      (s.dev.boot.bootMode < 2 → ok = true →
        t.dev.boot.verified = true ∧ t.dev.boot.cfgBusy = true ∧ t.dev.boot.image = s.dev.boot.img0Bad)
      ∧ (s.dev.boot.bootMode < 2 → ok = false → s.dev.boot.img0Bad = false →
        t = withBoot { s.dev.boot with img0Bad := true } s)
      ∧ (s.dev.boot.bootMode < 2 → ok = false → s.dev.boot.img0Bad = true →
        t.dev.sys.st = .bootHold ∧ t.dev.boot.holdStat = 7)
      ∧ (s.dev.boot.bootMode = 2 → s.dev.boot.go = true → ok = false →
        t.dev.sys.st = .bootHold ∧ t.dev.boot.holdStat = 7)
      ∧ (s.dev.boot.bootMode = 2 → s.dev.boot.go = true → ok = true →
        t.dev.boot.verified = true ∧ t.dev.boot.cfgBusy = true ∧ t.dev.boot.image = s.dev.boot.image)
      ∧ (s.dev.boot.bootMode = 2 → s.dev.boot.go = false → t = s) := by
  have hheld : (bootHold 7 (begin_ s)).d.sys.st = .bootHold ∧ (bootHold 7 (begin_ s)).d.boot.holdStat = 7 :=
    ⟨(bootHold_holds ..).1, congrArg BootSt.holdStat (bootHold_holds ..).2⟩
  refine ends_run (f := bootImageCheck ok) rfl hl ?_
  refine ⟨fun hm hok => ?_, fun hm hok hb => ?_, fun hm hok hb => ?_, fun hm hg hok => ?_, fun hm hg hok => ?_, fun hm hg => ?_⟩
  · rw [bootImageCheck_twoImages hst hv ok (show s.dev.boot.bootMode ≠ 2 by omega), if_pos hok]
    generalize hu : firmwareOk { begin_ s with d.boot.image := (begin_ s).d.boot.img0Bad } = u
    have hboot : (when_ (begin_ s).d.boot.img0Bad (logEvent .sys 0 2 0) u).d.boot = u.d.boot :=
      (when_records (.refl u) (logEvent_records ..)).boot
    rw [commit_dev, hboot, ← hu, firmwareOk_boot]
    exact ⟨rfl, rfl, rfl⟩
  · rw [bootImageCheck_twoImages hst hv ok (show s.dev.boot.bootMode ≠ 2 by omega), if_neg (by simp [hok]),
      if_neg (by simpa using hb)]
    rfl
  · rw [bootImageCheck_twoImages hst hv ok (show s.dev.boot.bootMode ≠ 2 by omega), if_neg (by simp [hok]), if_pos (show (begin_ s).d.boot.img0Bad = true from hb)]
    exact hheld
  · rw [bootImageCheck_afterGo hst hv ok hm, if_pos (show (begin_ s).d.boot.go = true from hg), if_neg (by simp [hok])]
    exact hheld
  · rw [bootImageCheck_afterGo hst hv ok hm, if_pos (show (begin_ s).d.boot.go = true from hg), if_pos hok, commit_dev, firmwareOk_boot]
    exact ⟨rfl, rfl, rfl⟩
  · rw [bootImageCheck_afterGo hst hv ok hm, if_neg (by simpa using hg)]
    exact commit_begin s

theorem goTimeout_ends (hst : s.dev.sys.st = .boot) (hm : s.dev.boot.bootMode = 2) (hg : s.dev.boot.go = false) :
    Ends .goTimeout s fun t => t.dev.sys.st = .bootHold ∧ t.dev.boot.holdStat = 7 := by
  refine ends_run (f := goTimeout) rfl hl ?_
  have h : goTimeout (begin_ s) = bootHold 7 (begin_ s) := if_pos (by simp [hst, hm, hg])
  rw [h]
  exact ⟨(bootHold_holds ..).1, congrArg BootSt.holdStat (bootHold_holds ..).2⟩

theorem reload_config (v : Word) (hst : s.dev.sys.st = .config) : exec (.reload v) s = .next
    (if v.getLsbD 23 = true then withBoot { s.dev.boot with cfgBusy := true } s else s) := by
  split
  case isTrue h => exact run_units (f := cfgReload v) hl (if_pos (by simp [hst, bit, h]))
  case isFalse h => exact run_unchanged (f := cfgReload v) hl (if_neg (by simpa [hst, bit] using h))

theorem flashStart_next (k n : Nat) (clr : Bool) : run (flashStart k n clr) s = .next (withDev s { s.dev with flash :=
    if s.dev.sys.st = .config ∧ s.dev.flash.busy = false
    then { s.dev.flash with err := s.dev.flash.err && !clr, busy := true, op := some (k, s.dev.flash.addr, n) }
    else { s.dev.flash with err := true } }) := by
  refine run_units hl ?_
  unfold flashStart
  by_cases hc : s.dev.sys.st = .config ∧ s.dev.flash.busy = false
  · cases clr <;> simp [hc]
  · cases clr <;> simp [hc]

/-- A load in CONFIG, by the slot, the length and the words that the pointer sector names. -/
theorem cfgLoaded_config (img : Image) (hst : s.dev.sys.st = .config) (hbusy : s.dev.boot.cfgBusy = true)
    (hn : ptrEntries (begin_ s) ≠ 0) (hg : s.dev.boot.bgrp = 0xFF) :
    Ends (.cfgLoaded img) s fun t => t.dev.boot.cfgBusy = false ∧ t.dev.boot.slot = cfgSlot (begin_ s)
      ∧ t.dev.boot.cfgLen = cfgLength (begin_ s) ∧ t.dev.boot.cfgId = flashWord (cfgAt (begin_ s)) (begin_ s)
      ∧ t.dev.boot.ptrEmpty = false ∧ t.dev.trl.img = some img ∧ t.dev.sys.st = .config
      ∧ ∀ k, k < 409600 → (∀ j, j < 4 → nextRecord s + j ≠ 0x780000 + k) →
          (k < cfgLength (begin_ s) → memRead t.mem (0x780000 + k) = flashWord (cfgAt (begin_ s) + 10 + 5 * k) (begin_ s))
            ∧ (cfgLength (begin_ s) ≤ k → k < s.dev.boot.cfgLen → memRead t.mem (0x780000 + k) = 0) := by
  obtain ⟨kbase, ksys, -, kboot, kimg⟩ := cfgPlaced_units img (begin_ s)
  have hrec := cfgTold_records img (begin_ s)
  have hmem (k : Nat) (hk : k < 409600) (hout : ∀ j, j < 4 → nextRecord s + j ≠ 0x780000 + k) :=
    rd_cfgTold (img := img) (w := begin_ s) hg hn hk hout
  have hdone : cfgLoaded img (begin_ s) = cfgTold img (begin_ s) := by
    rw [cfgLoaded_eq img (begin_ s) hbusy, hrec.sys, ksys, begin_d, hst]
    rfl
  refine ends_run (f := cfgLoaded img) rfl hl ?_
  rw [hdone]
  have hb := hrec.boot.trans kboot
  have hi : (cfgTold img (begin_ s)).d.trl.img = some img := (congrArg (·.d.trl.img) hrec).trans kimg
  have hs := hrec.sys.trans ksys
  have hbase := hrec.base.trans kbase
  have hn0 : (ptrEntries (begin_ s) == 0) = false := by simpa using hn
  generalize cfgTold img (begin_ s) = u at hmem hb hi hs hbase
  refine ⟨?_, ?_, ?_, ?_, ?_, hi, (congrArg SysSt.st hs).trans hst, fun k hk hout => ?_⟩
  · rw [commit_dev, hb]
  · rw [commit_dev, hb]
  · rw [commit_dev, hb]
  · rw [commit_dev, hb]
  · rw [commit_dev, hb]; exact hn0
  · rw [memRead_commit s u hbase]
    exact hmem k hk hout

/-- A load in BOOT leads to CONFIG. -/
theorem cfgLoaded_boot (img : Image) (hst : s.dev.sys.st = .boot) (hv : s.dev.boot.verified = true)
    (hbusy : s.dev.boot.cfgBusy = true) : Ends (.cfgLoaded img) s fun t => t.dev.sys.st = .config ∧ t.dev.sys.role = .solo
      ∧ t.dev.mbx.lock = true ∧ t.dev.boot.cfgBusy = false ∧ t.dev.trl.img = some img := by
  obtain ⟨-, ksys, -, kboot, kimg⟩ := cfgPlaced_units img (begin_ s)
  have hrec := cfgTold_records img (begin_ s)
  have hb := hrec.boot.trans kboot
  have hi : (cfgTold img (begin_ s)).d.trl.img = some img := (congrArg (·.d.trl.img) hrec).trans kimg
  have hs := hrec.sys.trans ksys
  have hdone : cfgLoaded img (begin_ s) = enterConfig (setRole .solo (ageLoad (cfgTold img (begin_ s)))) := by
    rw [cfgLoaded_eq img (begin_ s) hbusy]
    exact if_pos (by simp [hs, hb, hst, hv])
  refine ends_run (f := cfgLoaded img) rfl hl ?_
  rw [hdone]
  generalize cfgTold img (begin_ s) = u at hb hi hs
  obtain ⟨hview, hsys⟩ := ageLoad_leaves u
  generalize ageLoad u = v at hview hsys
  obtain ⟨hrole, hrst, hrboot, hrtrl⟩ := setRole_role .solo v
  generalize setRole .solo v = x at hrole hrst hrboot hrtrl
  have hxst : x.d.sys.st = .boot := by rw [hrst, hsys, hs]; exact hst
  obtain ⟨hkeep, hyrole, hlock⟩ := enterConfig_leaves (w := x) (by simp [hxst])
  have hyrole := hyrole (by simp [hrole])
  have hcfg := enterConfig_st x
  generalize enterConfig x = y at hkeep hyrole hlock hcfg
  have hybusy : y.d.boot.cfgBusy = x.d.boot.cfgBusy := congrArg (·.1) hkeep
  have hyimg : y.d.trl.img = x.d.trl.img := congrArg (·.2.1) hkeep
  have hvbusy : v.d.boot.cfgBusy = u.d.boot.cfgBusy := congrArg (·.2.2.1) hview
  have hvimg : v.d.trl.img = u.d.trl.img := congrArg (·.2.2.2.1) hview
  refine ⟨hcfg, hyrole.trans hrole, hlock, ?_, ?_⟩
  · rw [commit_dev, hybusy, hrboot, hvbusy, hb]
  · rw [commit_dev, hyimg, hrtrl, hvimg, hi]

/-- The end of a flash operation. -/
theorem flashDone_ends (err : Bool) {k a n : Nat} (hop : s.dev.flash.op = some (k, a, n)) (hn : n ≤ 256) :
    Ends (.flashOperationDone err) s fun t =>
      t.dev.flash.busy = false ∧ t.dev.flash.op = none ∧ t.dev.flash.err = (s.dev.flash.err || err)
        ∧ t = withDev s { s.dev with flash := t.dev.flash, freeCtr := t.dev.freeCtr }
        ∧ (k = 1 → t.dev.flash.cells = s.dev.flash.cells ∧ (err = false →
            ∀ i, i < n → byteOf i t.dev.flash.buf = tabGet 255 s.dev.flash.cells (flashPage a i) % 256))
        ∧ (k = 2 → t.dev.flash.buf = s.dev.flash.buf ∧ (err = false → ∀ x, tabGet 255 t.dev.flash.cells x =
            match (List.range n).find? (fun i => flashPage a i == x) with
            | some i => byteOf i s.dev.flash.buf
            | none => tabGet 255 s.dev.flash.cells x))
        ∧ (k = 3 → err = false → ∀ x, tabGet 255 t.dev.flash.cells x =
            if x / 65536 = a / 65536 then 255 else tabGet 255 s.dev.flash.cells x) := by
  have hmoved : Moved (flashEnded err (begin_ s)) (flashDone err (begin_ s)) := flashDone_moved hop
  have heq := flashDone_eq (err := err) (w := begin_ s) hop
  refine ends_run (f := flashDone err) rfl hl ⟨?_, ?_, ?_, ?_, ?_, ?_, ?_⟩
  · rw [hmoved]; rfl
  · rw [hmoved]; rfl
  · rw [hmoved]; rfl
  · rw [hmoved]; rfl
  · rintro rfl
    rw [heq]
    refine ⟨flashRead_cells err a n (flashEnded err (begin_ s)), ?_⟩
    rintro rfl
    exact byteOf_flashRead a n (flashEnded false (begin_ s))
  · rintro rfl
    rw [heq]
    refine ⟨flashProgram_buf err a n (flashEnded err (begin_ s)), ?_⟩
    rintro rfl x
    exact flashProgram_cells a n x (flashEnded false (begin_ s)) hn
  · rintro rfl rfl x
    rw [heq]
    exact flashErase_cells a x (flashEnded false (begin_ s))

end

end Sys2Proof.Claims

namespace Sys2Proof.Proofs

open Sys2Proof.Machine Sys2Proof.Claims

/-- Settles O26: the branches of the firmware check, the words that a load places, and the transfers byte by byte. -/
theorem firmwareConfigurationAndFlash : Obligations.FirmwareConfigurationAndFlash := by
  unfold Obligations.FirmwareConfigurationAndFlash
  refine ⟨⟨fun ok s hl => bootImageCheck_ends hl ok, fun s hl hst hm hv => ⟨?_, goTimeout_ends hl hst hm⟩,
    fun v s hl hst => reload_config hl v hst, ?_, fun img s hl => cfgLoaded_boot hl img⟩, ?_, ?_⟩
  · exact run_units (f := bootGo) hl (if_pos (by simp [hst, hm, hv]))
  · intro img n s hl hst hbusy cell b word slot base len hlt hp hend hg hlog
    have hn : ptrEntries (begin_ s) = n + 1 := ptrEntries_eq hlt hp hend
    have hword (a : Nat) : flashWord a (begin_ s) = word a := flashWord_eq a (begin_ s)
    have hslot : cfgSlot (begin_ s) = slot := by
      rw [cfgSlot, hn, if_neg (by simp), Nat.add_sub_cancel, hword, fld_eq_div_mod]
      simp [slot]
    have hbase : cfgAt (begin_ s) = base := by rw [cfgAt, hslot]
    have hlen : cfgLength (begin_ s) = len := by rw [cfgLength, hbase, hword]
    have hmax : len ≤ 409600 := hlen ▸ cfgLength_le (begin_ s)
    obtain ⟨t, ht, h1, h2, h3, h4, h5, h6, h7, hmem⟩ := cfgLoaded_config hl img hst hbusy (by omega) hg
    rw [hlen] at h3
    simp only [hlen, hbase, hword] at hmem h4
    refine ⟨t, ht, h1, h2.trans hslot, h3, h4, h5, h6, h7, fun k hk => ?_, fun k hk hold hlt hout => ?_⟩
    · refine (hmem k (by omega) fun j hj he => ?_).1 hk
      have := hlog j hj
      omega
    · exact (hmem k hlt hout).2 hk hold
  · intro k c n len clr s hl hc
    simp only [List.mem_cons, Prod.mk.injEq, List.not_mem_nil, or_false] at hc
    obtain ⟨rfl, rfl, rfl⟩ | ⟨rfl, rfl, rfl⟩ | ⟨rfl, rfl, rfl⟩ := hc
    · exact flashStart_next hl 1 _ clr
    · exact flashStart_next hl 2 _ clr
    · exact flashStart_next hl 3 0 clr
  · intro err k a n s hl hop hn byte here
    obtain ⟨t, ht, h1, h2, h3, h4, hread, hprog, herase⟩ := flashDone_ends hl err hop hn
    refine ⟨t, ht, h1, h2, h3, h4, fun hk => ⟨(hread hk).1, fun he hb i hi => ?_⟩, hprog, herase⟩
    exact ((hread hk).2 he i hi).trans (Nat.mod_eq_of_lt (hb _))

end Sys2Proof.Proofs
end

section
/-! SUPPORT. The ledger's mirror and its hour, the guard check and the kept revision (spec/19 R578 to R591). -/

namespace Sys2Proof.Machine

open Sys2Proof.Claims

/-! The entries of a table in canonical form. -/

theorem keys_of_tabWfFrom {α : Type} [DecidableEq α] {d : α} : ∀ {t : Tab α} {lo : Nat}, tabWfFrom d lo t = true →
    (∀ kv ∈ t, lo ≤ kv.1) ∧ t.Pairwise fun x y => x.1 < y.1
  | [], _, _ => ⟨fun _ h => absurd h List.not_mem_nil, .nil⟩
  | (k, v) :: t, lo, h => by
    simp only [tabWfFrom, Bool.and_eq_true, decide_eq_true_eq] at h
    obtain ⟨⟨hk, -⟩, ht⟩ := h
    obtain ⟨hlo, hp⟩ := keys_of_tabWfFrom ht
    refine ⟨fun kv hkv => ?_, .cons (fun kv hkv => hlo kv hkv) hp⟩
    obtain rfl | hkv := List.mem_cons.1 hkv
    · exact hk
    · exact Nat.le_trans (by omega) (hlo kv hkv)

theorem tabGet_of_not_key {α : Type} {d : α} {j : Nat} : ∀ {t : Tab α}, (∀ kv ∈ t, kv.1 ≠ j) → tabGet d t j = d
  | [], _ => rfl
  | (k, v) :: t, h => by
    rw [tabGet, if_neg fun he => h (k, v) List.mem_cons_self he.symm]
    exact tabGet_of_not_key fun kv hkv => h kv (List.mem_cons_of_mem _ hkv)

/-! The mirror moves. -/

/-- The entries of a memory within the 65,536 words from an address on. -/
def within (lo : Nat) (m : Mem) : Mem := m.filter fun kv => decide (lo ≤ kv.1) && decide (kv.1 < lo + 65536)

theorem tabGet_within (lo a : Nat) (m : Mem) :
    tabGet 0 (within lo m) a = if lo ≤ a ∧ a < lo + 65536 then tabGet 0 m a else 0 := by
  have h : within lo m = tabKeep (fun a => decide (lo ≤ a) && decide (a < lo + 65536)) m := rfl
  rw [h, tabGet_tabKeep]
  simp

theorem mem_within {lo : Nat} {m : Mem} {kv : Nat × Word} (h : kv ∈ within lo m) : lo ≤ kv.1 ∧ kv.1 < lo + 65536 := by
  simpa [within] using (List.mem_filter.1 h).2

/-- A mirror that begins in bank memory lies in it. -/
theorem isBank_mirror {q k : Nat} (h : isBank (q * 65536) = true) (hk : k < 65536) : isBank (q * 65536 + k) = true := by
  unfold isBank at h ⊢
  rw [Bool.and_eq_true, decide_eq_true_eq, decide_eq_true_eq] at h ⊢
  obtain ⟨hlo, hhi⟩ := h
  have hq : q < 128 := Nat.lt_of_mul_lt_mul_right (show q * 65536 < 128 * 65536 from hhi)
  refine ⟨hlo.trans (Nat.le_add_right ..), ?_⟩
  calc q * 65536 + k < q * 65536 + 65536 := Nat.add_lt_add_left hk _
    _ = (q + 1) * 65536 := (Nat.succ_mul q 65536).symm
    _ ≤ 128 * 65536 := Nat.mul_le_mul_right _ hq

/-- Words cleared one after the other. -/
theorem rd_clearEach {a : Nat} (hb : isBank a = true) : ∀ {l : Mem} {w : Work}, groupOn a w = true →
    rd a (each l (fun kv w => wr kv.1 0 w) w) = if ∃ kv ∈ l, kv.1 = a then 0 else rd a w
  | [], w, _ => by simp
  | (j, v) :: l, w, hg => by
    have ih := rd_clearEach hb (l := l) (w := wr j 0 w) (by rw [groupOn_wr]; exact hg)
    refine ih.trans ?_
    rw [rd_wr]
    by_cases hj : a = j
    · subst hj
      simp [hb, hg]
    · simp [hj, Ne.symm hj]

/-- Words moved one after the other, each from its own place. -/
theorem rd_moveEach {old new k : Nat} (hb : isBank (new + k) = true) : ∀ {l : Mem} {w : Work}, groupOn (new + k) w = true →
    (∀ kv ∈ l, old ≤ kv.1) → l.Pairwise (fun x y => x.1 < y.1) →
    rd (new + k) (each l (fun kv w => wr (kv.1 - old + new) kv.2 w) w)
      = if ∃ kv ∈ l, kv.1 = old + k then tabGet 0 l (old + k) else rd (new + k) w
  | [], w, _, _, _ => by simp
  | (j, v) :: l, w, hg, hold, hp => by
    obtain ⟨hlt, hp⟩ := List.pairwise_cons.1 hp
    have hj := hold (j, v) List.mem_cons_self
    have ih := rd_moveEach hb (l := l) (w := wr (j - old + new) v w) (by rw [groupOn_wr]; exact hg)
      (fun kv h => hold kv (List.mem_cons_of_mem _ h)) hp
    refine ih.trans ?_
    rw [rd_wr, tabGet]
    by_cases hjk : j = old + k
    · have hnone : ¬ ∃ kv ∈ l, kv.1 = old + k := fun ⟨kv, hkv, he⟩ => by
        have := hlt kv hkv
        dsimp only at this
        omega
      have hat : j - old + new = new + k := by omega
      rw [hat, if_neg hnone, if_pos ⟨rfl, hb, hg⟩, if_pos ⟨_, List.mem_cons_self, hjk⟩, if_pos hjk.symm]
    · have hne : new + k ≠ j - old + new := by
        dsimp only at hj
        omega
      simp [hjk, hne, Ne.symm hjk]

/-- Words written elsewhere. -/
theorem rd_eachElsewhere {a : Nat} {f : Nat × Word → Nat} {g : Nat × Word → Word} {l : Mem} (h : ∀ kv ∈ l, f kv ≠ a) (w : Work) :
    rd a (each l (fun kv w => wr (f kv) (g kv) w) w) = rd a w :=
  each_keeps (P := fun v : Work => rd a v = rd a w) l (fun kv hkv v hv => by
    rw [rd_wr, if_neg (fun he => h kv hkv he.1.symm)]
    exact hv) rfl

/-- The mirror's contents after its move: first its new place is cleared. -/
def mirrorMoved (old new : Nat) (w : Work) : Work :=
  each (within old (memApply w.base w.ops)) (fun kv w => wr (kv.1 - old + new) kv.2 w)
    (each (within new (memApply w.base w.ops)) (fun kv w => wr kv.1 0 w) w)

/-- A run of writes leaves the groups, the memory as it was found, and the ledger. -/
theorem eachWr_keeps (f : Nat × Word → Nat) (g : Nat × Word → Word) (l : Mem) (w : Work) :
    (each l (fun kv w => wr (f kv) (g kv) w) w).d.boot = w.d.boot ∧ (each l (fun kv w => wr (f kv) (g kv) w) w).base = w.base
      ∧ (each l (fun kv w => wr (f kv) (g kv) w) w).d.age = w.d.age := by
  obtain ⟨_, _, _, h⟩ := eachWr_frame f g l w
  rw [h]
  exact ⟨rfl, rfl, rfl⟩

theorem mirrorMoved_frame (old new : Nat) (w : Work) : (mirrorMoved old new w).base = w.base
    ∧ (mirrorMoved old new w).d.age = w.d.age := by
  obtain ⟨-, hb, ha⟩ := eachWr_keeps (fun kv => kv.1) (fun _ => 0) (within new (memApply w.base w.ops)) w
  obtain ⟨-, kb, ka⟩ := eachWr_keeps (fun kv => kv.1 - old + new) (fun kv => kv.2) (within old (memApply w.base w.ops))
    (each (within new (memApply w.base w.ops)) (fun kv w => wr kv.1 0 w) w)
  exact ⟨kb.trans hb, ka.trans ha⟩

theorem rd_mirrorMoved_other {old new : Nat} {w : Work} {a : Nat} (h : a < new ∨ new + 65536 ≤ a) : rd a (mirrorMoved old new w) = rd a w := by
  unfold mirrorMoved
  rw [rd_eachElsewhere (f := fun kv => kv.1 - old + new) (g := fun kv => kv.2), rd_eachElsewhere (f := fun kv => kv.1) (g := fun _ => 0)]
  · intro kv hkv
    have := mem_within hkv
    omega
  · intro kv hkv
    have := mem_within hkv
    omega

theorem rd_mirrorMoved_new {old new : Nat} {w : Work} (hops : w.ops = []) {k : Nat} (hk : k < 65536) (hb : isBank (new + k) = true) (hg : w.d.boot.bgrp = 0xFF)
    (hw : tabWf 0 w.base = true) : rd (new + k) (mirrorMoved old new w) = rd (old + k) w := by
  have hm : memApply w.base w.ops = w.base := by rw [hops]; rfl
  have hrd (a : Nat) : rd a w = tabGet 0 w.base a := by rw [rd, hops]; rfl
  have hp : (within old w.base).Pairwise fun x y => x.1 < y.1 := (keys_of_tabWfFrom hw).2.sublist List.filter_sublist
  have hclear : rd (new + k) (each (within new w.base) (fun kv w => wr kv.1 0 w) w) = 0 := by
    rw [rd_clearEach hb (groupOn_all hg _)]
    split
    · rfl
    · rename_i hno
      rw [hrd]
      have h0 := tabGet_of_not_key (d := (0 : Word)) (t := within new w.base) (j := new + k) fun kv hkv he => hno ⟨kv, hkv, he⟩
      rwa [tabGet_within, if_pos ⟨by omega, by omega⟩] at h0
  have hold : tabGet 0 (within old w.base) (old + k) = rd (old + k) w := by
    rw [tabGet_within, if_pos ⟨by omega, by omega⟩, hrd]
  have hboot := (eachWr_keeps (fun kv => kv.1) (fun _ => 0) (within new w.base) w).1
  unfold mirrorMoved
  rw [hm]
  generalize each (within new w.base) (fun kv w => wr kv.1 0 w) w = u at hclear hboot
  rw [rd_moveEach hb (groupOn_all (by rw [hboot]; exact hg) _) (fun kv h => (mem_within h).1) hp]
  split
  · exact hold
  · rename_i hno
    rw [hclear, ← hold]
    exact (tabGet_of_not_key fun kv hkv he => hno ⟨kv, hkv, he⟩).symm

theorem ageBaseWrite_eq (v : Word) (w : Work) (hst : w.d.sys.st = .config) (hne : fld v 16 7 * 65536 ≠ w.d.age.base) :
    ageBaseWrite v w = mirrorMoved w.d.age.base (fld v 16 7 * 65536) { w with d.age.base := fld v 16 7 * 65536 } := by
  unfold ageBaseWrite
  rw [if_neg (by simp [hst])]
  exact if_neg (by simpa using hne)

theorem ageBaseWrite_base (v : Word) (w : Work) (hst : w.d.sys.st = .config) :
    (ageBaseWrite v w).d.age.base = fld v 16 7 * 65536 := by
  by_cases hne : fld v 16 7 * 65536 = w.d.age.base
  · have h : ageBaseWrite v w = { w with d.age.base := fld v 16 7 * 65536 } := by
      unfold ageBaseWrite
      rw [if_neg (by simp [hst])]
      exact if_pos (by simpa using hne)
    rw [h]
  · rw [ageBaseWrite_eq v w hst hne, (mirrorMoved_frame ..).2]

end Sys2Proof.Machine

namespace Sys2Proof.Claims

open Sys2Proof.Machine

theorem ageBaseWrite_ends {s : State} (hl : live s = true) (v : Word) (hst : s.dev.sys.st = .config) :
    Ends (.ageBaseWrite v) s fun t =>
      let new := v.toNat / 65536 % 128 * 65536
      t.dev.age.base = new
        ∧ (new + 65536 ≤ s.dev.age.base ∨ s.dev.age.base + 65536 ≤ new → s.dev.boot.bgrp = 0xFF → isBank new = true →
          Safety.Inv s →
            (∀ k, k < 65536 → memRead t.mem (new + k) = memRead s.mem (s.dev.age.base + k))
            ∧ ∀ a, (a < new ∨ new + 65536 ≤ a) → memRead t.mem a = memRead s.mem a) := by
  have hnew : fld v 16 7 * 65536 = v.toNat / 65536 % 128 * 65536 := by rw [fld_eq_div_mod]; rfl
  refine ends_run (f := ageBaseWrite v) rfl hl ⟨(ageBaseWrite_base v (begin_ s) hst).trans hnew, fun hd hg hb hinv => ?_⟩
  have hne : fld v 16 7 * 65536 ≠ (begin_ s).d.age.base := by
    rw [hnew, begin_d]
    omega
  rw [ageBaseWrite_eq v (begin_ s) hst hne, hnew]
  have hbase (a : Nat) : rd a { begin_ s with d.age.base := v.toNat / 65536 % 128 * 65536 } = memRead s.mem a := rfl
  generalize hu : { begin_ s with d.age.base := v.toNat / 65536 % 128 * 65536 } = u at hbase
  have hops : u.ops = [] := by rw [← hu]; rfl
  have hub : u.base = s.mem := by rw [← hu]; rfl
  have hug : u.d.boot.bgrp = 0xFF := by rw [← hu]; exact hg
  have hwf : tabWf 0 u.base = true := by rw [hub]; exact (Bool.and_eq_true_iff.1 hinv).1
  refine ⟨fun k hk => ?_, fun a ha => ?_⟩
  · have hbank : isBank (v.toNat / 65536 % 128 * 65536 + k) = true := isBank_mirror hb hk
    rw [memRead_commit s _ ((mirrorMoved_frame ..).1.trans hub), rd_mirrorMoved_new hops hk hbank hug hwf, hbase]
    rfl
  · rw [memRead_commit s _ ((mirrorMoved_frame ..).1.trans hub), rd_mirrorMoved_other ha, hbase]

end Sys2Proof.Claims
end

section
/-! SUPPORT. The ledger's hour, the guard check and the kept revision (spec/19 R578 to R591). -/

namespace Sys2Proof.Machine

open Sys2Proof.Claims

/-! The hour. -/

/-- What the hour's measurements leave: plant time, the groups, the memory as found, and the ledger but for its slowdowns and
its eyes. -/
def hourView (w : Work) : PtmSt × BootSt × Mem × AgeSt :=
  (w.d.ptm, w.d.boot, w.base, { w.d.age with slow := [], eyes := [] })

theorem hourView_each {α : Type} {f : α → Work → Work} (l : List α) (h : ∀ a v, hourView (f a v) = hourView v) (w : Work) :
    hourView (each l f w) = hourView w :=
  each_keeps (P := fun v => hourView v = hourView w) l (fun a _ v hv => (h a v).trans hv) rfl

theorem Records.hourView {w v : Work} (h : Records w v) : hourView v = hourView w := by
  have hp : v.d.ptm = w.d.ptm := congrArg (·.d.ptm) h
  have ha : v.d.age = w.d.age := congrArg (·.d.age) h
  simp only [Machine.hourView, hp, h.boot, h.base, ha]

theorem hourView_ageMonitors (l : List Nat) (w : Work) : hourView (ageMonitors l w) = hourView w := by
  refine hourView_each _ (fun p v => ?_) w
  dsimp only
  split
  · rfl
  · rfl

/-- One eye result, where it is kept. -/
def eyeKept (x : Bool × Nat × Bool × Nat × Nat) (w : Work) : Work :=
  if x.2.1 == 0 then
    let k := 2 * ringKey x.1 + (if x.2.2.1 then 1 else 0)
    { w with d.age.eyes := w.d.age.eyes.set k (x.2.2.2.1, x.2.2.2.2, (nth (0, 0, 0) w.d.age.eyes k).2.2) }
  else match (getR x.1 w).byPos[x.2.1 - 1]? with
    | some n => modNode x.1 n.1 (fun y => if x.2.2.1 then { y with eye1 := (x.2.2.2.1, x.2.2.2.2) }
        else { y with eye0 := (x.2.2.2.1, x.2.2.2.2) }) w
    | none => w

theorem ageEyes_eq (l : List (Bool × Nat × Bool × Nat × Nat)) (w : Work) : ageEyes l w = each l (fun x w =>
    if x.2.2.2.1 < 32 || x.2.2.2.2 < 10 then irq 18 (logEvent .age (ringKey x.1) 5 (put 0 7 x.2.1) (eyeKept x w))
    else eyeKept x w) w := rfl

theorem hourView_ageEyes (l : List (Bool × Nat × Bool × Nat × Nat)) (w : Work) : hourView (ageEyes l w) = hourView w := by
  rw [ageEyes_eq]
  refine hourView_each _ (fun x v => ?_) w
  have hkept : hourView (eyeKept x v) = hourView v := by
    unfold eyeKept
    split
    · rfl
    · split
      · rfl
      · rfl
  split
  · exact ((logEvent_records ..).trans (irq_records ..)).hourView.trans hkept
  · exact hkept

/-- The hour's values, as the ledger takes them. -/
def hourTaken (w : Work) : Work :=
  { w with
    d.age.hours := (({ rate := w.d.ptm.rate, eA := w.d.age.eHourA, eB := w.d.age.eHourB, cerr := w.d.age.cerrHour } : AgeHour)
      :: w.d.age.hours).take 720
    d.age.secs := w.d.age.secs + 3600, d.age.cerrHour := []
    d.flash.firstRates := if w.d.flash.firstRates.length < 24 then w.d.flash.firstRates ++ [w.d.ptm.rate]
      else w.d.flash.firstRates }

theorem hourTaken_secs (w : Work) : (hourTaken w).d.age.secs = w.d.age.secs + 3600 := by
  rw [hourTaken]

theorem hourTaken_hours (w : Work) : ((hourTaken w).d.age.hours.head?.map fun h => (h.rate, h.eA, h.eB))
    = some (w.d.ptm.rate, w.d.age.eHourA, w.d.age.eHourB) := by
  rw [hourTaken, List.head?_take, if_neg (by decide)]
  rfl

theorem hourTaken_age (w : Work) : (hourTaken w).base = w.base ∧ (hourTaken w).d.boot = w.d.boot
    ∧ (hourTaken w).d.age.seq = w.d.age.seq ∧ (hourTaken w).d.age.place = w.d.age.place
    ∧ (hourTaken w).d.age.base = w.d.age.base ∧ (hourTaken w).d.age.cerrHour = [] := by
  rw [hourTaken]
  exact ⟨rfl, rfl, rfl, rfl, rfl, rfl⟩

/-- The hour's marks of a ring's nodes begin again. -/
def hourMarks (b : Bool) (w : Work) : Work :=
  modR b (fun r => { r with nodes := r.nodes.map (fun kv => (kv.1, { kv.2 with hourMarg := none })) }) w

/-- The hour's maxima begin again. -/
def hourBegun (w : Work) : Work := { w with d.age.eHourA := 0, d.age.eHourB := 0 }

theorem ledgerHour_eq (cs : List Nat) (eyes : List (Bool × Nat × Bool × Nat × Nat)) (w : Work) : ledgerHour cs eyes w =
    if !background w || !(w.d.sys.st == .commission || w.d.sys.st == .run || w.d.sys.st == .recovery) then w
    else each (ringsUsed (hourBegun (ageAppend (hourTaken (ageEyes eyes (ageMonitors cs w)))))) hourMarks
      (hourBegun (ageAppend (hourTaken (ageEyes eyes (ageMonitors cs w))))) := by
  unfold ledgerHour hourBegun hourTaken hourMarks
  rfl

theorem flashPuts_frame (l : List Nat) : ∀ (a : Nat) (w : Work),
    ∃ c, flashPuts a l w = { w with d.flash.cells := c } := by
  induction l with
  | nil => exact fun a w => ⟨w.d.flash.cells, rfl⟩
  | cons v l ih =>
    intro a w
    obtain ⟨c, h⟩ := ih (a + 1) (flashPut a v w)
    exact ⟨c, h⟩

/-- The next record's number, and the mirror's words as they are now. -/
def seqNext (w : Work) : Work := { w with d.age.seq := w.d.age.seq + 1 }
def mirrored (w : Work) : Work := wrs w.d.age.base (ageSummary w) w

/-- A record goes to its place in flash, and the next place is the one after it. -/
def recordFiled (ws : List Word) (w : Work) : Work :=
  let p := w.d.age.place % 1920
  let u := if p % 128 == 0 then flashErase (recordAddr p) w else w
  let u := flashPuts (recordAddr p) (wordBytes5 (ws ++ [wd (fcs (wordBytes5 ws))])) u
  { u with d.age.place := (p + 1) % 1920 }

theorem ageAppend_eq (w : Work) : ageAppend w = recordFiled (ageSummary (seqNext w)) (mirrored (seqNext w)) := by
  unfold ageAppend recordFiled mirrored seqNext
  rfl

theorem recordFiled_frame (ws : List Word) (w : Work) :
    ∃ c, recordFiled ws w = { w with d.flash.cells := c, d.age.place := (w.d.age.place % 1920 + 1) % 1920 } := by
  unfold recordFiled
  extract_lets p u x
  have hu : ∃ c, u = { w with d.flash.cells := c } := by
    simp only [u]
    split
    · exact ⟨_, rfl⟩
    · exact ⟨w.d.flash.cells, rfl⟩
  obtain ⟨c, hu⟩ := hu
  obtain ⟨c', hx⟩ := flashPuts_frame (wordBytes5 (ws ++ [wd (fcs (wordBytes5 ws))])) (recordAddr p) u
  have hx : x = { w with d.flash.cells := c' } := by
    show flashPuts _ _ u = _
    rw [hx, hu]
  clear_value x
  subst hx
  exact ⟨c', rfl⟩

/-- Appending a record puts the summary in the mirror and moves on to the next place. -/
theorem ageAppend_leaves (w : Work) : (ageAppend w).d.age = { w.d.age with
      seq := w.d.age.seq + 1, place := (w.d.age.place % 1920 + 1) % 1920 }
    ∧ (ageAppend w).base = w.base ∧ ∀ a, rd a (ageAppend w) = rd a (mirrored (seqNext w)) := by
  rw [ageAppend_eq]
  obtain ⟨_, h⟩ := recordFiled_frame (ageSummary (seqNext w)) (mirrored (seqNext w))
  rw [h]
  obtain ⟨_, _, _, hm⟩ := wrs_frame (ageSummary (seqNext w)) (seqNext w).d.age.base (seqNext w)
  have hm : mirrored (seqNext w) = _ := hm
  generalize mirrored (seqNext w) = v at hm
  refine ⟨?_, ?_, fun a => rfl⟩
  · rw [hm]; rfl
  · rw [hm]; rfl

/-- The mirror begins with the record's number and the operating time. -/
theorem rd_mirrored {w : Work} (hlo : 0x400000 ≤ w.d.age.base) (hhi : w.d.age.base + 64 ≤ 0x800000) (hg : w.d.boot.bgrp = 0xFF) :
    rd w.d.age.base (mirrored w) = w.d.age.seq ∧ rd (w.d.age.base + 1) (mirrored w) = w.d.age.secs := by
  obtain ⟨l, hl⟩ : ∃ l, ageSummary w = w.d.age.seq :: w.d.age.secs :: l := ⟨_, rfl⟩
  have hbank (k : Nat) (hk : k < 64) : isBank (w.d.age.base + k) = true :=
    Bool.and_eq_true_iff.2 ⟨decide_eq_true (show 0x400000 ≤ _ by omega), decide_eq_true (show _ < 0x800000 by omega)⟩
  unfold mirrored
  rw [hl, rd_wrs, rd_wrs, if_pos ⟨Nat.le_refl _, by simp, hbank 0 (by omega), groupOn_all hg _⟩,
    if_pos ⟨by omega, by simp, hbank 1 (by omega), groupOn_all hg _⟩, Nat.sub_self, Nat.add_sub_cancel_left]
  exact ⟨rfl, rfl⟩

theorem hourMarks_leaves (l : List Bool) (w : Work) : (each l hourMarks w).d.age = w.d.age ∧ (each l hourMarks w).base = w.base
    ∧ (each l hourMarks w).ops = w.ops := by
  refine each_keeps (P := fun v : Work => v.d.age = w.d.age ∧ v.base = w.base ∧ v.ops = w.ops) l (fun b _ v hv => ?_) ⟨rfl, rfl, rfl⟩
  exact hv

/-! The guard check. -/

/-- What the check notes of a ring whose guard suffices. -/
def guardNoted (b : Bool) (w : Work) : Work :=
  if b then { w with d.age.eSecB := 0, d.age.reqB := min 255 (cdiv (gReq w.d.age.eSecB) 4) }
  else { w with d.age.eSecA := 0, d.age.reqA := min 255 (cdiv (gReq w.d.age.eSecA) 4) }

theorem guardRing_suffices {b : Bool} {w : Work}
    (h : gReq (if b then w.d.age.eSecB else w.d.age.eSecA) ≤ 4 * (if b then w.d.age.guardB else w.d.age.guardA)) :
    guardRing b w = (none, guardNoted b w) := by
  unfold guardRing
  exact if_pos h |>.trans (by cases b <;> rfl)

theorem ringUsed_guardNoted (b c : Bool) (w : Work) : ringUsed c (guardNoted b w) = ringUsed c w := by
  cases b <;> rfl

theorem cdiv_gReq (e : Nat) : cdiv (gReq e) 4 = (24 + 2 * e + 3) / 4 := rfl

/-- The check where each ring in use has guard enough. -/
theorem guardCheck_suffices {w : Work} (hr : modeRuns w = true)
    (ha : ringUsed false w = true → gReq w.d.age.eSecA ≤ 4 * w.d.age.guardA)
    (hb : ringUsed true w = true → gReq w.d.age.eSecB ≤ 4 * w.d.age.guardB) :
    guardCheck w = when_ (ringUsed true w) (guardNoted true) (when_ (ringUsed false w) (guardNoted false) w) := by
  have hA : (if ringUsed false w then guardRing false w else (none, w)) = (none, when_ (ringUsed false w) (guardNoted false) w) := by
    split
    · rename_i h
      rw [guardRing_suffices (b := false) (w := w) (ha h), h]
      rfl
    · rename_i h
      rw [Bool.not_eq_true] at h
      rw [h]
      rfl
  have hfirst : ringUsed true (when_ (ringUsed false w) (guardNoted false) w) = ringUsed true w
      ∧ (when_ (ringUsed false w) (guardNoted false) w).d.age.eSecB = w.d.age.eSecB
      ∧ (when_ (ringUsed false w) (guardNoted false) w).d.age.guardB = w.d.age.guardB := by
    unfold when_
    split
    · exact ⟨rfl, rfl, rfl⟩
    · exact ⟨rfl, rfl, rfl⟩
  have hB (u : Work) (hu : ringUsed true u = ringUsed true w ∧ u.d.age.eSecB = w.d.age.eSecB ∧ u.d.age.guardB = w.d.age.guardB) :
      (if ringUsed true u then guardRing true u else (none, u)) = (none, when_ (ringUsed true w) (guardNoted true) u) := by
    obtain ⟨hu, he, hg⟩ := hu
    rw [hu]
    split
    · rename_i h
      have hs : gReq u.d.age.eSecB ≤ 4 * u.d.age.guardB := by rw [he, hg]; exact hb h
      rw [guardRing_suffices (b := true) (w := u) hs, h]
      rfl
    · rename_i h
      rw [Bool.not_eq_true] at h
      rw [h]
      rfl
  unfold guardCheck
  rw [if_neg (by simp [hr]), hA]
  dsimp only
  rw [hB _ hfirst]
  rfl

/-- A proposal on its way changes the pending proposal and who has acknowledged it alone. -/
theorem propose_leaves (p : Proposal) (w : Work) : (propose p w).d.trl.prop = some p ∧ (propose p w).d.age = w.d.age
    ∧ (propose p w).d.sys = w.d.sys ∧ (propose p w).ops = w.ops := by
  unfold propose
  refine each_keeps (P := fun v : Work => v.d.trl.prop = some p ∧ v.d.age = w.d.age ∧ v.d.sys = w.d.sys ∧ v.ops = w.ops) _
    (fun b _ v hv => ?_) ⟨rfl, rfl, rfl, rfl⟩
  exact hv

end Sys2Proof.Machine

namespace Sys2Proof.Claims

open Sys2Proof.Machine

section
variable {s : State} (hl : live s = true)
include hl

theorem ledgerHour_waits (cs : List Nat) (eyes : List (Bool × Nat × Bool × Nat × Nat)) (h : ¬ (s.dev.therm.state = .full
    ∧ (s.dev.sys.st = .commission ∨ s.dev.sys.st = .run ∨ s.dev.sys.st = .recovery))) :
    exec (.ledgerHour cs eyes) s = .next s := by
  refine run_unchanged (f := ledgerHour cs eyes) hl ?_
  rw [ledgerHour_eq]
  refine if_pos ?_
  simp only [background, begin_d, Bool.or_eq_true, Bool.not_eq_true', beq_eq_false_iff_ne, Bool.or_eq_false_iff]
  tauto

theorem ledgerHour_appends (cs : List Nat) (eyes : List (Bool × Nat × Bool × Nat × Nat)) (h : s.dev.therm.state = .full
    ∧ (s.dev.sys.st = .commission ∨ s.dev.sys.st = .run ∨ s.dev.sys.st = .recovery)) :
    Ends (.ledgerHour cs eyes) s fun t =>
      t.dev.age.seq = s.dev.age.seq + 1 ∧ t.dev.age.secs = s.dev.age.secs + 3600
        ∧ t.dev.age.place = (s.dev.age.place % 1920 + 1) % 1920
        ∧ (t.dev.age.hours.head?.map fun h => (h.rate, h.eA, h.eB))
            = some (s.dev.ptm.rate, s.dev.age.eHourA, s.dev.age.eHourB)
        ∧ t.dev.age.eHourA = 0 ∧ t.dev.age.eHourB = 0 ∧ t.dev.age.cerrHour = []
        ∧ (0x400000 ≤ s.dev.age.base → s.dev.age.base + 64 ≤ 0x800000 → s.dev.boot.bgrp = 0xFF →
            memRead t.mem s.dev.age.base = t.dev.age.seq ∧ memRead t.mem (s.dev.age.base + 1) = t.dev.age.secs) := by
  refine ends_run (f := ledgerHour cs eyes) rfl hl ?_
  rw [ledgerHour_eq, if_neg]
  case hnc =>
    obtain ⟨hf, hst⟩ := h
    obtain hst | hst | hst := hst <;> simp [background, hf, hst]
  have hview : hourView (ageEyes eyes (ageMonitors cs (begin_ s))) = hourView (begin_ s) :=
    (hourView_ageEyes eyes _).trans (hourView_ageMonitors cs _)
  generalize ageEyes eyes (ageMonitors cs (begin_ s)) = u at hview
  have hptm : u.d.ptm = s.dev.ptm := congrArg (·.1) hview
  have hboot : u.d.boot = s.dev.boot := congrArg (·.2.1) hview
  have hbase : u.base = s.mem := congrArg (·.2.2.1) hview
  have hseq : u.d.age.seq = s.dev.age.seq := congrArg (·.2.2.2.seq) hview
  have hsecs : u.d.age.secs = s.dev.age.secs := congrArg (·.2.2.2.secs) hview
  have hplace : u.d.age.place = s.dev.age.place := congrArg (·.2.2.2.place) hview
  have hA : u.d.age.eHourA = s.dev.age.eHourA := congrArg (·.2.2.2.eHourA) hview
  have hB : u.d.age.eHourB = s.dev.age.eHourB := congrArg (·.2.2.2.eHourB) hview
  have hat : u.d.age.base = s.dev.age.base := congrArg (·.2.2.2.base) hview
  obtain ⟨ybase, yboot, yseq, yplace, yat, ycerr⟩ := hourTaken_age u
  have ysecs := hourTaken_secs u
  have yhours := hourTaken_hours u
  generalize hourTaken u = y at ybase yboot yseq ysecs yplace yat ycerr yhours
  rw [hseq] at yseq
  rw [hsecs] at ysecs
  rw [hplace] at yplace
  rw [hat] at yat
  rw [hptm, hA, hB] at yhours
  obtain ⟨kage, kbase, krd⟩ := ageAppend_leaves y
  generalize ageAppend y = v at kage kbase krd
  obtain ⟨lage, lbase, lops⟩ := hourMarks_leaves (ringsUsed (hourBegun v)) (hourBegun v)
  generalize each (ringsUsed (hourBegun v)) hourMarks (hourBegun v) = x at lage lbase lops
  have hxage : x.d.age = { v.d.age with eHourA := 0, eHourB := 0 } := lage
  have hxrd (a : Nat) : memRead (commit s x).mem a = rd a (mirrored (seqNext y)) := by
    rw [memRead_commit s x (lbase.trans (kbase.trans (ybase.trans hbase))), ← krd]
    unfold rd
    rw [lops, lbase]
    rfl
  rw [commit_dev, hxage, kage, ← yseq, ← ysecs, ← yplace, ← yat]
  refine ⟨rfl, rfl, rfl, yhours, rfl, rfl, ycerr, fun hlo hhi hg => ?_⟩
  rw [hxrd, hxrd]
  exact rd_mirrored (w := seqNext y) hlo hhi (by rw [← hg, ← hboot, ← yboot]; rfl)

/-- The guard check where each ring in use has guard enough. -/
theorem guardCheck_next (hr : modeRuns (begin_ s) = true)
    (ha : ringUsed false (begin_ s) = true → 24 + 2 * s.dev.age.eSecA ≤ 4 * s.dev.age.guardA)
    (hb : ringUsed true (begin_ s) = true → 24 + 2 * s.dev.age.eSecB ≤ 4 * s.dev.age.guardB) :
    exec .guardCheck s = .next (withDev s { s.dev with age := { s.dev.age with
      eSecA := if ringUsed false (begin_ s) = true then 0 else s.dev.age.eSecA
      reqA := if ringUsed false (begin_ s) = true then min 255 ((24 + 2 * s.dev.age.eSecA + 3) / 4) else s.dev.age.reqA
      eSecB := if ringUsed true (begin_ s) = true then 0 else s.dev.age.eSecB
      reqB := if ringUsed true (begin_ s) = true then min 255 ((24 + 2 * s.dev.age.eSecB + 3) / 4)
        else s.dev.age.reqB } }) := by
  refine run_units (f := guardCheck) hl ?_
  rw [guardCheck_suffices hr ha hb]
  unfold when_ guardNoted
  simp only [cdiv_gReq]
  cases ringUsed false (begin_ s) <;> cases ringUsed true (begin_ s) <;> rfl

theorem reviseAgain_offers {g : Nat × Nat} (hg : s.dev.age.retry = some g) (hr : modeRuns (begin_ s) = true)
    (hp : s.dev.trl.prop = none) (hh : s.dev.trl.heal = none) : Ends .reviseAgain s fun t =>
      t.dev.trl.prop = some { mode := s.dev.sys.mode, n := cycleIn 8 s, revision := some g } ∧ t.dev.age.retry = none
        ∧ t.dev.sys = s.dev.sys ∧ SameMemory s t := by
  have h : reviseAgain (begin_ s) = propose { mode := s.dev.sys.mode, n := cycleIn 8 s, revision := some g }
      { begin_ s with d.age.retry := none } := by
    unfold reviseAgain proposeGuards
    simp only [begin_d, hg, hr, hp, hh]
    rfl
  refine ends_run (f := reviseAgain) rfl hl ?_
  rw [h]
  obtain ⟨kp, ka, ks, ko⟩ := propose_leaves { mode := s.dev.sys.mode, n := cycleIn 8 s, revision := some g }
    { begin_ s with d.age.retry := none }
  exact ⟨kp, congrArg AgeSt.retry ka, ks, sameMemory_commit ko⟩

theorem reviseAgain_keeps {g : Nat × Nat} (hg : s.dev.age.retry = some g) (hr : modeRuns (begin_ s) = true)
    (h : s.dev.trl.prop ≠ none ∨ s.dev.trl.heal ≠ none) : exec .reviseAgain s = .next s := by
  refine run_unchanged (f := reviseAgain) hl ?_
  have hpend : (s.dev.trl.prop.isSome || s.dev.trl.heal.isSome) = true := by
    rw [Bool.or_eq_true, Option.isSome_iff_ne_none, Option.isSome_iff_ne_none]
    exact h
  unfold reviseAgain proposeGuards
  simp only [begin_d, hg, hr, hpend, if_true]
  rw [← hg]
  rfl

end

end Sys2Proof.Claims

namespace Sys2Proof.Proofs

open Sys2Proof.Machine Sys2Proof.Claims

/-- Settles O33: the mirror's words move one by one, the hour leaves what its record says, and the check and the proposal of
a revision by their branches. -/
theorem ledgerAndGuards : Obligations.LedgerAndGuards := by
  unfold Obligations.LedgerAndGuards
  refine ⟨⟨fun v s hl => ⟨fun hst => ?_, fun hst => ageBaseWrite_ends hl v hst⟩, fun cs s hl =>
    ⟨fun h eyes => ledgerHour_waits hl cs eyes h, fun h eyes => ledgerHour_appends hl cs eyes h⟩⟩,
    fun s hl hr => guardCheck_next hl hr, fun g s hl hg hr =>
    ⟨fun hp hh => reviseAgain_offers hl hg hr hp hh, fun h => reviseAgain_keeps hl hg hr h⟩⟩
  exact run_unchanged (f := ageBaseWrite v) hl (if_pos (by simpa using hst))

end Sys2Proof.Proofs
end

section
/-! SUPPORT. The safety island: its outputs, a lock, and its commands on a variant without it (spec/14 R446 to R458, R473). -/

namespace Sys2Proof.Machine

open Sys2Proof.Claims

/-! When the island acts. -/

theorem hasHedge_iff {s : State} : hasHedge s.variant = true ↔ HasHedge s := by
  unfold HasHedge
  cases s.variant <;> simp [hasHedge]

theorem islandUp_iff {s : State} : hasHedge s.variant = true ∧ islandUp s.dev.hdg = true ↔ HedgeUp s := by
  rw [hasHedge_iff, islandUp, Bool.and_eq_true]
  rfl

theorem hedgeRuns_iff {s : State} : hedgeRuns (begin_ s) = true ↔ HedgeRuns s := by
  unfold hedgeRuns HedgeRuns
  rw [Bool.and_eq_true, Bool.and_eq_true, begin_d, ← islandUp_iff, bne_iff_ne]
  rfl

theorem hedgeRuns_of_not {s : State} (h : ¬ HasHedge s) : hedgeRuns (begin_ s) = false := by
  rw [← Bool.not_eq_true, hedgeRuns_iff]
  exact fun hr => h hr.1.1

/-- A meaning that leaves the working copy as it was. -/
theorem runAny_unchanged {f : Work → Work} {s : State} (h : f (begin_ s) = begin_ s) : runAny f s = .next s := by
  rw [runAny, h, commit_begin]

/-- The same of a meaning that needs the main device. -/
theorem run_still {f : Work → Work} {s : State} (h : f (begin_ s) = begin_ s) : run f s = .next s := by
  by_cases hl : live s = true
  · exact run_unchanged hl h
  · exact run_not_live f s (by simpa using hl)

/-! The outputs. -/

theorem islandState_open {h : HdgSt} : islandState h = .open_ ↔ h.pState = .open_ ∧ h.lState = .open_ := by
  unfold islandState
  cases h.pState <;> cases h.lState <;> decide

theorem islandState_locked {h : HdgSt} : islandState h = .locked ↔ h.pState = .locked ∨ h.lState = .locked := by
  unfold islandState
  cases h.pState <;> cases h.lState <;> decide

/-- Eight bits as a number. -/
theorem bits8_eq : ∀ b0 b1 b2 b3 b4 b5 b6 b7 : Bool, ∀ k : Fin 8,
    (BitVec.ofNat 8 ([putB 0 b0, putB 1 b1, putB 2 b2, putB 3 b3, putB 4 b4, putB 5 b5, putB 6 b6, putB 7 b7].sum)).getLsbD k
      = [b0, b1, b2, b3, b4, b5, b6, b7].getD k false := by decide

theorem getLsbD_bits8 (f : Nat → Bool) {k : Nat} (hk : k < 8) : (bits8 f).getLsbD k = f k := by
  have h := bits8_eq (f 0) (f 1) (f 2) (f 3) (f 4) (f 5) (f 6) (f 7) ⟨k, hk⟩
  refine Eq.trans h ?_
  have hk' : k = 0 ∨ k = 1 ∨ k = 2 ∨ k = 3 ∨ k = 4 ∨ k = 5 ∨ k = 6 ∨ k = 7 := by omega
  obtain rfl | rfl | rfl | rfl | rfl | rfl | rfl | rfl := hk' <;> rfl

theorem bits8_none {f : Nat → Bool} (h : ∀ k, f k = false) : bits8 f = 0 := by
  refine BitVec.eq_of_getLsbD_eq fun k hk => ?_
  rw [getLsbD_bits8 f hk, h]
  simp

theorem swPairs_eq (sw : Nat) : swPairs sw = Claims.pairsOf sw := by
  unfold swPairs Claims.pairsOf
  have h : sw / 16384 % 4 < 4 := Nat.mod_lt _ (by decide)
  show _ = [0, 2, 4, 8].getD (sw / 16384 % 4) 0
  generalize sw / 16384 % 4 = n at h
  obtain rfl | rfl | rfl | rfl : n = 0 ∨ n = 1 ∨ n = 2 ∨ n = 3 := by omega
  all_goals rfl

theorem mayHold_iff {h : HdgSt} : (holdBase h && conn0 h) = true ↔ MayHold h := by
  simp only [holdBase, holdOk, conn0, getConn, MayHold, conn, Bool.and_eq_true, decide_eq_true_eq, islandState_open,
    Bool.not_eq_true', Bool.or_eq_true, beq_iff_eq, and_assoc, or_assoc]

theorem testOff_iff {b : Nat} {h : HdgSt} : testOff false b h = true ↔ ¬ UnderTest b h := by
  unfold testOff UnderTest
  cases h.test with
  | none => simp
  | some t =>
    simp only [Bool.not_eq_true', Bool.and_eq_false_iff, beq_eq_false_iff_ne, Option.some.injEq]
    constructor
    · rintro hne ⟨x, rfl, hr, hi⟩
      exact hne.elim (fun h => h hr) fun h => h hi
    · intro hne
      by_contra hc
      rw [not_or, not_not, not_not] at hc
      exact hne ⟨t, rfl, hc.1, hc.2⟩

theorem brkPOn_iff {b : Nat} {h : HdgSt} : brkPOn b h = true ↔ HoldsP b h := by
  unfold brkPOn HoldsP
  rw [← mayHold_iff, ← testOff_iff, ← swPairs_eq]
  simp only [Bool.and_eq_true, decide_eq_true_eq]
  tauto

theorem stoAOn_iff {h : HdgSt} : stoAOn h = true ↔ MayHold h ∧ h.stoPermit = true := by
  rw [← mayHold_iff, ← Bool.and_eq_true]
  rfl

theorem holdL_iff {h : HdgSt} : holdL h = true ↔ MayHoldL h := by
  simp only [holdL, MayHoldL, Bool.and_eq_true, decide_eq_true_eq, islandState_open, Bool.not_eq_true', and_assoc]

/-- What the outputs follow, which setting them leaves. -/
theorem hOutputs_right (h : HdgSt) : OutputsRight (hOutputs h) := by
  refine ⟨fun b hb => ?_, fun b hb => ?_, ?_, ?_⟩
  · have hbit : (hOutputs h).brkP.getLsbD b = brkPOn b h := getLsbD_bits8 _ hb
    rw [hbit, brkPOn_iff]
    rfl
  · have hbit : (hOutputs h).brkL.getLsbD b = brkLOn b h := getLsbD_bits8 _ hb
    rw [hbit, brkLOn, ← swPairs_eq]
    simp only [Bool.and_eq_true, decide_eq_true_eq, holdL_iff, Bool.not_eq_true', and_assoc]
    rfl
  · exact stoAOn_iff
  · refine (Bool.and_eq_true _ _).to_iff.trans ?_
    rw [holdL_iff]
    rfl

/-- An island that does not hold has every output safe. -/
theorem hOutputs_safe {h : HdgSt} (hn : islandState h ≠ .open_) : (hOutputs h).brkP = 0 ∧ (hOutputs h).brkL = 0
    ∧ (hOutputs h).stoA = false ∧ (hOutputs h).stoB = false := by
  have hb : holdBase h = false := by simp [holdBase, hn]
  have hl : holdL h = false := by simp [holdL, hn]
  refine ⟨bits8_none fun b => ?_, bits8_none fun b => ?_, ?_, ?_⟩
  · simp [brkPOn, hb]
  · simp [brkLOn, hl]
  · show stoAOn h = false
    simp [stoAOn, hb]
  · show (holdL h && h.xSto) = false
    simp [hl]

theorem hedgeBecomes_outputs (g : HdgSt) (s : State) : HedgeBecomes g s (withHedge (hOutputs g) s) :=
  ⟨hOutputs g, rfl, hOutputs_right g, rfl⟩

/-! A lock. -/

/-- Whether a channel takes a fault: it is named, and is OPEN or the cause is permanent. -/
def takes (code : Nat) (named : Bool) (st : HState) : Bool := named && (decide (st = .open_) || code == 6 || code == 9)

/-- The fault of a channel that takes it, before the outputs follow. -/
def faulted (code idx : Nat) (p l : Bool) (h : HdgSt) : HdgSt :=
  { h with
    fLast := code, fIndex := idx, fTms := h.ms % 4194304
    pState := if p then .locked else h.pState
    lState := if l then .locked else h.lState
    permanent := h.permanent || code == 6 || code == 9
    propag := !(code != 8) && (islandState h != .locked || h.propag)
    fcode := if islandState h = .locked then h.fcode else code
    hlkP := h.hlkP && !(code != 8), hlkL := h.hlkL && !(code != 8), relCheck := false
    test := if code == 4 then none else h.test }

theorem hFault_eq {code idx : Nat} {who : Who} {h : HdgSt} {p l : Bool}
    (hp : p = takes code (who == .p || who == .both) h.pState) (hl : l = takes code (who == .l || who == .both) h.lState)
    (hpl : (p || l) = true) : hFault code idx who h = hOutputs (faulted code idx p l h) := by
  subst hp hl
  unfold hFault
  refine if_neg ?_
  change ¬ (!(takes code (who == .p || who == .both) h.pState || takes code (who == .l || who == .both) h.lState)) = true
  rw [hpl]
  decide

/-- What a lock tells, of the states and the lines it is compared with alone. -/
theorem locked_of {code idx : Nat} {p l : Bool} {g h k : HdgSt} (hk : h = hOutputs (faulted code idx p l k)) (hpl : (p || l) = true)
    (hp : k.pState = g.pState) (hl : k.lState = g.lState) (hlines : code = 8 → k.hlkP = g.hlkP ∧ k.hlkL = g.hlkL) :
    Locked code idx p l g h := by
  have hlock : islandState (faulted code idx p l k) ≠ .open_ := by
    rw [Ne, islandState_open]
    rintro ⟨h1, h2⟩
    simp only [faulted] at h1 h2
    cases p <;> cases l <;> simp_all
  obtain ⟨h1, h2, h3, h4⟩ := hOutputs_safe hlock
  subst hk
  refine ⟨?_, ?_, rfl, rfl, fun hnp hnl => ?_, fun hc => ?_, fun hc => ?_, h1, h2, h3, h4⟩
  · show (if p then _ else k.pState) = _
    rw [hp]
  · show (if l then _ else k.lState) = _
    rw [hl]
  · have hopen : ¬ islandState k = .locked := by
      rw [islandState_locked, hp, hl]
      tauto
    exact if_neg hopen
  · exact ⟨by simp [hOutputs, faulted, hc], by simp [hOutputs, faulted, hc]⟩
  · obtain ⟨e1, e2⟩ := hlines hc
    rw [← e1, ← e2]
    exact ⟨by simp [hOutputs, faulted, hc], by simp [hOutputs, faulted, hc]⟩

/-- A fault that a channel takes locks it. -/
theorem hFault_locks {code idx : Nat} {who : Who} {k : HdgSt} (p l : Bool) (g : HdgSt)
    (hp : p = takes code (who == .p || who == .both) k.pState) (hl : l = takes code (who == .l || who == .both) k.lState)
    (hpl : (p || l) = true) (hps : k.pState = g.pState) (hls : k.lState = g.lState)
    (hlines : code = 8 → k.hlkP = g.hlkP ∧ k.hlkL = g.hlkL) : Locked code idx p l g (hFault code idx who k) :=
  locked_of (hFault_eq hp hl hpl) hpl hps hls hlines

end Sys2Proof.Machine
end

section
/-! SUPPORT. Resets of the island, the switch readings and the self test (spec/14 R446, R451 to R454, Table 14.3). -/

namespace Sys2Proof.Machine

open Sys2Proof.Claims

theorem Mailed.hdg {w v : Work} (h : Mailed w v) : v.d.hdg = w.d.hdg := congrArg (·.d.hdg) h

/-- The mailbox resets of a MID leave the island. -/
theorem sideReset_hdg (mid : Nat) (w : Work) : (sideReset mid w).d.hdg = w.d.hdg := by
  unfold sideReset
  refine (mbxIrq_mailed _).hdg.trans ?_
  refine each_keeps (P := fun v : Work => v.d.hdg = w.d.hdg) _ (fun c _ v hv => ?_) rfl
  dsimp only
  split
  · exact (logEvent_records ..).hdg.trans hv
  · exact hv

/-- What an abort of a brake test leaves: the semaphores, the system registers, and the island's lines and switches. -/
theorem btAbort_leaves (w : Work) : (btAbort w).d.mem.sems = w.d.mem.sems ∧ (btAbort w).d.sys = w.d.sys
    ∧ (btAbort w).d.hdg.hrstN = w.d.hdg.hrstN ∧ (btAbort w).d.hdg.supply = w.d.hdg.supply := by
  unfold btAbort
  extract_lets dev d h w1
  split
  · exact ⟨rfl, rfl, rfl, rfl⟩
  · rename_i c a hcmd
    extract_lets w2 w3
    have h2 : w2.d.mem = w.d.mem ∧ w2.d.sys = w.d.sys ∧ w2.d.hdg = w1.d.hdg := ⟨rfl, rfl, rfl⟩
    have h3 : Records w2 w3 := logEvent_records ..
    have h1 : w1.d.hdg.hrstN = w.d.hdg.hrstN ∧ w1.d.hdg.supply = w.d.hdg.supply := ⟨rfl, rfl⟩
    clear_value w3 w2 w1
    have hend := report_records c { status := stOK, res := [2, wd dev] } { w3 with d.hdg.btCmd := none }
    have hhdg : (report c { status := stOK, res := [2, wd dev] } { w3 with d.hdg.btCmd := none }).d.hdg
        = { w3.d.hdg with btCmd := none } := congrArg (·.d.hdg) hend
    have h3hdg : w3.d.hdg = w2.d.hdg := congrArg (·.d.hdg) h3
    refine ⟨?_, ?_, ?_, ?_⟩
    · rw [hend.mem]
      show w3.d.mem.sems = _
      rw [h3.mem, h2.1]
    · exact hend.sys.trans (h3.sys.trans h2.2.1)
    · rw [hhdg, h3hdg, h2.2.2]
      exact h1.1
    · rw [hhdg, h3hdg, h2.2.2]
      exact h1.2

/-- The island in reset, as what it was leaves it. -/
def hedgeFresh (o : HdgSt) : HdgSt :=
  { hrstN := o.hrstN, supply := o.supply, si := o.si, hlkiP := o.hlkiP, hlkiL := o.hlkiL, ackN := o.ackN
    fromHedge := o.fromHedge, hbNext := o.hbNext }

/-- A brake test that SC0 has asked for ends at a reset. -/
def testEnded (w : Work) : Work := if w.d.hdg.btCmd.isSome then btAbort w else w

theorem hedgeReset_eq (f : HdgSt → HdgSt) (w : Work) : hedgeReset f w =
    sideReset 31 (semReleaseAll 31 { testEnded w with d.hdg := f (hedgeFresh (testEnded w).d.hdg) }) := rfl

theorem testEnded_leaves (w : Work) : (testEnded w).d.mem.sems = w.d.mem.sems ∧ (testEnded w).d.sys = w.d.sys
    ∧ (testEnded w).d.hdg.hrstN = w.d.hdg.hrstN ∧ (testEnded w).d.hdg.supply = w.d.hdg.supply := by
  unfold testEnded
  split
  · exact btAbort_leaves w
  · exact ⟨rfl, rfl, rfl, rfl⟩

/-- A reset of the island: its record is the fresh one, MID 31 holds no semaphore, and the device runs on. -/
theorem hedgeReset_leaves (f : HdgSt → HdgSt) (s : State) :
    (∃ o : HdgSt, o.hrstN = s.dev.hdg.hrstN ∧ o.supply = s.dev.hdg.supply
      ∧ (hedgeReset f (begin_ s)).d.hdg = f (hedgeFresh o))
    ∧ (∀ n, n < 64 → holder n (commit s (hedgeReset f (begin_ s)))
        = if holder n s = some 31 then none else holder n s)
    ∧ (hedgeReset f (begin_ s)).d.sys = s.dev.sys := by
  rw [hedgeReset_eq]
  obtain ⟨hsems, hsys, hrst, hsup⟩ := testEnded_leaves (begin_ s)
  generalize testEnded (begin_ s) = u at hsems hsys hrst hsup
  have hx : ({ u with d.hdg := f (hedgeFresh u.d.hdg) } : Work).d.mem.sems = s.dev.mem.sems
      ∧ ({ u with d.hdg := f (hedgeFresh u.d.hdg) } : Work).d.sys = s.dev.sys
      ∧ ({ u with d.hdg := f (hedgeFresh u.d.hdg) } : Work).d.hdg = f (hedgeFresh u.d.hdg) := ⟨hsems, hsys, rfl⟩
  generalize ({ u with d.hdg := f (hedgeFresh u.d.hdg) } : Work) = x at hx
  obtain ⟨xsems, xsys, xhdg⟩ := hx
  have k := sideReset_sideKept 31 (semReleaseAll 31 x)
  have hhdg := sideReset_hdg 31 (semReleaseAll 31 x)
  obtain ⟨sems, hs⟩ := semReleaseAll_frame 31 x
  have yhdg : (semReleaseAll 31 x).d.hdg = x.d.hdg := by rw [hs]
  have ysys : (semReleaseAll 31 x).d.sys = x.d.sys := by rw [hs]
  exact ⟨⟨u.d.hdg, hrst, hsup, hhdg.trans (yhdg.trans xhdg)⟩, fun n hn => holder_released hn xsems k.sems,
    k.sys.trans (ysys.trans xsys)⟩

end Sys2Proof.Machine

namespace Sys2Proof.Claims

open Sys2Proof.Machine

/-- A variant without the island ignores its commands. -/
theorem hedgeCommand_absent {c : Instr} {s : State} (hno : ¬ HasHedge s) (hc : hedgeCommand c = true) : exec c s = .next s := by
  have hh : hasHedge s.variant = false := by rwa [← Bool.not_eq_true, hasHedge_iff]
  have hv : hasHedge (begin_ s).variant = false := hh
  have hr : hedgeRuns (begin_ s) = false := hedgeRuns_of_not hno
  cases c with
  | hrstNLow => exact runAny_unchanged (if_neg (by simp [hh]))
  | hrstNRelease p l => exact runAny_unchanged (if_neg (by simp [hh]))
  | hedgeSupplyFault => exact runAny_unchanged (if_neg (by simp [hh]))
  | hedgeSupplyRestored p l => exact runAny_unchanged (if_neg (by simp [hh]))
  | selfTestDone p l => exact runAny_unchanged (if_pos (by simp [hh]))
  | crossLinkWord ok => exact runAny_unchanged (if_pos (by simp [hh]))
  | crossLinkLoss => exact runAny_unchanged (if_pos (by simp [hh]))
  | hb => exact run_still (if_pos (by simp [hh]))
  | heartbeatTimeout => exact runAny_unchanged (if_pos (by simp [hh]))
  | testPulseFrame => exact runAny_unchanged (if_pos (by simp [hr]))
  | pulseCheckSample k n b d a => exact runAny_unchanged (if_pos (by simp [hr]))
  | discrepancyTimeout i => exact runAny_unchanged (if_neg (by simp [hr]))
  | hlkiLow => exact runAny_unchanged (if_pos (by simp [hr]))
  | blackChannelSend c => exact runAny_unchanged (if_pos (by simp [hr]))
  | blackChannelFrame c ws => exact runAny_unchanged (if_pos (by simp [hr]))
  | connectionTimeout c => exact runAny_unchanged (if_pos (by simp [hr]))
  | btest => exact runAny_unchanged (if_neg (by simp [hr]))
  | engageTimeEnd =>
    refine runAny_unchanged ?_
    unfold engageEnd
    split
    · exact if_pos (by simp [hr])
    · rfl
  | holdWindowEnd =>
    refine runAny_unchanged ?_
    unfold holdEnd
    split
    · exact if_pos (by simp [hr])
    · rfl
  | brakeTestEnd =>
    refine runAny_unchanged ?_
    unfold brakeEnd
    split
    · exact if_pos (by simp [hr])
    · rfl
  | brakeDue r k => exact runAny_unchanged (if_pos (by simp [hr]))
  | brakeOverdue r k => exact runAny_unchanged (if_neg (by simp [hr]))
  | hedgeLOverdue k => exact runAny_unchanged (if_neg (by simp [hr]))
  | safeAckNRise p l b => exact runAny_unchanged (if_pos (by simp [hr]))
  | hlkiCheck p l => exact runAny_unchanged (if_pos (by simp [hr]))
  | holdsBlockedEnd => exact runAny_unchanged (if_neg (by simp [hh]))
  | tko m => exact run_still (if_pos (by simp [hh]))
  | _ => cases hc

/-- A reset of the island by its reset line or its supply. -/
theorem hedgeReset_ends {c : Instr} {s : State} (hh : HasHedge s) (hc : c = .hrstNLow ∨ c = .hedgeSupplyFault) :
    Ends c s fun t =>
      let h := t.dev.hdg
      h.pState = .init ∧ h.lState = .init ∧ h.brkP = 0 ∧ h.brkL = 0 ∧ h.stoA = false ∧ h.stoB = false
        ∧ h.hlkP = false ∧ h.hlkL = false
        ∧ h.conns = [] ∧ h.test = none ∧ h.hrstN = (decide (c ≠ .hrstNLow) && s.dev.hdg.hrstN)
        ∧ h.supply = (decide (c = .hrstNLow) && s.dev.hdg.supply)
        ∧ (∀ n, n < 64 → holder n t = (if holder n s = some 31 then none else holder n s)) ∧ t.dev.sys = s.dev.sys := by
  have hv : hasHedge (begin_ s).variant = true := hasHedge_iff.2 hh
  obtain rfl | rfl := hc
  · obtain ⟨⟨o, hrst, hsup, ho⟩, hsem, hsys⟩ := hedgeReset_leaves (fun h => { h with hrstN := false }) s
    refine ends_runAny (f := hrstLow) rfl ?_
    rw [hrstLow, if_pos hv]
    generalize hedgeReset (fun h => { h with hrstN := false }) (begin_ s) = u at ho hsem hsys
    dsimp only
    rw [commit_dev, ho]
    exact ⟨rfl, rfl, rfl, rfl, rfl, rfl, rfl, rfl, rfl, rfl, by simp, by simp [hedgeFresh, hsup], hsem, hsys⟩
  · obtain ⟨⟨o, hrst, hsup, ho⟩, hsem, hsys⟩ := hedgeReset_leaves (fun h => { h with supply := false }) s
    refine ends_runAny (f := supplyFault) rfl ?_
    rw [supplyFault, if_pos hv]
    generalize hedgeReset (fun h => { h with supply := false }) (begin_ s) = u at ho hsem hsys
    dsimp only
    rw [commit_dev, ho]
    exact ⟨rfl, rfl, rfl, rfl, rfl, rfl, rfl, rfl, rfl, rfl, by simp [hedgeFresh, hrst], by simp, hsem, hsys⟩

/-- The switches as the island reads them when it leaves reset. -/
theorem readSwitches_ends {c : Instr} {p l : Fin 65536} {s : State} {f : Work → Work} {g : HdgSt} (hc : exec c s = runAny f s)
    (hf : f (begin_ s) = setHg (readSwitches p l g) (begin_ s)) (hup : islandUp g = true)
    (hg : g = { s.dev.hdg with hrstN := true, supply := true }) :
    (p = l → exec c s = .next (withHedge { s.dev.hdg with hrstN := true, supply := true, swP := p, swL := l } s))
    ∧ (p ≠ l → Ends c s fun t => Locked 6 0 true true s.dev.hdg t.dev.hdg ∧ t.dev.hdg.permanent = true
        ∧ t = withHedge t.dev.hdg s) := by
  constructor
  · rintro rfl
    refine hc.trans (runAny_units (hf.trans ?_))
    have hsw : readSwitches p p g = { s.dev.hdg with hrstN := true, supply := true, swP := p, swL := p } := by
      rw [hg]
      exact if_neg (by simp)
    rw [hsw]
    rfl
  · intro hne
    have hval : p.val ≠ l.val := fun h => hne (Fin.ext h)
    refine ends_runAny hc ?_
    have hsw : readSwitches p l g = hFault 6 0 .both { g with swP := p, swL := l } := by
      have hup' : islandUp { g with swP := p.val, swL := l.val } = true := hup
      exact if_pos (by simp [hup', hval])
    have heq := hFault_eq (code := 6) (idx := 0) (who := .both) (h := { g with swP := p.val, swL := l.val }) (p := true) (l := true)
      (by simp [takes]) (by simp [takes]) rfl
    rw [hf, hsw]
    refine ⟨hFault_locks true true s.dev.hdg (by simp [takes]) (by simp [takes]) rfl ?_ ?_ (by simp), ?_, rfl⟩
    · rw [hg]
    · rw [hg]
    · show (hFault 6 0 .both { g with swP := p.val, swL := l.val }).permanent = true
      rw [heq]
      simp [hOutputs, faulted]

/-- The island after a self test: the channels that passed are OPEN. -/
def opened (okP okL : Bool) (h : HdgSt) : HdgSt :=
  let h := if okP then hOpenP h else h
  if okL then hOpenL h else h

theorem opened_states (okP okL : Bool) (h : HdgSt) : (opened okP okL h).pState = (if okP then .open_ else h.pState)
    ∧ (opened okP okL h).lState = (if okL then .open_ else h.lState) := by
  cases okP <;> cases okL <;> exact ⟨rfl, rfl⟩

/-- The self tests of both channels. -/
theorem selfTest_ends {s : State} (hup : HedgeUp s) (okP okL : Bool) :
    (¬ (s.dev.hdg.pState = .init ∧ s.dev.hdg.lState = .init) → exec (.selfTestDone okP okL) s = .next s)
    ∧ (s.dev.hdg.pState = .init → s.dev.hdg.lState = .init → Ends (.selfTestDone okP okL) s fun t =>
      let h := t.dev.hdg
      t = withHedge h s
        ∧ h.pState = (if okP then .open_ else .locked) ∧ h.lState = (if okL then .open_ else .locked)
        ∧ (okP = true → okL = true → OutputsRight h ∧ h.hlkP = true ∧ h.hlkL = true ∧ h.lOverdue = 0
            ∧ ∀ b, b < 8 → (h.due.getLsbD b = true ↔ b < Claims.pairsOf h.swP))
        ∧ (okP = false ∨ okL = false → h.permanent = true ∧ h.fcode = 9 ∧ h.brkP = 0 ∧ h.stoA = false)) := by
  obtain ⟨hhas, hisl⟩ := islandUp_iff.2 hup
  constructor
  · intro hn
    refine runAny_unchanged (f := selfTest okP okL) (if_pos ?_)
    simp only [begin_d, Bool.or_eq_true, bne_iff_ne]
    tauto
  · intro hp hl
    refine ends_runAny (f := selfTest okP okL) rfl ?_
    have hrun : selfTest okP okL (begin_ s) = if okP && okL then setHg (hOutputs (opened okP okL s.dev.hdg)) (begin_ s)
        else setHg (hFault 9 0 (if okP then .l else if okL then .p else .both) (opened okP okL s.dev.hdg)) (begin_ s) :=
      if_neg (by simp [hhas, hisl, hp, hl])
    rw [hrun]
    obtain ⟨ep, el⟩ := opened_states okP okL s.dev.hdg
    by_cases hok : okP = true ∧ okL = true
    · obtain ⟨rfl, rfl⟩ := hok
      refine ⟨rfl, rfl, rfl, fun _ _ => ⟨hOutputs_right _, rfl, rfl, rfl, fun b hb => ?_⟩, fun h => by simp at h⟩
      rw [← swPairs_eq]
      refine .trans (iff_of_eq (congrArg (· = true) (getLsbD_bits8 (fun b => decide (b < swPairs s.dev.hdg.swP)) hb))) ?_
      exact decide_eq_true_iff
    · have hfail : (okP && okL) = false := by simpa using hok
      rw [if_neg (by simp [hfail])]
      have hin : islandState (opened okP okL s.dev.hdg) ≠ .locked := by
        rw [Ne, islandState_locked, ep, el, hp, hl]
        cases okP <;> cases okL <;> decide
      have heq : hFault 9 0 (if okP then .l else if okL then .p else .both) (opened okP okL s.dev.hdg)
          = hOutputs (faulted 9 0 (!okP) (!okL) (opened okP okL s.dev.hdg)) := by
        refine hFault_eq ?_ ?_ ?_ <;> cases okP <;> cases okL <;> simp_all [takes]
      have hlock := locked_of (g := opened okP okL s.dev.hdg) heq (by cases okP <;> cases okL <;> simp_all) rfl rfl
        (fun h => absurd h (by decide))
      rw [heq] at hlock ⊢
      obtain ⟨lp, ll, -, -, -, -, -, lb, -, la, -⟩ := hlock
      refine ⟨rfl, ?_, ?_, fun h1 h2 => absurd ⟨h1, h2⟩ hok, fun _ => ⟨?_, ?_, lb, la⟩⟩
      · refine lp.trans ?_
        rw [ep]
        cases okP <;> rfl
      · refine ll.trans ?_
        rw [el]
        cases okL <;> rfl
      · show (faulted 9 0 (!okP) (!okL) (opened okP okL s.dev.hdg)).permanent = true
        simp [faulted]
      · exact if_neg hin

end Sys2Proof.Claims

namespace Sys2Proof.Proofs

open Sys2Proof.Machine Sys2Proof.Claims

/-- Settles O55: the island's commands where it is absent, its resets, its switches and its self test. -/
theorem hedgeResetAndStart : Obligations.HedgeResetAndStart := by
  unfold Obligations.HedgeResetAndStart
  refine ⟨fun c s => hedgeCommand_absent, fun c s => hedgeReset_ends, fun c p l s hh hc => ?_,
    fun okP okL s hup => selfTest_ends hup okP okL⟩
  obtain ⟨rfl, hr, hs⟩ | ⟨rfl, hr, hs⟩ := hc
  · refine readSwitches_ends (f := hrstRelease p l) (g := { s.dev.hdg with hrstN := true }) rfl ?_ ?_ ?_
    · exact if_pos (by simp [hasHedge_iff.2 hh, hr])
    · simp [islandUp, hs]
    · rw [← hs]
  · refine readSwitches_ends (f := supplyBack p l) (g := { s.dev.hdg with supply := true }) rfl ?_ ?_ ?_
    · exact if_pos (by simp [hasHedge_iff.2 hh, hs])
    · simp [islandUp, hr]
    · rw [← hr]

end Sys2Proof.Proofs
end

section
/-! SUPPORT. Messages between units of the device, and what Hedge-P makes of those of channel 15 (spec/17 R537 to R540, spec/14
R450, R459, R479). -/

namespace Sys2Proof.Machine

open Sys2Proof.Claims

/-! A message of a unit. -/

/-- The messages that a side has queued. -/
def queueOf (b : Bool) (c : Nat) (w : Work) : List (List Word) := (side b (getChan c w)).queue

/-- The staging words of a message. -/
def staged (b : Bool) (c : Nat) (ws : List Word) (w : Work) : Work :=
  setChan c (setSide b { side b (getChan c w) with sd := ws ++ (side b (getChan c w)).sd.drop ws.length } (getChan c w)) w

theorem sideOf_setSide (m : Nat) (b : Bool) (y : MbxSide) (x : MbxChan) : sideOf m (setSide b y x) = sideOf m x := by
  cases b <;> rfl

section
variable {mid c : Nat} {b : Bool} {w : Work}

/-- One side of the channel, and with it the sides of all MIDs, as a message passes. -/
theorem mbxPut_leaves (h : sideOf mid (getChan c w) = some b) {ws : List Word} (h0 : ws ≠ []) (h8 : ws.length ≤ 8)
    (hq : queueOf b c w = []) : Mailed w (mbxPut mid c ws w) ∧ queueOf b c (mbxPut mid c ws w) = [ws]
      ∧ queueOf (!b) c (mbxPut mid c ws w) = queueOf (!b) c w
      ∧ ∀ m, sideOf m (getChan c (mbxPut mid c ws w)) = sideOf m (getChan c w) := by
  have hput : mbxPut mid c ws w = mbxQueue b c ws.length (staged b c ws (accessed c w)) := by
    unfold mbxPut
    rw [mbxAccess_side h]
    rfl
  have hne : ¬ (ws.length = 0 ∨ 8 < ws.length) := by simp [h0]; omega
  have hstaged : getChan c (staged b c ws (accessed c w)) = setSide b { side b (getChan c w) with
      sd := ws ++ (side b (getChan c w)).sd.drop ws.length } (getChan c (accessed c w)) := by
    rw [staged, getChan_setChan_same, side_accessed]
  have hsent : sentSide ws.length { side b (getChan c w) with sd := ws ++ (side b (getChan c w)).sd.drop ws.length }
      = { side b (getChan c w) with sd := ws ++ (side b (getChan c w)).sd.drop ws.length, queue := [ws], lostRun := false } := by
    have hq' : (side b (getChan c w)).queue = [] := hq
    rw [sentSide_fits hne (by rw [hq']; simpa [queueWords] using h8), hq']
    simp
  have hacc (m : Nat) : sideOf m (getChan c (accessed c w)) = sideOf m (getChan c w) := by
    rw [getChan_accessed, if_pos rfl]
    rfl
  rw [hput]
  refine ⟨?_, ?_, ?_, fun m => ?_⟩
  · rw [mbxQueue_fits hne]
    · exact ((accessed_mailed c w).trans (setChan_mailed ..)).trans ((setChan_mailed ..).trans (mbxIrq_mailed _))
    · rw [hstaged, side_setSide, show (side b (getChan c w)).queue = [] from hq]
      simpa [queueWords] using h8
  · rw [queueOf, getChan_mbxQueue, if_pos rfl, hstaged, side_setSide, side_setSide, hsent]
  · rw [queueOf, getChan_mbxQueue, if_pos rfl, side_setSide_not, hstaged, side_setSide_not, side_accessed]
    rfl
  · rw [getChan_mbxQueue, if_pos rfl, sideOf_setSide, hstaged, sideOf_setSide, hacc]

theorem mbxTake_side (h : sideOf mid (getChan c w) = some b) :
    mbxTake mid c w = ((queueOf (!b) c w).head?, mbxDrop b c w) := by
  have hhead : mbxHead mid c w = (queueOf (!b) c w).head? := by
    unfold mbxHead
    dsimp only
    rw [h]
    rfl
  unfold mbxTake
  rw [h, ← hhead]

theorem mbxDrop_leaves (b : Bool) (c : Nat) (w : Work) : Mailed w (mbxDrop b c w)
    ∧ queueOf (!b) c (mbxDrop b c w) = (queueOf (!b) c w).tail ∧ queueOf b c (mbxDrop b c w) = queueOf b c w
    ∧ ∀ m, sideOf m (getChan c (mbxDrop b c w)) = sideOf m (getChan c w) := by
  refine ⟨mbxDrop_mailed b c w, ?_, ?_, fun m => ?_⟩
  · rw [queueOf, getChan_mbxDrop, if_pos rfl, side_setSide]
    rfl
  · rw [queueOf, getChan_mbxDrop, if_pos rfl]
    cases b <;> rfl
  · rw [getChan_mbxDrop, if_pos rfl, sideOf_setSide]

end

/-! Hedge-P's messages. -/

/-- What Hedge-P makes of a message of channel 15. -/
def hedgeTakes (ws : List Word) (w : Work) : Work :=
  match fld (nth 0 ws 0) 32 4 with
  | 1 =>
    let w := setHg (hbTake ws w.d.hdg) w
    if w.d.hdg.test.isSome && !holdOk w.d.hdg then btAbort w else w
  | 2 => setHg (btTake (nth 0 ws 1) ((connOfAxis (fld (nth 0 ws 1) 0 8) w).getD 0) w.d.hdg) w
  | 4 => setHg (tkoTake ws w.d.hdg) w
  | _ => w

theorem hedgeDrain_none {n : Nat} {b : Bool} {w : Work} (h : sideOf 31 (getChan 15 w) = some b) (hq : queueOf (!b) 15 w = []) :
    Mailed w (hedgeDrain n w) ∧ queueOf (!b) 15 (hedgeDrain n w) = [] := by
  cases n with
  | zero => exact ⟨.refl w, hq⟩
  | succ n =>
    obtain ⟨hm, hd, -⟩ := mbxDrop_leaves b 15 w
    have heq : hedgeDrain (n + 1) w = mbxDrop b 15 w := by
      rw [hedgeDrain, mbxTake_side h, hq]
      rfl
    rw [heq]
    exact ⟨hm, hd.trans (by rw [hq]; rfl)⟩

theorem hedgeDrain_one {n : Nat} {b : Bool} {w : Work} {ws : List Word} (h : sideOf 31 (getChan 15 w) = some b)
    (hq : queueOf (!b) 15 w = [ws]) : hedgeDrain (n + 1) w = hedgeDrain n (hedgeTakes ws (mbxDrop b 15 w)) := by
  rw [hedgeDrain, mbxTake_side h, hq]
  rfl

/-- Hedge-P hears one message, and then its queue is empty. -/
theorem hedgeHear_one {b : Bool} {w : Work} {ws : List Word} {h : HdgSt} (hr : hedgeRuns w = true)
    (hs : sideOf 31 (getChan 15 w) = some b) (hq : queueOf (!b) 15 w = [ws])
    (ht : ∀ u, Mailed w u → hedgeTakes ws u = setHg h u) :
    Mailed (setHg h w) (hedgeHear w) ∧ queueOf (!b) 15 (hedgeHear w) = [] := by
  obtain ⟨hm, hd, -, hside⟩ := mbxDrop_leaves b 15 w
  rw [hq] at hd
  have hheard : hedgeHear w = hedgeDrain 7 (setHg h (mbxDrop b 15 w)) := by
    rw [hedgeHear, if_pos hr, hedgeDrain_one (n := 7) hs hq, ht _ hm]
  rw [hheard]
  generalize mbxDrop b 15 w = u at hm hd hside
  have hset : Mailed (setHg h w) (setHg h u) := by
    rw [Mailed] at hm ⊢
    rw [hm]
    rfl
  obtain ⟨km, kq⟩ := hedgeDrain_none (n := 7) (b := b) (w := setHg h u) ((hside 31).trans hs) hd
  exact ⟨hset.trans km, kq⟩

end Sys2Proof.Machine
end

section
/-! SUPPORT. The grafted sequence numbers: a device on which the statement's reading of a connection's number fails. -/

namespace Sys2Proof.Claims

open Sys2Proof.Machine

/-- A running device with the island OPEN, channel 15 bound to SC0 and Hedge-P, and 64 grafted sequence numbers of 0. -/
def seqDevice : State :=
  { State.reset with dev := { State.reset.dev with
      boot := { State.reset.dev.boot with start := .done }
      hdg := { State.reset.dev.hdg with hrstN := true, supply := true, pState := .open_ }
      mbx := { State.reset.dev.mbx with chans := [(15, { valid := true, midA := 2, midB := 31 })] }
      grf := { State.reset.dev.grf with hedge := List.replicate 64 0 } } }

theorem seqDevice_runs : live seqDevice = true ∧ HedgeRuns seqDevice ∧ Channel15 true seqDevice
    ∧ queued false 15 seqDevice = [] ∧ seqDevice.dev.grf.hedge.length = 64 := by
  unfold HedgeRuns HedgeUp HasHedge Channel15 SideIs
  decide

/-- Message 3 names connections 21 to 27, so that connection 1 still has its number 0. -/
theorem seqDevice_tko : (match exec (.tko 3) seqDevice with
    | .next t => (conn 1 t.dev.hdg).nextTx
    | _ => 2) = 0 := by decide

end Sys2Proof.Claims

namespace Sys2Proof.Proofs

open Sys2Proof.Machine Sys2Proof.Claims

/-- Refutes O56: in its last clause c and 7 m are numbers modulo 10 (m is a `Fin 10`), so that for m = 3 it has connection 1 take
the sequence numbers, although the message names connections 21 to 27 and connection 1 keeps its own. -/
theorem not_hedgeLinks : ¬ Obligations.HedgeLinks := by
  unfold Obligations.HedgeLinks
  rintro ⟨-, -, -, -, -, htko⟩
  obtain ⟨hl, hr, hc, hq, hlen⟩ := seqDevice_runs
  obtain ⟨t, ht, hconn⟩ := htko 3 true seqDevice hl hr hc hq hlen
  have htaken := ((hconn 1 (by decide)).1 (by decide)).1
  have hkept := seqDevice_tko
  rw [ht] at hkept
  exact absurd (hkept.symm.trans htaken) (by decide)

end Sys2Proof.Proofs
end

section
/-! SUPPORT. Safe inputs, faults and the lock release (spec/14 R461, R473, R475, R476). -/

namespace Sys2Proof.Claims

open Sys2Proof.Machine

section
variable {s : State} (hr : HedgeRuns s)
include hr

/-- A command of the running island that changes its record alone. -/
theorem ends_hedge {c : Instr} {f : Work → Work} {h : HdgSt} {P : State → Prop} (hc : exec c s = runAny f s)
    (hf : hedgeRuns (begin_ s) = true → f (begin_ s) = setHg h (begin_ s)) (hp : P (withHedge h s)) : Ends c s P :=
  ends_runAny hc (by rw [hf (hedgeRuns_iff.2 hr)]; exact hp)

theorem hedge_next {c : Instr} {f : Work → Work} {h : HdgSt} (hc : exec c s = runAny f s)
    (hf : hedgeRuns (begin_ s) = true → f (begin_ s) = setHg h (begin_ s)) : exec c s = .next (withHedge h s) :=
  hc.trans (runAny_units (hf (hedgeRuns_iff.2 hr)))

theorem testPulseFrame_next : exec .testPulseFrame s
    = .next (withHedge { s.dev.hdg with pulsePrev := s.dev.hdg.pulseNow, pulseNow := [] } s) :=
  hedge_next hr (f := pulseFrame) rfl fun hrun => if_neg (by simp [hrun])

end

/-! Test pulses. -/

/-- A sample's level, where it agrees before and after the pulse. -/
def sampled (n : Nat) (b a : Bool) (h : HdgSt) : HdgSt := if b == a then { h with si := bvPut n b h.si } else h

theorem sampled_eq (n : Nat) (b a : Bool) (h : HdgSt) : sampled n b a h = { h with si := (sampled n b a h).si } := by
  unfold sampled
  split
  · rfl
  · rfl

theorem sampled_level {n : Nat} (hn : n < 16) (b a : Bool) (h : HdgSt) (j : Nat) :
    (sampled n b a h).si.getLsbD j = if j = n ∧ b = a then b else h.si.getLsbD j := by
  unfold sampled
  by_cases hba : b = a
  · rw [if_pos (by simpa using hba)]
    simp only [hba, and_true]
    exact getLsbD_bvPut n j a h.si hn
  · rw [if_neg (by simpa using hba), if_neg (fun h => hba h.2)]

/-- A pulse not seen, or seen where it does not belong: the key under which it is noted. -/
def pulseKey (k n : Nat) (b d a : Bool) : Option Nat :=
  if n % 4 == k then (if b && d && a then some (5 * n) else none)
  else (if b && !d && a then some (5 * n + 1 + k) else none)

/-- The pulse noted, and its fault where the frame before has it too. -/
def pulseFound (k n j : Nat) (h : HdgSt) : HdgSt :=
  if tabGet 0 h.pulsePrev j == 1 then
    hFault (if n % 4 == k then 2 else 3) n .both { h with
      pulseNow := tabSet 0 h.pulseNow j 1, siFault := bvPut n true h.siFault }
  else { h with pulseNow := tabSet 0 h.pulseNow j 1 }

/-- The island after a sample. -/
def pulseSampled (k n : Nat) (b d a : Bool) (h : HdgSt) : HdgSt :=
  match pulseKey k n b d a with
  | none => sampled n b a h
  | some j => pulseFound k n j (sampled n b a h)

theorem pulseSample_eq {k n : Nat} {b d a : Bool} {w : Work} (hr : hedgeRuns w = true) :
    pulseSample k n b d a w = setHg (pulseSampled k n b d a w.d.hdg) w := by
  unfold pulseSample pulseSampled
  rw [if_neg (by simp [hr])]
  show (match pulseKey k n b d a with
    | none => setHg (sampled n b a w.d.hdg) w
    | some j => if tabGet 0 (sampled n b a w.d.hdg).pulsePrev j == 1 then _ else _) = _
  cases pulseKey k n b d a with
  | none => rfl
  | some j =>
    unfold pulseFound
    dsimp only
    split
    · rfl
    · rfl

/-- A pulse found: it is noted, and what else it does. -/
theorem pulseFound_leaves (k n j : Nat) (hn : n < 16) (h : HdgSt) : (pulseFound k n j h).si = h.si
    ∧ tabGet 0 (pulseFound k n j h).pulseNow j = 1
    ∧ (tabGet 0 h.pulsePrev j ≠ 1 → pulseFound k n j h = { h with pulseNow := (pulseFound k n j h).pulseNow })
    ∧ (tabGet 0 h.pulsePrev j = 1 → BothOpen h → (pulseFound k n j h).siFault.getLsbD n = true
        ∧ ∀ g : HdgSt, h.pState = g.pState → h.lState = g.lState →
          Locked (if n % 4 = k then 2 else 3) n true true g (pulseFound k n j h)) := by
  have hset : tabGet 0 (tabSet 0 h.pulseNow j 1) j = 1 := tabGet_tabSet_same 0 h.pulseNow j 1
  by_cases htwice : tabGet 0 h.pulsePrev j = 1
  · have hfound : pulseFound k n j h = hFault (if n % 4 = k then 2 else 3) n .both { h with
        pulseNow := tabSet 0 h.pulseNow j 1, siFault := bvPut n true h.siFault } := by
      rw [pulseFound, if_pos (by simpa using htwice)]
      simp only [beq_iff_eq]
    have hcode : (if n % 4 = k then 2 else 3) = 2 ∨ (if n % 4 = k then 2 else 3) = 3 := by split <;> simp
    generalize (if n % 4 = k then 2 else 3) = code at hfound hcode
    rw [hfound]
    refine ⟨?_, ?_, fun hne => absurd htwice hne, fun _ hopen => ⟨?_, fun g hp hl => ?_⟩⟩
    · unfold hFault
      dsimp only
      split
      · split <;> rfl
      · rfl
    · refine Eq.trans (congrArg (tabGet 0 · j) ?_) hset
      unfold hFault
      dsimp only
      split
      · split <;> rfl
      · rfl
    · have heq := hFault_eq (code := code) (idx := n) (who := .both) (p := true) (l := true)
        (h := { h with pulseNow := tabSet 0 h.pulseNow j 1, siFault := bvPut n true h.siFault })
        (by simp [takes, hopen.1]) (by simp [takes, hopen.2]) rfl
      rw [heq]
      exact (getLsbD_bvPut n n true h.siFault hn).trans (if_pos rfl)
    · refine hFault_locks true true g (by simp [takes, hopen.1]) (by simp [takes, hopen.2]) rfl hp hl fun h8 => ?_
      omega
  · have hfound : pulseFound k n j h = { h with pulseNow := tabSet 0 h.pulseNow j 1 } :=
      if_neg (by simpa using htwice)
    rw [hfound]
    exact ⟨rfl, hset, fun _ => rfl, fun h1 => absurd h1 htwice⟩

/-- A sample: the level, and a pulse that is not as it should be. -/
theorem pulseCheckSample_ends {s : State} (hr : HedgeRuns s) (k : Fin 4) (n : Fin 16) (b d a : Bool) :
    let own := n.val % 4 = k
    let odd := if own then b = true ∧ d = true ∧ a = true else b = true ∧ d = false ∧ a = true
    let key := if own then 5 * n.val else 5 * n.val + 1 + k.val
    Ends (.pulseCheckSample k n b d a) s fun t =>
      let g := s.dev.hdg
      let h := t.dev.hdg
      t = withHedge h s
        ∧ (∀ j, j < 16 → h.si.getLsbD j = (if j = n.val ∧ b = a then b else g.si.getLsbD j))
        ∧ (¬ odd → h = { g with si := h.si })
        ∧ (odd → tabGet 0 h.pulseNow key = 1)
        ∧ (odd → tabGet 0 g.pulsePrev key ≠ 1 → h = { g with si := h.si, pulseNow := h.pulseNow })
        ∧ (odd → tabGet 0 g.pulsePrev key = 1 → BothOpen g → h.siFault.getLsbD n = true
            ∧ Locked (if own then 2 else 3) n true true g h) := by
  intro own odd key
  refine ends_hedge hr (f := pulseSample k n b d a) (h := pulseSampled k n b d a s.dev.hdg) rfl pulseSample_eq ?_
  have hkey : pulseKey k n b d a = if odd then some key else none := by
    unfold pulseKey
    simp only [odd, key, own, beq_iff_eq, Bool.and_eq_true, and_assoc, Bool.not_eq_true']
    split <;> rfl
  have hsi := sampled_level n.isLt b a s.dev.hdg
  have heq := sampled_eq n b a s.dev.hdg
  have hstates : (sampled n b a s.dev.hdg).pState = s.dev.hdg.pState ∧ (sampled n b a s.dev.hdg).lState = s.dev.hdg.lState
      ∧ (sampled n b a s.dev.hdg).pulsePrev = s.dev.hdg.pulsePrev := by rw [heq]; exact ⟨rfl, rfl, rfl⟩
  by_cases hodd : odd
  · have hrun : pulseSampled k n b d a s.dev.hdg = pulseFound k n key (sampled n b a s.dev.hdg) := by
      rw [pulseSampled, hkey, if_pos hodd]
    obtain ⟨f1, f2, f3, f4⟩ := pulseFound_leaves k n key n.isLt (sampled n b a s.dev.hdg)
    rw [hrun]
    generalize sampled n b a s.dev.hdg = u at hsi heq hstates f1 f2 f3 f4
    generalize pulseFound k n key u = v at f1 f2 f3 f4
    obtain ⟨hp, hl, hprev⟩ := hstates
    rw [hprev] at f3 f4
    refine ⟨rfl, fun j _ => ?_, fun hno => absurd hodd hno, fun _ => f2, fun _ hne => ?_, fun _ h1 hopen => ?_⟩
    · show v.si.getLsbD j = _
      rw [f1, hsi]
    · show v = _
      rw [f3 hne, heq]
      rfl
    · obtain ⟨h1, h2⟩ := f4 h1 ⟨hp.trans hopen.1, hl.trans hopen.2⟩
      exact ⟨h1, h2 _ hp hl⟩
  · have hrun : pulseSampled k n b d a s.dev.hdg = sampled n b a s.dev.hdg := by
      rw [pulseSampled, hkey, if_neg hodd]
    rw [hrun]
    exact ⟨rfl, fun j _ => hsi j, fun _ => heq, fun h => absurd h hodd, fun h => absurd h hodd, fun h => absurd h hodd⟩

/-! Faults found in both channels. -/

theorem discrepancyTimeout_ends {s : State} (hr : HedgeRuns s) (hopen : BothOpen s.dev.hdg) (idx : Fin 64) :
    Ends (.discrepancyTimeout idx) s fun t => t = withHedge t.dev.hdg s ∧ Locked 1 idx true true s.dev.hdg t.dev.hdg := by
  refine ends_hedge hr (f := discrepancy idx) (h := hFault 1 idx .both s.dev.hdg) rfl (fun hrun => if_pos hrun) ⟨rfl, ?_⟩
  exact hFault_locks true true s.dev.hdg (by simp [takes, hopen.1]) (by simp [takes, hopen.2]) rfl rfl rfl (by simp)

/-- Both partner lines low. -/
def partnerLow (h : HdgSt) : HdgSt := { h with hlkiP := false, hlkiL := false }

theorem hlkiLow_ends {s : State} (hr : HedgeRuns s) :
    (s.dev.hdg.relCheck = false → BothOpen s.dev.hdg → Ends .hlkiLow s fun t => t = withHedge t.dev.hdg s
      ∧ Locked 8 0 true true s.dev.hdg t.dev.hdg ∧ t.dev.hdg.propag = true)
    ∧ (s.dev.hdg.relCheck = true → Ends .hlkiLow s (HedgeBecomes { s.dev.hdg with hlkiP := false, hlkiL := false } s)) := by
  have hrun (h : hedgeRuns (begin_ s) = true) : hlkiLow (begin_ s) = setHg (if s.dev.hdg.relCheck then
      hOutputs (partnerLow s.dev.hdg) else hFault 8 0 .both (hOutputs (partnerLow s.dev.hdg))) (begin_ s) :=
    if_neg (by simp [h])
  refine ⟨fun hc hopen => ends_hedge hr rfl hrun ?_, fun hc => ends_hedge hr rfl hrun ?_⟩
  · rw [if_neg (by simp [hc])]
    have heq := hFault_eq (code := 8) (idx := 0) (who := .both) (p := true) (l := true) (h := hOutputs (partnerLow s.dev.hdg))
      (by simp [takes, hOutputs, partnerLow, hopen.1]) (by simp [takes, hOutputs, partnerLow, hopen.2]) rfl
    have hlock := locked_of (g := s.dev.hdg) heq rfl rfl rfl fun _ => ⟨rfl, rfl⟩
    have hstate : islandState (hOutputs (partnerLow s.dev.hdg)) = .open_ := islandState_open.2 hopen
    refine ⟨rfl, hlock, ?_⟩
    show (hFault 8 0 .both (hOutputs (partnerLow s.dev.hdg))).propag = true
    rw [heq]
    show (!((8 : Nat) != 8) && (islandState (hOutputs (partnerLow s.dev.hdg)) != .locked
      || (hOutputs (partnerLow s.dev.hdg)).propag)) = true
    rw [hstate]
    rfl
  · rw [if_pos hc]
    exact hedgeBecomes_outputs _ s

/-! The release. -/

/-- The island after a release that the channels named accept. -/
def ackOpened (okP okL : Bool) (h : HdgSt) : HdgSt :=
  let h := if okP then hOpenP h else h
  let h := if okL then { hOpenL h with xLock := false } else h
  hOutputs { h with blocked := true, relCheck := true, propag := false, siFault := 0 }

theorem ackOpened_leaves (okP okL : Bool) (h : HdgSt) : (ackOpened okP okL h).blocked = true
    ∧ (ackOpened okP okL h).relCheck = true ∧ (ackOpened okP okL h).siFault = 0 ∧ OutputsRight (ackOpened okP okL h)
    ∧ (ackOpened okP okL h).pState = (if okP then .open_ else h.pState) ∧ (ackOpened okP okL h).hlkP = (if okP then true else h.hlkP)
    ∧ (ackOpened okP okL h).lState = (if okL then .open_ else h.lState)
    ∧ (ackOpened okP okL h).hlkL = (if okL then true else h.hlkL) := by
  refine ⟨rfl, rfl, rfl, hOutputs_right _, ?_⟩
  cases okP <;> cases okL <;> exact ⟨rfl, rfl, rfl, rfl⟩

/-- The rise of the acknowledge line at a running island. -/
theorem ackRise_eq {p l : Nat} {both okP okL : Bool} {leave : Work → Work} {w : Work} (hr : hedgeRuns w = true)
    (hP : okP = (w.d.hdg.pState == .locked && ackTime true p)) (hL : okL = (w.d.hdg.lState == .locked && ackTime false l)) :
    ackRise p l both leave w =
      if !(okP || okL) || !both || causePersists { w.d.hdg with ackN := true } then setHg { w.d.hdg with ackN := true } w
      else if islandState (ackOpened okP okL { w.d.hdg with ackN := true }) = .open_ && w.d.sys.st == .safeLock && !w.d.boot.dead
        then leave (setHg (ackOpened okP okL { w.d.hdg with ackN := true }) w)
        else setHg (ackOpened okP okL { w.d.hdg with ackN := true }) w := by
  subst hP hL
  unfold ackRise
  dsimp only
  rw [if_neg (by simp [hr])]
  rfl

theorem safeAckNRise_ends {s : State} (hr : HedgeRuns s) (p l : Nat) (both : Bool) :
    let g := s.dev.hdg
    let okP := g.pState = .locked ∧ 500 ≤ p ∧ p ≤ 3000
    let okL := g.lState = .locked ∧ 450 ≤ l ∧ l ≤ 3300
    let may := (okP ∨ okL) ∧ both = true ∧ causePersists { g with ackN := true } = false
    (¬ may → exec (.safeAckNRise p l both) s = .next (withHedge { g with ackN := true } s))
    ∧ (may → s.dev.sys.st ≠ .safeLock → Ends (.safeAckNRise p l both) s fun t =>
        let h := t.dev.hdg
        t = withHedge h s ∧ h.blocked = true ∧ h.relCheck = true ∧ h.siFault = 0 ∧ OutputsRight h
          ∧ (okP → h.pState = .open_ ∧ h.hlkP = true) ∧ (¬ okP → h.pState = g.pState ∧ h.hlkP = g.hlkP)
          ∧ (okL → h.lState = .open_ ∧ h.hlkL = true) ∧ (¬ okL → h.lState = g.lState ∧ h.hlkL = g.hlkL))
    ∧ (may → okP ∨ g.pState = .open_ → okL ∨ g.lState = .open_ → s.dev.sys.st = .safeLock → s.dev.boot.dead = false →
      Ends (.safeAckNRise p l both) s fun t =>
        BothOpen t.dev.hdg ∧ t.dev.hdg.blocked = true ∧ t.dev.sys.st = .config) := by
  intro g okP okL may
  obtain ⟨bP, hbP⟩ : ∃ bP, bP = (g.pState == .locked && ackTime true p) := ⟨_, rfl⟩
  obtain ⟨bL, hbL⟩ : ∃ bL, bL = (g.lState == .locked && ackTime false l) := ⟨_, rfl⟩
  have hP : bP = true ↔ okP := by simp [hbP, okP, ackTime]
  have hL : bL = true ↔ okL := by simp [hbL, okL, ackTime]
  have hrun := ackRise_eq (p := p) (l := l) (both := both) (leave := enterConfig) (w := begin_ s) (hedgeRuns_iff.2 hr) hbP hbL
  have hcond : (!(bP || bL) || !both || causePersists { g with ackN := true }) = true ↔ ¬ may := by
    simp only [may, ← hP, ← hL]
    cases bP <;> cases bL <;> cases both <;> simp
  obtain ⟨f1, f2, f3, f4, f5, f6, f7, f8⟩ := ackOpened_leaves bP bL { g with ackN := true }
  change ackRise p l both enterConfig (begin_ s) = if (!(bP || bL) || !both || causePersists { g with ackN := true }) = true
    then setHg { g with ackN := true } (begin_ s) else _ at hrun
  refine ⟨fun hno => ?_, fun hmay hst => ?_, fun hmay hp hl hst hdead => ?_⟩
  · exact runAny_units (hrun.trans (if_pos (hcond.2 hno)))
  · refine ends_runAny (f := ackRise p l both enterConfig) rfl ?_
    have hst' : ((begin_ s).d.sys.st == DevState.safeLock) = false := by simpa using hst
    have hgo : ackRise p l both enterConfig (begin_ s) = setHg (ackOpened bP bL { g with ackN := true }) (begin_ s) :=
      hrun.trans ((if_neg (fun hc => hcond.1 hc hmay)).trans (if_neg (by rw [hst', Bool.and_false, Bool.false_and]; decide)))
    rw [hgo]
    generalize ackOpened bP bL { g with ackN := true } = h at f1 f2 f3 f4 f5 f6 f7 f8
    refine ⟨rfl, f1, f2, f3, f4, fun hp => ?_, fun hp => ?_, fun hl => ?_, fun hl => ?_⟩
    · rw [hP.2 hp] at f5 f6; exact ⟨f5, f6⟩
    · rw [Bool.eq_false_iff.2 (mt hP.1 hp)] at f5 f6; exact ⟨f5, f6⟩
    · rw [hL.2 hl] at f7 f8; exact ⟨f7, f8⟩
    · rw [Bool.eq_false_iff.2 (mt hL.1 hl)] at f7 f8; exact ⟨f7, f8⟩
  · refine ends_runAny (f := ackRise p l both enterConfig) rfl ?_
    have hpo : (ackOpened bP bL { g with ackN := true }).pState = .open_ := by
      rw [f5]
      obtain hp | hp := hp
      · rw [hP.2 hp]; rfl
      · split
        · rfl
        · exact hp
    have hlo : (ackOpened bP bL { g with ackN := true }).lState = .open_ := by
      rw [f7]
      obtain hl | hl := hl
      · rw [hL.2 hl]; rfl
      · split
        · rfl
        · exact hl
    have hopen := islandState_open.2 ⟨hpo, hlo⟩
    have hst' : ((begin_ s).d.sys.st == DevState.safeLock) = true := by simpa using hst
    have hdead' : (begin_ s).d.boot.dead = false := hdead
    have hgo : ackRise p l both enterConfig (begin_ s) = enterConfig (setHg (ackOpened bP bL { g with ackN := true }) (begin_ s)) :=
      hrun.trans ((if_neg (fun hc => hcond.1 hc hmay)).trans (if_pos (by
        rw [hst', hdead', show (begin_ s).d.hdg = g from rfl, hopen]; rfl)))
    rw [hgo]
    generalize ackOpened bP bL { g with ackN := true } = h at f1 hpo hlo
    have htest : (setHg h (begin_ s)).d.sys.st ≠ .test := by
      change s.dev.sys.st ≠ .test
      rw [hst]
      decide
    obtain ⟨hkeep, -, -⟩ := enterConfig_leaves htest
    have hcfg := enterConfig_st (setHg h (begin_ s))
    generalize enterConfig (setHg h (begin_ s)) = u at hkeep hcfg
    have kp : u.d.hdg.pState = h.pState := congrArg (·.2.2.1) hkeep
    have kl : u.d.hdg.lState = h.lState := congrArg (·.2.2.2.1) hkeep
    have kb : u.d.hdg.blocked = h.blocked := congrArg (·.2.2.2.2.1) hkeep
    exact ⟨⟨kp.trans hpo, kl.trans hlo⟩, kb.trans f1, hcfg⟩

/-- The lines as the check reads them. -/
def linesRead (p l : Bool) (h : HdgSt) : HdgSt := { h with hlkiP := p, hlkiL := l }

theorem hlkiCheck_ends {s : State} (hr : HedgeRuns s) (p l : Bool) :
    (s.dev.hdg.relCheck = false ∨ p = true ∨ l = true → Ends (.hlkiCheck p l) s
      (HedgeBecomes { s.dev.hdg with hlkiP := p, hlkiL := l, relCheck := false } s))
    ∧ (s.dev.hdg.relCheck = true → p = false → l = false → BothOpen s.dev.hdg → Ends (.hlkiCheck p l) s fun t =>
      t = withHedge t.dev.hdg s ∧ Locked 8 0 true true s.dev.hdg t.dev.hdg ∧ t.dev.hdg.relCheck = false) := by
  have hrun (h : hedgeRuns (begin_ s) = true) : hlkiCheck p l (begin_ s) = if s.dev.hdg.relCheck && !p && !l
      then setHg { hFault 8 0 .both (hOutputs (linesRead p l s.dev.hdg)) with relCheck := false } (begin_ s)
      else setHg { hOutputs (linesRead p l s.dev.hdg) with relCheck := false } (begin_ s) := if_neg (by simp [h])
  refine ⟨fun hno => ends_hedge hr (f := hlkiCheck p l) rfl (fun h => (hrun h).trans (if_neg ?_)) ?_,
    fun hc hp hl hopen => ends_hedge hr (f := hlkiCheck p l) rfl (fun h => (hrun h).trans (if_pos ?_)) ?_⟩
  · obtain h | h | h := hno <;> simp [h]
  · exact ⟨{ hOutputs (linesRead p l s.dev.hdg) with relCheck := false }, rfl, hOutputs_right (linesRead p l s.dev.hdg), rfl⟩
  · simp [hc, hp, hl]
  · have hlock : Locked 8 0 true true s.dev.hdg (hFault 8 0 .both (hOutputs (linesRead p l s.dev.hdg))) :=
      hFault_locks true true s.dev.hdg (by simp [takes, hOutputs, linesRead, hopen.1])
        (by simp [takes, hOutputs, linesRead, hopen.2]) rfl rfl rfl fun _ => ⟨rfl, rfl⟩
    generalize hFault 8 0 .both (hOutputs (linesRead p l s.dev.hdg)) = h at hlock
    exact ⟨rfl, hlock, rfl⟩

theorem holdsBlockedEnd_ends {s : State} (hh : HasHedge s) :
    Ends .holdsBlockedEnd s (HedgeBecomes { s.dev.hdg with blocked := false } s) := by
  refine ends_runAny (f := blockedEnd) rfl ?_
  rw [blockedEnd, if_pos (show hasHedge (begin_ s).variant = true from hasHedge_iff.2 hh)]
  exact hedgeBecomes_outputs _ s

end Sys2Proof.Claims

namespace Sys2Proof.Proofs

open Sys2Proof.Machine Sys2Proof.Claims

/-- Settles O57: pulses, faults of both channels, and the release up to the entry to CONFIG, which leaves the channels OPEN. -/
theorem hedgeInputsAndRelease : Obligations.HedgeInputsAndRelease :=
  ⟨fun _ hr => testPulseFrame_next hr, fun k n b d a _ hr => pulseCheckSample_ends hr k n b d a,
    fun idx _ hr hopen => discrepancyTimeout_ends hr hopen idx, fun _ hr => hlkiLow_ends hr,
    fun p l both _ hr => safeAckNRise_ends hr p l both, fun p l _ hr => hlkiCheck_ends hr p l,
    fun _ hh => holdsBlockedEnd_ends hh⟩

end Sys2Proof.Proofs
end

section
/-! SUPPORT. The black channel: frames sent, frames taken, and connections that time out (spec/14 R462 to R467, R480). -/

namespace Sys2Proof.Machine

open Sys2Proof.Claims

/-! Connections. -/

theorem getConn_putConn (c k : Nat) (x : HConn) (h : HdgSt) : getConn c (putConn k x h) = if c = k then x else getConn c h :=
  tabGet_tabSet _ _ _ _ _

theorem hFault_conns (code idx : Nat) (who : Who) (h : HdgSt) : (hFault code idx who h).conns = h.conns
    ∧ (hFault code idx who h).test = if code = 4 then (hFault code idx who h).test else h.test := by
  unfold hFault
  dsimp only
  split
  · split
    · exact ⟨rfl, by simp⟩
    · exact ⟨rfl, by simp⟩
  · refine ⟨rfl, ?_⟩
    by_cases h4 : code = 4 <;> simp [hOutputs, h4]

theorem getConn_hFault (c code idx : Nat) (who : Who) (h : HdgSt) : getConn c (hFault code idx who h) = getConn c h := by
  rw [getConn, (hFault_conns code idx who h).1]
  rfl

theorem connRuns_iff {c : Nat} {h : HdgSt} : connRuns c h = true ↔ c = 0 ∨ h.hbRole = 0 ∨ h.hbRole = 1 := by
  simp [connRuns, or_assoc]

/-! Words of a message. -/

theorem fld_wd (n lo k : Nat) : fld (wd n) lo k = n % 2 ^ 36 / 2 ^ lo % 2 ^ k := by
  rw [fld_eq_div_mod, wd, BitVec.toNat_ofNat]

theorem put_mod (lo n v : Nat) : put lo n v = v % 2 ^ n * 2 ^ lo := by rw [put, Nat.shiftLeft_eq]

/-- The head of a message of connection c from Hedge-P. -/
theorem sframeHead_fields {c : Nat} (hc : c < 64) : fld (wd (put 32 4 5 + put 26 6 c)) 32 4 = 5
    ∧ fld (wd (put 32 4 5 + put 26 6 c)) 26 6 = c ∧ (wd (put 32 4 5 + put 26 6 c)).getLsbD 25 = false := by
  have hn : put 32 4 5 + put 26 6 c = 21474836480 + c * 67108864 := by
    rw [put_eq (by decide), put_eq (by omega)]
    omega
  rw [hn]
  refine ⟨by rw [fld_wd]; omega, by rw [fld_wd]; omega, ?_⟩
  have hb : (21474836480 + c * 67108864) % 2 ^ 36 / 2 ^ 25 % 2 = 0 := by omega
  rw [BitVec.getLsbD, wd, BitVec.toNat_ofNat, Nat.testBit_eq_decide_div_mod_eq, hb]
  rfl

/-- The first word of a frame. -/
theorem frameHead_fields (n t : Nat) {k : Nat} (hk : k < 256) :
    let v := wd (put 32 4 1 + put 16 16 n + put 13 3 t + put 0 8 k)
    fld v 32 4 = 1 ∧ fld v 16 16 = n % 65536 ∧ fld v 0 8 = k := by
  have hn : put 32 4 1 + put 16 16 n + put 13 3 t + put 0 8 k = 4294967296 + n % 65536 * 65536 + t % 8 * 8192 + k := by
    rw [put_mod, put_mod, put_mod, put_mod]
    omega
  simp only [fld_wd, hn]
  omega

/-- The words of a frame before its check value. -/
def txWords (c : Nat) (h : HdgSt) : List Word :=
  wd (put 32 4 1 + put 16 16 (getConn c h).nextTx + put 13 3 (swTec h.swP) + put 0 8 (txData c h).length) :: (txData c h).map wd

theorem txFrame_eq (c : Nat) (h : HdgSt) :
    txFrame c h = txWords c h ++ [wd (hCrc (hCid h.swP c 0) (txWords c h))] := rfl

theorem length_txData (c : Nat) (h : HdgSt) : (txData c h).length = if c = 0 then 4 else 1 := by
  unfold txData
  by_cases hc : c = 0 <;> simp [hc]

/-! A frame taken. -/

/-- The data of a drive's frame. -/
def frameData (ws : List Word) : List Nat := ((ws.drop 1).take 2).map fun x => fld x 0 32

/-- A drive's connection after a valid frame. -/
def connTaken (c : Nat) (ws : List Word) (h : HdgSt) : HdgSt :=
  hOutputs (putConn c { getConn c h with
    alive := true, seen := true, data := frameData ws, nextRx := (fld (nth 0 ws 0) 16 16 + 1) % 65536 } h)

/-- The island after a valid frame of a drive: a drive's fault locks Hedge-P. -/
def driveTaken (c : Nat) (ws : List Word) (h : HdgSt) : HdgSt :=
  if expected c (connTaken c ws h) && (nth 0 (frameData ws) 0).testBit 3 then hFault 10 c .p (connTaken c ws h) else connTaken c ws h

theorem driveTaken_test (c : Nat) (ws : List Word) (h : HdgSt) : (driveTaken c ws h).test = h.test := by
  unfold driveTaken
  split
  · exact (hFault_conns 10 c .p (connTaken c ws h)).2
  · rfl

theorem blackFrame_drive {c : Nat} {ws : List Word} {w : Work} (hr : hedgeRuns w = true) (hc : c ≠ 0)
    (hrole : connRuns c w.d.hdg = true) (hv : frameValid c ws w.d.hdg = true) (ht : w.d.hdg.test = none) :
    blackFrame c ws w = setHg (driveTaken c ws w.d.hdg) w := by
  have hc0 : (c == 0) = false := by simpa using hc
  have hc1 : (c != 0) = true := by simpa using hc
  have hcheck (h : HdgSt) (hh : h.test = none) : btCheck c (setHg h w) = setHg h w := by
    unfold btCheck
    rw [show (setHg h w).d.hdg.test = none from hh]
  have heq : blackFrame c ws w = btCheck c (setHg (driveTaken c ws w.d.hdg) w) := by
    unfold blackFrame
    dsimp only
    rw [if_neg (by simp [hr, hrole, hv]), hc0, hc1]
    simp only [Bool.false_eq_true, if_false, Bool.true_and]
    rfl
  rw [heq]
  exact hcheck _ ((driveTaken_test c ws w.d.hdg).trans ht)

/-! A connection that times out. -/

/-- The connection no longer alive. -/
def connLost (c : Nat) (h : HdgSt) : HdgSt := hOutputs (putConn c { getConn c h with alive := false } h)

theorem connTimeout_drive {c : Nat} {w : Work} (hr : hedgeRuns w = true) (hc : c ≠ 0) : connTimeout c w =
    setHg (if !expected c (connLost c w.d.hdg) || !connRuns c (connLost c w.d.hdg) then connLost c w.d.hdg
      else hFault 7 c .p (connLost c w.d.hdg)) w := by
  have hc0 : (c == 0) = false := by simpa using hc
  unfold connTimeout
  dsimp only
  rw [hc0, if_neg (by simp [hr]), Bool.false_and, Bool.or_false]
  exact (apply_ite (setHg · w) _ _ _).symm

end Sys2Proof.Machine

namespace Sys2Proof.Claims

open Sys2Proof.Machine

theorem blackChannelSend_ends {s : State} (hr : HedgeRuns s) (c : Fin 64) {b : Bool}
    (hrole : c.val = 0 ∨ s.dev.hdg.hbRole = 0 ∨ s.dev.hdg.hbRole = 1) (hside : SideIs 31 (connChannel c (begin_ s)) b s)
    (hq : queued b (connChannel c (begin_ s)) s = []) : Ends (.blackChannelSend c) s fun t =>
      (conn c t.dev.hdg).nextTx = ((conn c s.dev.hdg).nextTx + 1) % 65536 ∧ (conn c t.dev.hdg).nextRx = (conn c s.dev.hdg).nextRx
        ∧ (∀ k, k ≠ c.val → conn k t.dev.hdg = conn k s.dev.hdg)
        ∧ ∃ h ws f, queued b (connChannel c (begin_ s)) t = [h :: ws ++ [f]] ∧ bitsOf h 32 4 = 5 ∧ bitsOf h 26 6 = c
            ∧ h.getLsbD 25 = false
            ∧ bitsOf (ws.getD 0 0) 32 4 = 1 ∧ bitsOf (ws.getD 0 0) 16 16 = (conn c s.dev.hdg).nextTx % 65536
            ∧ bitsOf (ws.getD 0 0) 0 8 + 1 = ws.length
            ∧ f = BitVec.ofNat 36 (hCrc (0xC7000000 + 0x10000 * (s.dev.hdg.swP % 256) + 0x100 * c) ws) := by
  have hlen : (txWords c s.dev.hdg).length = (txData c s.dev.hdg).length + 1 := by simp [txWords]
  have hdata := length_txData c s.dev.hdg
  have hd4 : (txData c s.dev.hdg).length ≤ 4 := by rw [hdata]; split <;> omega
  have hrun : blackSend c (begin_ s) = setHg (putConn c { getConn c s.dev.hdg with
      nextTx := ((getConn c s.dev.hdg).nextTx + 1) % 65536 } s.dev.hdg)
      (mbxPut 31 (connChannel c (begin_ s)) (wd (put 32 4 5 + put 26 6 c) :: txFrame c s.dev.hdg) (begin_ s)) :=
    if_neg (by
      have h1 := hedgeRuns_iff.2 hr
      have h2 : connRuns c (begin_ s).d.hdg = true := connRuns_iff.2 hrole
      simp only [h1, h2]
      decide)
  obtain ⟨hm, hqueue, -, -⟩ := mbxPut_leaves (w := begin_ s) (mid := 31) (c := connChannel c (begin_ s)) (b := b)
    (sideOf_of_sideIs hside) (ws := wd (put 32 4 5 + put 26 6 c) :: txFrame c s.dev.hdg) (List.cons_ne_nil _ _)
    (by rw [txFrame_eq, List.length_cons, List.length_append, hlen, List.length_singleton]; omega) hq
  obtain ⟨k1, k2, k3⟩ := sframeHead_fields c.isLt
  obtain ⟨f1, f2, f3⟩ := frameHead_fields (getConn c s.dev.hdg).nextTx (swTec s.dev.hdg.swP)
    (k := (txData c s.dev.hdg).length) (by omega)
  have hput (k : Nat) : getConn k (putConn c { getConn c s.dev.hdg with
      nextTx := ((getConn c s.dev.hdg).nextTx + 1) % 65536 } s.dev.hdg) = if k = c.val then { getConn c s.dev.hdg with
      nextTx := ((getConn c s.dev.hdg).nextTx + 1) % 65536 } else getConn k s.dev.hdg := getConn_putConn k c _ s.dev.hdg
  have hme := (hput c).trans (if_pos rfl)
  refine ends_runAny (f := blackSend c) rfl ?_
  rw [hrun, txFrame_eq] at *
  generalize mbxPut 31 (connChannel c (begin_ s)) _ (begin_ s) = u at hm hqueue ⊢
  refine ⟨?_, ?_, fun k hk => ?_, wd (put 32 4 5 + put 26 6 c), txWords c s.dev.hdg,
    wd (hCrc (hCid s.dev.hdg.swP c 0) (txWords c s.dev.hdg)), hqueue, ?_, ?_, k3, ?_, ?_, ?_, rfl⟩
  · exact congrArg HConn.nextTx hme
  · exact (congrArg HConn.nextRx hme).trans rfl
  · exact (hput k).trans (if_neg hk)
  · rw [bitsOf_eq]; exact k1
  · rw [bitsOf_eq]; exact k2
  · rw [bitsOf_eq]; exact f1
  · rw [bitsOf_eq]; exact f2
  · rw [bitsOf_eq, hlen]; exact congrArg (· + 1) f3

theorem blackChannelFrame_ends {s : State} (c : Fin 64) (ws : List Word) :
    (¬ HedgeRuns s ∨ frameValid c ws s.dev.hdg = false → exec (.blackChannelFrame c ws) s = .next s)
    ∧ (HedgeRuns s → frameValid c ws s.dev.hdg = true → c.val ≠ 0 → s.dev.hdg.hbRole = 0 ∨ s.dev.hdg.hbRole = 1 →
      s.dev.hdg.test = none → Ends (.blackChannelFrame c ws) s fun t =>
        let x := conn c t.dev.hdg
        let d := ((ws.drop 1).take 2).map (fun v => bitsOf v 0 32)
        t = withHedge t.dev.hdg s ∧ x.alive = true ∧ x.seen = true ∧ x.data = d
          ∧ x.nextRx = (bitsOf (ws.getD 0 0) 16 16 + 1) % 65536 ∧ (∀ k, k ≠ c.val → conn k t.dev.hdg = conn k s.dev.hdg)
          ∧ ((d.getD 0 0).testBit 3 = false → t.dev.hdg.pState = s.dev.hdg.pState ∧ OutputsRight t.dev.hdg)
          ∧ ((d.getD 0 0).testBit 3 = true → s.dev.hdg.connMask.getLsbD c = true → s.dev.hdg.pState = .open_ →
              Locked 10 c true false s.dev.hdg t.dev.hdg)) := by
  constructor
  · intro hno
    refine runAny_unchanged (f := blackFrame c ws) (if_pos ?_)
    obtain hno | hno := hno
    · have hr : hedgeRuns (begin_ s) = false := by rw [← Bool.not_eq_true, hedgeRuns_iff]; exact hno
      rw [hr]
      rfl
    · rw [begin_d, hno]
      simp
  · intro hr hv hc hrole ht
    have hdata : ((ws.drop 1).take 2).map (fun v => bitsOf v 0 32) = frameData ws :=
      List.map_congr_left fun v _ => bitsOf_eq v 0 32
    refine ends_hedge hr (f := blackFrame c ws) (h := driveTaken c ws s.dev.hdg) rfl (fun hrun =>
      blackFrame_drive hrun hc (connRuns_iff.2 (.inr hrole)) hv ht) ?_
    have hconn (k : Nat) : getConn k (driveTaken c ws s.dev.hdg) = getConn k (connTaken c ws s.dev.hdg) := by
      unfold driveTaken
      split
      · exact getConn_hFault ..
      · rfl
    have hput (k : Nat) : getConn k (connTaken c ws s.dev.hdg) = if k = c.val then { getConn c s.dev.hdg with
        alive := true, seen := true, data := frameData ws, nextRx := (fld (nth 0 ws 0) 16 16 + 1) % 65536 }
        else getConn k s.dev.hdg := getConn_putConn k c _ s.dev.hdg
    have hme := (hconn c).trans ((hput c).trans (if_pos rfl))
    dsimp only
    rw [hdata, bitsOf_eq]
    refine ⟨rfl, congrArg HConn.alive hme, congrArg HConn.seen hme, congrArg HConn.data hme, congrArg HConn.nextRx hme,
      fun k hk => (hconn k).trans ((hput k).trans (if_neg hk)), fun hno => ?_, fun hbit hmask hopen => ?_⟩
    · have heq : driveTaken c ws s.dev.hdg = connTaken c ws s.dev.hdg :=
        if_neg (by rw [show (nth 0 (frameData ws) 0).testBit 3 = false from hno]; simp)
      show (driveTaken c ws s.dev.hdg).pState = _ ∧ OutputsRight (driveTaken c ws s.dev.hdg)
      rw [heq]
      exact ⟨rfl, hOutputs_right _⟩
    · have hexp : expected c (connTaken c ws s.dev.hdg) = true := by
        show (c.val == 0 || s.dev.hdg.connMask.getLsbD c) = true
        rw [hmask, Bool.or_true]
      have heq : driveTaken c ws s.dev.hdg = hFault 10 c .p (connTaken c ws s.dev.hdg) :=
        if_pos (by rw [show (nth 0 (frameData ws) 0).testBit 3 = true from hbit, hexp]; rfl)
      show Locked 10 c true false s.dev.hdg (driveTaken c ws s.dev.hdg)
      rw [heq]
      have hp : (connTaken c ws s.dev.hdg).pState = .open_ := hopen
      exact hFault_locks true false s.dev.hdg (by simp [takes, hp]) (by simp [takes]) rfl rfl rfl (by simp)

theorem connectionTimeout_ends {s : State} (hr : HedgeRuns s) (c : Fin 64) (hc : c.val ≠ 0) :
    let runs := s.dev.hdg.hbRole = 0 ∨ s.dev.hdg.hbRole = 1
    Ends (.connectionTimeout c) s fun t =>
      t = withHedge t.dev.hdg s ∧ conn c t.dev.hdg = { conn c s.dev.hdg with alive := false }
        ∧ (∀ k, k ≠ c.val → conn k t.dev.hdg = conn k s.dev.hdg)
        ∧ (s.dev.hdg.connMask.getLsbD c = false ∨ ¬ runs →
            t.dev.hdg.pState = s.dev.hdg.pState ∧ OutputsRight t.dev.hdg)
        ∧ (s.dev.hdg.connMask.getLsbD c = true → runs → s.dev.hdg.pState = .open_ →
            Locked 7 c true false s.dev.hdg t.dev.hdg) := by
  intro runs
  have hlost (k : Nat) : getConn k (connLost c s.dev.hdg) = if k = c.val then { getConn c s.dev.hdg with alive := false }
      else getConn k s.dev.hdg := getConn_putConn k c _ s.dev.hdg
  have hexp : expected c (connLost c s.dev.hdg) = s.dev.hdg.connMask.getLsbD c := by
    show (c.val == 0 || s.dev.hdg.connMask.getLsbD c) = _
    simp [hc]
  have hrun : connRuns c (connLost c s.dev.hdg) = true ↔ runs := connRuns_iff.trans (or_iff_right hc)
  refine ends_hedge hr (f := connTimeout c) rfl (fun hrun => connTimeout_drive hrun hc) ?_
  by_cases hf : s.dev.hdg.connMask.getLsbD c = true ∧ runs
  · have hcond : ¬ (!expected c (connLost c s.dev.hdg) || !connRuns c (connLost c s.dev.hdg)) = true := by
      rw [hexp, hf.1, hrun.2 hf.2]
      decide
    rw [begin_d, if_neg hcond]
    have hconn (k : Nat) := (getConn_hFault k 7 c .p (connLost c s.dev.hdg)).trans (hlost k)
    refine ⟨rfl, (hconn c).trans (if_pos rfl), fun k hk => (hconn k).trans (if_neg hk), fun hno => ?_, fun _ _ hopen => ?_⟩
    · obtain h | h := hno
      · rw [hf.1] at h; cases h
      · exact absurd hf.2 h
    · have hp : (connLost c s.dev.hdg).pState = .open_ := hopen
      exact hFault_locks true false s.dev.hdg (by simp [takes, hp]) (by simp [takes]) rfl rfl rfl (by simp)
  · have hcond : (!expected c (connLost c s.dev.hdg) || !connRuns c (connLost c s.dev.hdg)) = true := by
      rw [hexp]
      by_contra hno
      simp only [Bool.or_eq_true, Bool.not_eq_true', not_or, Bool.not_eq_false] at hno
      exact hf ⟨hno.1, hrun.1 hno.2⟩
    rw [begin_d, if_pos hcond]
    exact ⟨rfl, (hlost c).trans (if_pos rfl), fun k hk => (hlost k).trans (if_neg hk), fun _ => ⟨rfl, hOutputs_right _⟩,
      fun h1 h2 _ => absurd ⟨h1, h2⟩ hf⟩

theorem sframe_ends {s : State} (ch : Fin 3) {b : Bool} {h : Word} {ws : List Word} (hch : ch.val ≠ 0)
    (hside : SideIs (25 + ch) (12 + ch) (!b) s) (hq : queued b (12 + ch) s = [h :: ws]) (h5 : bitsOf h 32 4 = 5)
    (h25 : h.getLsbD 25 = false) : Ends (.sframe ch false) s fun t => queued b (12 + ch) t = []
      ∧ t.dev.hdg = { s.dev.hdg with fromHedge := s.dev.hdg.fromHedge ++ [(decide (ch.val = 2), bitsOf h 26 6, ws)] } := by
  have htake := mbxTake_side (w := begin_ s) (sideOf_of_sideIs hside)
  obtain ⟨hm, htail, -, -⟩ := mbxDrop_leaves (!b) (12 + ch) (begin_ s)
  have hqueue : queueOf b (12 + ch) (begin_ s) = [h :: ws] := hq
  rw [Bool.not_not, hqueue] at htake htail
  rw [bitsOf_eq] at h5
  have hring : (12 + ch.val == 13 || 12 + ch.val == 14) = true := by
    have := ch.isLt
    simp only [Bool.or_eq_true, beq_iff_eq]
    omega
  have hrun : sframe (12 + ch) false (begin_ s) = { mbxDrop (!b) (12 + ch) (begin_ s) with
      d.hdg.fromHedge := (mbxDrop (!b) (12 + ch) (begin_ s)).d.hdg.fromHedge ++ [(12 + ch.val == 14, fld h 26 6, ws)] } := by
    unfold sframe
    rw [if_neg (by decide), if_pos hring, show 13 + (12 + ch.val) = 25 + ch.val by omega, htake]
    exact if_pos (by rw [show fld (nth 0 (h :: ws) 0) 32 4 = 5 from h5, show bit (nth 0 (h :: ws) 0) 25 = false from h25]; rfl)
  refine ends_runAny (f := sframe (12 + ch) false) rfl ?_
  rw [hrun]
  have hhdg := hm.hdg
  generalize mbxDrop (!b) (12 + ch) (begin_ s) = u at htail hhdg
  refine ⟨htail, ?_⟩
  have hdec : (12 + ch.val == 14) = decide (ch.val = 2) := by
    rw [Bool.eq_iff_iff, beq_iff_eq, decide_eq_true_eq]
    omega
  rw [bitsOf_eq, ← hdec]
  show ({ u.d.hdg with fromHedge := u.d.hdg.fromHedge ++ [(12 + ch.val == 14, fld h 26 6, ws)] } : HdgSt) = _
  rw [hhdg]
  rfl

end Sys2Proof.Claims

namespace Sys2Proof.Proofs

open Sys2Proof.Machine Sys2Proof.Claims

/-- Settles O58: the frame word by word, and what a frame and a timeout leave of the connections and the channels. -/
theorem blackChannel : Obligations.BlackChannel :=
  ⟨fun c _ _ hr hrole hside hq => blackChannelSend_ends hr c hrole hside hq, fun c ws _ => blackChannelFrame_ends c ws,
    fun c _ hr hc => connectionTimeout_ends hr c hc, fun ch _ _ _ _ hch _ hside hq h5 h25 => sframe_ends ch hch hside hq h5 h25⟩

end Sys2Proof.Proofs
end

section
/-! SUPPORT. Brake tests, brakes due, and the status window (spec/14 R450, R468 to R473). -/

namespace Sys2Proof.Machine

open Sys2Proof.Claims

/-! A brake test. -/

/-- The island after BTEST of a local brake. -/
def testBegun (k : Nat) (h : HdgSt) : HdgSt := hOutputs { h with test := some { remote := false, idx := k, conn := k + 1 } }

theorem btTake_local {p : Word} {n : Nat} {h : HdgSt} (hp : bit p 8 = false) (ht : h.test = none) :
    btTake p n h = testBegun (fld p 0 3) h := by
  unfold btTake
  rw [if_neg (by simp [ht]), hp]
  rfl

/-- A brake under test is not held released. -/
theorem testBegun_applied {k : Nat} (hk : k < 8) (h : HdgSt) : (testBegun k h).brkP.getLsbD k = false := by
  have hright := (hOutputs_right { h with test := some { remote := false, idx := k, conn := k + 1 } }).1 k hk
  rw [← Bool.not_eq_true, testBegun, hright]
  rintro ⟨-, -, -, -, hno⟩
  exact hno ⟨_, rfl, rfl, rfl⟩

theorem getCe_modCe (k a : Nat) (f : CeAxis → CeAxis) (w : Work) :
    getCe k (modCe a f w) = if k = a then f (getCe a w) else getCe k w := tabGet_tabSet _ _ _ _ _

/-- What BT_STEP puts on its axis: torque on, or torque off. -/
def btTorque (v : Word) (tq : F32) (x : CeAxis) : CeAxis :=
  if v = 1 then (if x.enabled then { x with bt := some { tq := tq } } else x)
  else { x with bt := x.bt.map (fun r => { r with down := true }) }

theorem btStep_torque {b : Bool} {w v : Word} {u : Work} {c : CmdRef} {a : Nat} (hs : sideOf 2 (getChan 15 u) = some (!b))
    (hq : queueOf b 15 u = [[w, v]]) (h3 : fld w 32 4 = 3) (hc : u.d.hdg.btCmd = some (c, a)) (hv : v = 1 ∨ v = 2) :
    btStep u = modCe a (btTorque v (fOfWord (tabGet 0 (getPln a u).params 0x120))) (mbxDrop (!b) 15 u) := by
  obtain ⟨hm, -⟩ := mbxDrop_leaves (!b) 15 u
  have hhdg := hm.hdg
  have hunit : (mbxDrop (!b) 15 u).d.pln = u.d.pln := congrArg (·.d.pln) hm
  have hpln : getPln a (mbxDrop (!b) 15 u) = getPln a u := by rw [getPln, hunit, getPln]
  unfold btStep
  rw [mbxTake_side hs, Bool.not_not, hq]
  generalize mbxDrop (!b) 15 u = x at hhdg hpln ⊢
  rw [← hpln]
  generalize hax : tabGet 0 (getPln a x).params 0x120 = g
  dsimp only [List.head?_cons]
  rw [hhdg, hc]
  dsimp only
  rw [if_neg (by simp [nth, h3]), hax]
  generalize fOfWord g = tq
  obtain rfl | rfl := hv
  · rfl
  · rfl

/-! The window. -/

/-- The fields of the window's first word that say LOCKED, and the code of its fault. -/
theorem windowHead_fields (f l p : Nat) (b12 b11 b10 b9 b8 : Bool) :
    let v := wd (put 16 8 f + putB 12 b12 + putB 11 b11 + putB 10 b10 + putB 9 b9 + putB 8 b8 + put 2 2 l + put 0 2 p)
    fld v 16 8 = f % 256 ∧ fld v 2 2 = l % 4 ∧ fld v 0 2 = p % 4 := by
  have hn : put 16 8 f + putB 12 b12 + putB 11 b11 + putB 10 b10 + putB 9 b9 + putB 8 b8 + put 2 2 l + put 0 2 p
      = f % 256 * 65536 + b12.toNat * 4096 + b11.toNat * 2048 + b10.toNat * 1024 + b9.toNat * 512 + b8.toNat * 256
        + l % 4 * 4 + p % 4 := by
    simp only [put_mod, putB_eq]
    omega
  have h12 := b12.toNat_le
  have h11 := b11.toNat_le
  have h10 := b10.toNat_le
  have h9 := b9.toNat_le
  have h8 := b8.toNat_le
  simp only [fld_wd, hn]
  omega

/-- The window of a channel that is LOCKED. -/
theorem hedgeWindow_locked {h : HdgSt} (hp : h.pState = .locked) : fld (nth 0 (hedgeWindow h) 0) 0 2 = 2
    ∧ fld (nth 0 (hedgeWindow h) 0) 16 8 = h.fcode % 256 := by
  obtain ⟨hcode, -, hst⟩ := windowHead_fields h.fcode (hCode h.lState) (hCode h.pState)
    (islandState h = .locked && h.propag) (holdOk h) (conn0 h) h.hbFresh (h.hlkiP && h.hlkiL)
  refine ⟨hst.trans ?_, hcode⟩
  rw [hp]
  rfl

theorem hedgeWindow_due {h : HdgSt} (hd : h.due = 0) {b : Nat} (hb : b < 8) : bit (nth 0 (hedgeWindow h) 4) b = false := by
  obtain ⟨b26, k, b22, c, e, hword⟩ : ∃ b26 k b22 c e, nth 0 (hedgeWindow h) 4
      = wd (putB 26 b26 + put 23 3 k + putB 22 b22 + put 16 6 c + put 8 8 e + put 0 8 h.due.toNat) := ⟨_, _, _, _, _, rfl⟩
  have hlow : (putB 26 b26 + put 23 3 k + putB 22 b22 + put 16 6 c + put 8 8 e + put 0 8 h.due.toNat) % 256 = 0 := by
    simp only [put_mod, putB_eq, hd]
    simp only [BitVec.toNat_zero, BitVec.ofNat_eq_ofNat]
    omega
  rw [hword]
  generalize putB 26 b26 + put 23 3 k + putB 22 b22 + put 16 6 c + put 8 8 e + put 0 8 h.due.toNat = n at hlow
  have hbit : n % 2 ^ 36 / 2 ^ b % 2 = 0 := by
    obtain rfl | rfl | rfl | rfl | rfl | rfl | rfl | rfl : b = 0 ∨ b = 1 ∨ b = 2 ∨ b = 3 ∨ b = 4 ∨ b = 5 ∨ b = 6 ∨ b = 7 := by
      omega
    all_goals omega
  show (wd n).getLsbD b = false
  rw [BitVec.getLsbD, wd, BitVec.toNat_ofNat, Nat.testBit_eq_decide_div_mod_eq, hbit]
  rfl

theorem dueConns_none {h : HdgSt} (hd : ∀ c, c < 64 → (getConn c h).due = false) : dueConns h = 0 := by
  have hz : ((List.range 64).map (fun c => putB c (getConn c h).due)).sum = 0 := by
    refine List.sum_eq_zero fun x hx => ?_
    obtain ⟨c, hc, rfl⟩ := List.mem_map.1 hx
    rw [hd c (List.mem_range.1 hc)]
    rfl
  rw [dueConns, hz]
  rfl

/-- The events of a refresh, in the order of the log. -/
def windowLogged (old new : List Word) (wasDue nowDue : BitVec 64) (w : Work) : Work :=
  let locked := fun (x : Word) => fld x 0 2 == 2 || fld x 2 2 == 2
  let isl := fun (x : Word) => if locked x then 2 else if fld x 0 2 == 0 || fld x 2 2 == 0 then 0 else 1
  let o := nth 0 old 0
  let n := nth 0 new 0
  let held := fun (l : List Word) => fld (nth 0 l 2) 0 8 + fld (nth 0 l 2) 16 2
  let w := when_ (locked n && !locked o) (logEvent .hdg 0 1 (fld n 16 8)) w
  let w := when_ (!locked n && locked o) (logEvent .hdg 0 2 0) w
  let w := when_ (!locked n && held old != 0 && held new == 0) (logEvent .hdg 0 3 0) w
  let w := each ((List.range 8).filter (fun b => bit (nth 0 new 4) b && !bit (nth 0 old 4) b))
    (fun b w => logEvent .hdg 0 4 b w) w
  let w := each ((List.range 64).filter (fun c => nowDue.getLsbD c && !wasDue.getLsbD c))
    (fun c w => logEvent .hdg 0 4 (0x100 + c) w) w
  when_ (isl n != isl o) (irq 12) w

theorem windowRefresh_eq {w : Work} (hr : hedgeRuns w = true) : windowRefresh w =
    if !fromConfig w.d.sys.st || w.d.boot.dead then setHg (WindowShown w.d.hdg) w
    else windowLogged w.d.hdg.win (hedgeWindow w.d.hdg) w.d.hdg.winDue (dueConns w.d.hdg) (setHg (WindowShown w.d.hdg) w) :=
  if_neg (by simp [hr])

theorem when_either (b : Bool) (f : Work → Work) (w : Work) : when_ b f w = w ∨ when_ b f w = f w := by
  cases b
  · exact .inl rfl
  · exact .inr rfl

/-- A lock first shown, with no brake due: one event, and an interrupt. -/
theorem windowLogged_lock {old new : List Word} {wasDue : BitVec 64} (h0 : fld (nth 0 new 0) 0 2 = 2)
    (hold : fld (nth 0 old 0) 0 2 ≠ 2 ∧ fld (nth 0 old 0) 2 2 ≠ 2) (hd : ∀ b, b < 8 → bit (nth 0 new 4) b = false) (w : Work) :
    ∃ f : Work → Work, (∀ v, f v = v ∨ f v = irq 12 v)
      ∧ windowLogged old new wasDue 0 w = f (logEvent .hdg 0 1 (fld (nth 0 new 0) 16 8) w) := by
  have hn : (fld (nth 0 new 0) 0 2 == 2 || fld (nth 0 new 0) 2 2 == 2) = true := by rw [h0]; rfl
  have ho : (fld (nth 0 old 0) 0 2 == 2 || fld (nth 0 old 0) 2 2 == 2) = false := by
    rw [beq_false_of_ne hold.1, beq_false_of_ne hold.2]
    rfl
  have hpairs : (List.range 8).filter (fun b => bit (nth 0 new 4) b && !bit (nth 0 old 4) b) = [] :=
    List.filter_eq_nil_iff.2 fun b hb => by rw [hd b (List.mem_range.1 hb)]; simp
  have hconns : (List.range 64).filter (fun c => (0 : BitVec 64).getLsbD c && !wasDue.getLsbD c) = [] :=
    List.filter_eq_nil_iff.2 fun c _ => by simp
  unfold windowLogged
  dsimp only
  simp only [hn, ho, hpairs, hconns]
  exact ⟨when_ _ (irq 12), fun v => when_either _ (irq 12) v, rfl⟩

theorem idleView_abortArmed (w : Work) : idleView (abortArmed w) = idleView w := by
  have hwr (a : Nat) (x : Word) (v : Work) : idleView (wr a x v) = idleView v := by
    obtain ⟨_, _, _, h⟩ := wr_frame a x v
    rw [h]
    rfl
  have hcurve (e : Effect) (v : Work) : idleView (dropCurve e v) = idleView v := by
    unfold dropCurve
    split <;> rfl
  have hce (u : CeUndo) (v : Work) : idleView (ceUndo u v) = idleView v :=
    (idleView_modCe u.axis _ _).trans (idleView_each u.words (fun p v => hwr p.1 p.2 v) v)
  have hearly (id : Nat) (v : Work) : idleView (undoEarly id v) = idleView v := by
    unfold undoEarly
    extract_lets w1 w2 w3
    have h1 : idleView w1 = idleView v := idleView_each _ hce v
    have h2 : idleView w2 = idleView w1 := by
      refine idleView_each _ (fun u v => ?_) w1
      rfl
    have h3 : idleView w3 = idleView w2 := by
      refine idleView_each _ (fun u v => ?_) w2
      rfl
    clear_value w3
    exact .trans rfl (h3.trans (h2.trans h1))
  have hxfer (id : Nat) (v : Work) : idleView (dropXfer id v) = idleView v := by
    refine idleView_each _ (fun x v => ?_) { v with d.cmd.xfers := v.d.cmd.xfers.filter _ }
    rfl
  have hfail (st det : Nat) (e : Effect) (v : Work) : idleView (failEffect e st det v) = idleView v :=
    (idleView_report ..).trans ((hxfer _ _).trans ((hearly _ _).trans (hcurve e v)))
  refine idleView_each _ (fun b v => ?_) w
  exact (idleView_report ..).trans (idleView_each _ (hfail stAborted 0x04) v)

/-- What an entry to SAFE_LOCK stops before the state changes. -/
def stopped (w : Work) : Work :=
  let w := disableAll (abortArmed w)
  match w.d.trl.prop with
    | some p =>
      if p.target.isNone then w
      else if p.agreed then { w with d.trl.prop := some { p with target := none } } else dropProposal 0 false w
    | none => w

theorem enterSafeLock_eq (w : Work) :
    enterSafeLock w = setState .safeLock { dropRun (stopped w) with d.sys.trans := false } := by
  unfold enterSafeLock stopped
  generalize disableAll (abortArmed w) = u
  rfl

theorem idleView_stopped (w : Work) : idleView (stopped w) = idleView w := by
  have h1 : idleView (disableAll (abortArmed w)) = idleView w := (idleView_disableAll _).trans (idleView_abortArmed w)
  unfold stopped
  generalize disableAll (abortArmed w) = u at h1
  dsimp only
  split
  · split
    · exact h1
    · split
      · exact h1
      · exact (idleView_dropProposal ..).trans h1
  · exact h1

theorem idleView_dropRun (w : Work) : idleView (dropRun w) = idleView w := by
  unfold dropRun
  split
  · exact idleView_report _ _ { w with d.trl.runWait := none }
  · rfl

/-- SAFE_LOCK entered: the state before is kept, and the window. -/
theorem enterSafeLock_leaves {w : Work} (hst : w.d.sys.st ≠ .safeLock) : (enterSafeLock w).d.sys.st = .safeLock
    ∧ (enterSafeLock w).d.sys.prev = w.d.sys.st ∧ (enterSafeLock w).d.hdg.win = w.d.hdg.win := by
  have hview : idleView (dropRun (stopped w)) = idleView w := (idleView_dropRun _).trans (idleView_stopped w)
  have hwas : (dropRun (stopped w)).d.sys.st = w.d.sys.st := congrArg (·.1) hview
  have hwin : (dropRun (stopped w)).d.hdg.win = w.d.hdg.win := congrArg (·.2.2.2.2.2.2.2) hview
  rw [enterSafeLock_eq]
  generalize dropRun (stopped w) = u at hwas hwin
  have hset : setState .safeLock { u with d.sys.trans := false }
      = irq 10 { u with d.sys.trans := false, d.sys.prev := u.d.sys.st, d.sys.st := .safeLock } :=
    if_neg (show ¬ u.d.sys.st = .safeLock by rw [hwas]; exact hst)
  rw [hset]
  obtain ⟨_, _, h⟩ := irq_frame 10 { u with d.sys.trans := false, d.sys.prev := u.d.sys.st, d.sys.st := .safeLock }
  rw [h]
  exact ⟨rfl, hwas, hwin⟩

end Sys2Proof.Machine

namespace Sys2Proof.Claims

open Sys2Proof.Machine

theorem btest_ends {s : State} (hr : HedgeRuns s) {b : Bool} {w p : Word} (hc : Channel15 b s)
    (hq : queued (!b) 15 s = [[w, p]]) (h2 : bitsOf w 32 4 = 2) (h8 : p.getLsbD 8 = false) (ht : s.dev.hdg.test = none) :
    Ends .btest s fun t =>
      let k := bitsOf p 0 3
      t.dev.hdg.test = some { remote := false, idx := k, conn := k + 1 } ∧ queued (!b) 15 t = []
        ∧ t.dev.hdg.brkP.getLsbD k = false ∧ OutputsRight t.dev.hdg ∧ t.dev.sys = s.dev.sys := by
  rw [bitsOf_eq] at h2
  obtain ⟨hm, hempty⟩ := hedgeHear_one (h := testBegun (fld p 0 3) s.dev.hdg) (hedgeRuns_iff.2 hr)
    (sideOf_of_sideIs hc.1) hq fun u hu => by
      have hh : u.d.hdg = s.dev.hdg := hu.hdg
      unfold hedgeTakes
      rw [show fld (nth 0 [w, p] 0) 32 4 = 2 from h2]
      exact congrArg (setHg · u) ((btTake_local h8 (by rw [hh]; exact ht)).trans (by rw [hh]))
  refine ends_runAny (f := hedgeHear) rfl ?_
  have hh := hm.hdg
  have hsys : (hedgeHear (begin_ s)).d.sys = s.dev.sys := congrArg (·.d.sys) hm
  generalize hedgeHear (begin_ s) = u at hempty hh hsys
  have hdev : (commit s u).dev.hdg = testBegun (fld p 0 3) s.dev.hdg := hh
  dsimp only
  rw [hdev, bitsOf_eq]
  have hk : fld p 0 3 < 8 := by
    rw [fld_eq_div_mod]
    exact Nat.mod_lt _ (by decide)
  exact ⟨rfl, hempty, testBegun_applied hk _, hOutputs_right _, hsys⟩

theorem btStep_ends {s : State} {b : Bool} {w v : Word} {c : CmdRef} {a : Nat} (hl : live s = true) (hc : Channel15 b s)
    (hq : queued b 15 s = [[w, v]]) (h3 : bitsOf w 32 4 = 3) (hbt : s.dev.hdg.btCmd = some (c, a)) (hv : v = 1 ∨ v = 2) :
    Ends .btStep s fun t =>
      queued b 15 t = [] ∧ t.dev.hdg = s.dev.hdg ∧ (∀ k, k ≠ a → servo k t = servo k s)
        ∧ (v = 1 → (servo a s).enabled = true → servo a t = { servo a s with
            bt := some { tq := fOfWord (tabGet 0 (tabGet {} s.dev.pln.axes a : PlnAxis).params 0x120) } })
        ∧ (v = 2 → servo a t = { servo a s with bt := (servo a s).bt.map (fun r => { r with down := true }) }) := by
  rw [bitsOf_eq] at h3
  have hrun := btStep_torque (u := begin_ s) (sideOf_of_sideIs hc.2) hq h3 hbt hv
  obtain ⟨hm, htail, -, -⟩ := mbxDrop_leaves (!b) 15 (begin_ s)
  have hqueue : queueOf b 15 (begin_ s) = [[w, v]] := hq
  rw [Bool.not_not, hqueue] at htail
  have hhdg := hm.hdg
  have hce : (mbxDrop (!b) 15 (begin_ s)).d.ce = s.dev.ce := congrArg (·.d.ce) hm
  refine ends_run (f := btStep) rfl hl ?_
  rw [hrun]
  generalize mbxDrop (!b) 15 (begin_ s) = u at htail hhdg hce
  have hget (k : Nat) : getCe k u = servo k s := by rw [getCe, hce, servo]
  have haxis (k : Nat) (f : CeAxis → CeAxis) : servo k (commit s (modCe a f u)) = if k = a then f (servo a s) else servo k s := by
    rw [← hget, ← hget]
    exact getCe_modCe k a f u
  refine ⟨htail, hhdg, fun k hk => (haxis k _).trans (if_neg hk), ?_, ?_⟩
  · rintro rfl hen
    rw [haxis, if_pos rfl, btTorque, if_pos rfl, if_pos hen]
    rfl
  · rintro rfl
    rw [haxis, if_pos rfl, btTorque, if_neg (by decide)]

section
variable {s : State} {x : BTest} (hx : s.dev.hdg.test = some x)
include hx

theorem engageEnd_eq : engageEnd (begin_ s) = if !hedgeRuns (begin_ s) || x.phase != 0 then begin_ s
    else mbxPut 31 15 [wd (put 32 4 3), 1] (setHg { s.dev.hdg with
      test := some { x with phase := 1, pRef := nth 0 (getConn x.conn s.dev.hdg).data 1 } } (begin_ s)) := by
  unfold engageEnd
  rw [begin_d, hx]

/-- A pass at the end of the hold window. -/
def testPassed (x : BTest) (h : HdgSt) : HdgSt :=
  let h := { h with test := some { x with phase := 2 } }
  if x.remote then putConn x.idx { getConn x.idx h with due := false } h
  else { h with pass := some x.idx, due := bvPut x.idx false h.due, passed := bvPut x.idx true h.passed }

theorem holdEnd_eq : holdEnd (begin_ s) = if !hedgeRuns (begin_ s) || x.phase != 1 then begin_ s
    else if !x.got then btFail x x.maxDev (begin_ s)
    else mbxPut 31 15 [wd (put 32 4 3), 2] (setHg (testPassed x s.dev.hdg) (begin_ s)) := by
  unfold holdEnd testPassed
  rw [begin_d, hx]

/-- The ends of the test's phases belong to their phases. -/
theorem testEnds_still : (x.phase ≠ 0 → exec .engageTimeEnd s = .next s) ∧ (x.phase ≠ 1 → exec .holdWindowEnd s = .next s)
    ∧ (x.phase ≠ 2 → exec .brakeTestEnd s = .next s) := by
  refine ⟨fun h => runAny_unchanged (f := engageEnd) ((engageEnd_eq hx).trans (if_pos ?_)),
    fun h => runAny_unchanged (f := holdEnd) ((holdEnd_eq hx).trans (if_pos ?_)),
    fun h => runAny_unchanged (f := brakeEnd) ?_⟩
  · simp [h]
  · simp [h]
  · unfold brakeEnd
    rw [begin_d, hx]
    exact if_pos (by simp [h])

section
variable (hr : HedgeRuns s)
include hr

theorem engageTimeEnd_ends {b : Bool} (hc : Channel15 b s) (hq : queued b 15 s = []) (h0 : x.phase = 0) :
    Ends .engageTimeEnd s fun t => queued b 15 t = [[BitVec.ofNat 36 (3 * 2 ^ 32), 1]]
      ∧ t.dev.hdg = { s.dev.hdg with test := some { x with phase := 1, pRef := (conn x.conn s.dev.hdg).data.getD 1 0 } } := by
  obtain ⟨hm, hqueue, -, -⟩ := mbxPut_leaves (mid := 31) (c := 15) (b := b) (w := setHg { s.dev.hdg with
    test := some { x with phase := 1, pRef := nth 0 (getConn x.conn s.dev.hdg).data 1 } } (begin_ s))
    (sideOf_of_sideIs hc.1) (ws := [wd (put 32 4 3), 1]) (List.cons_ne_nil _ _) (by decide) hq
  refine ends_runAny (f := engageEnd) rfl ?_
  rw [engageEnd_eq hx, if_neg (by rw [hedgeRuns_iff.2 hr, h0]; decide)]
  have hhdg := hm.hdg
  generalize mbxPut 31 15 _ _ = u at hqueue hhdg
  exact ⟨hqueue, hhdg⟩

theorem holdWindowEnd_passes {b : Bool} (hc : Channel15 b s) (hq : queued b 15 s = []) (h1 : x.phase = 1) (hgot : x.got = true)
    (hlocal : x.remote = false) : Ends .holdWindowEnd s fun t => queued b 15 t = [[BitVec.ofNat 36 (3 * 2 ^ 32), 2]]
      ∧ t.dev.hdg.test = some { x with phase := 2 } ∧ t.dev.hdg.pass = some x.idx ∧ t.dev.hdg.pState = s.dev.hdg.pState
      ∧ (x.idx < 8 → t.dev.hdg.due.getLsbD x.idx = false ∧ t.dev.hdg.passed.getLsbD x.idx = true) := by
  obtain ⟨hm, hqueue, -, -⟩ := mbxPut_leaves (mid := 31) (c := 15) (b := b) (w := setHg (testPassed x s.dev.hdg) (begin_ s))
    (sideOf_of_sideIs hc.1) (ws := [wd (put 32 4 3), 2]) (List.cons_ne_nil _ _) (by decide) hq
  refine ends_runAny (f := holdEnd) rfl ?_
  rw [holdEnd_eq hx, if_neg (by rw [hedgeRuns_iff.2 hr, h1]; decide), if_neg (by simp [hgot])]
  have hhdg : (mbxPut 31 15 [wd (put 32 4 3), 2] (setHg (testPassed x s.dev.hdg) (begin_ s))).d.hdg
      = { s.dev.hdg with
          test := some { x with phase := 2 }, pass := some x.idx, due := bvPut x.idx false s.dev.hdg.due
          passed := bvPut x.idx true s.dev.hdg.passed } :=
    hm.hdg.trans (if_neg (by simp [hlocal]))
  generalize mbxPut 31 15 _ _ = u at hqueue hhdg
  refine ⟨hqueue, ?_⟩
  rw [commit_dev, hhdg]
  exact ⟨rfl, rfl, rfl, fun h8 => ⟨(getLsbD_bvPut _ _ _ _ h8).trans (if_pos rfl), (getLsbD_bvPut _ _ _ _ h8).trans (if_pos rfl)⟩⟩

theorem holdWindowEnd_fails {b : Bool} (hc : Channel15 b s) (hq : queued b 15 s = []) (h1 : x.phase = 1) (hgot : x.got = false)
    (hopen : s.dev.hdg.pState = .open_) : Ends .holdWindowEnd s fun t =>
      Locked 4 x.idx true false s.dev.hdg t.dev.hdg ∧ t.dev.hdg.test = none := by
  obtain ⟨hm, -⟩ := mbxPut_leaves (mid := 31) (c := 15) (b := b) (w := begin_ s) (sideOf_of_sideIs hc.1)
    (ws := [wd (put 32 4 3), 3, 1, wd x.maxDev]) (List.cons_ne_nil _ _) (by simp) hq
  have hhdg : (mbxPut 31 15 [wd (put 32 4 3), 3, 1, wd x.maxDev] (begin_ s)).d.hdg = s.dev.hdg := hm.hdg
  have hfail : btFail x x.maxDev (begin_ s) = setHg (hFault 4 x.idx .p s.dev.hdg)
      (mbxPut 31 15 [wd (put 32 4 3), 3, 1, wd x.maxDev] (begin_ s)) := by
    rw [btFail, hhdg]
  refine ends_runAny (f := holdEnd) rfl ?_
  rw [holdEnd_eq hx, if_neg (by rw [hedgeRuns_iff.2 hr, h1]; decide), if_pos (by simp [hgot]), hfail]
  have hp : true = takes 4 (Who.p == .p || Who.p == .both) s.dev.hdg.pState := by simp [takes, hopen]
  have hl : false = takes 4 (Who.p == .l || Who.p == .both) s.dev.hdg.lState := by simp [takes]
  refine ⟨hFault_locks true false s.dev.hdg hp hl rfl rfl rfl (by simp), ?_⟩
  show (hFault 4 x.idx .p s.dev.hdg).test = none
  rw [hFault_eq hp hl rfl]
  rfl

theorem brakeTestEnd_ends (h2 : x.phase = 2) (hbt : s.dev.hdg.btCmd = none) :
    Ends .brakeTestEnd s (HedgeBecomes { s.dev.hdg with test := none } s) := by
  refine ends_runAny (f := brakeEnd) rfl ?_
  have hrun : brakeEnd (begin_ s) = setHg (hOutputs { s.dev.hdg with test := none }) (begin_ s) := by
    unfold brakeEnd
    rw [begin_d, hx]
    dsimp only
    rw [if_neg (by rw [hedgeRuns_iff.2 hr, h2]; decide),
      show (setHg (hOutputs { s.dev.hdg with test := none }) (begin_ s)).d.hdg.btCmd = none from hbt]
  rw [hrun]
  exact hedgeBecomes_outputs _ s

end

end

/-! Brakes due. -/

theorem pairsOf_le (sw : Nat) : Claims.pairsOf sw ≤ 8 := by
  unfold Claims.pairsOf
  have h : sw / 2 ^ 14 % 4 < 4 := Nat.mod_lt _ (by decide)
  generalize sw / 2 ^ 14 % 4 = n at h
  obtain rfl | rfl | rfl | rfl : n = 0 ∨ n = 1 ∨ n = 2 ∨ n = 3 := by omega
  all_goals decide

section
variable {s : State} (hr : HedgeRuns s)
include hr

theorem brakeDue_ends (k : Fin 64) (hk : k.val < Claims.pairsOf s.dev.hdg.swP) :
    Ends (.brakeDue false k) s fun t => t = withHedge { s.dev.hdg with due := t.dev.hdg.due } s
      ∧ ∀ j, j < 8 → t.dev.hdg.due.getLsbD j = (decide (j = k.val) || s.dev.hdg.due.getLsbD j) := by
  have h8 : k.val < 8 := hk.trans_le (pairsOf_le _)
  refine ends_hedge hr (f := brakeDue false k) (h := { s.dev.hdg with due := bvPut k true s.dev.hdg.due }) rfl (fun hrun => ?_)
    ⟨rfl, fun j _ => ?_⟩
  · unfold brakeDue
    dsimp only
    rw [if_neg (by simp [hrun]), if_neg (by decide), swPairs_eq]
    exact if_pos hk
  · refine (getLsbD_bvPut k.val j true s.dev.hdg.due h8).trans ?_
    by_cases hj : j = k.val <;> simp [hj]

theorem brakes_absent (k : Fin 64) (hk : Claims.pairsOf s.dev.hdg.swP ≤ k.val) :
    exec (.brakeDue false k) s = .next s ∧ exec (.brakeOverdue false k) s = .next s := by
  have hrun := hedgeRuns_iff.2 hr
  have hno : ¬ k.val < swPairs (begin_ s).d.hdg.swP := by
    rw [swPairs_eq]
    exact Nat.not_lt.2 hk
  refine ⟨runAny_unchanged (f := brakeDue false k) ?_, runAny_unchanged (f := brakeOverdue false k) ?_⟩
  · unfold brakeDue
    rw [if_neg (by simp [hrun])]
    exact if_neg hno
  · refine if_neg ?_
    rw [if_neg (by decide), decide_eq_false hno]
    simp

theorem brakeOverdue_ends (k : Fin 64) (hk : k.val < Claims.pairsOf s.dev.hdg.swP) (hdue : s.dev.hdg.due.getLsbD k = true)
    (hopen : s.dev.hdg.pState = .open_) : Ends (.brakeOverdue false k) s fun t =>
      t = withHedge t.dev.hdg s ∧ Locked 5 k true false s.dev.hdg t.dev.hdg := by
  refine ends_hedge hr (f := brakeOverdue false k) (h := hFault 5 k .p s.dev.hdg) rfl (fun hrun => if_pos ?_)
    ⟨rfl, hFault_locks true false s.dev.hdg (by simp [takes, hopen]) (by simp [takes]) rfl rfl rfl (by simp)⟩
  have hin : decide (k.val < swPairs (begin_ s).d.hdg.swP) = true := by
    rw [swPairs_eq]
    exact decide_eq_true hk
  rw [hrun, hin, show (begin_ s).d.hdg.due.getLsbD k = true from hdue]
  rfl

omit hr in
theorem brakeOverdue_still (k : Fin 64) (hdue : s.dev.hdg.due.getLsbD k = false) : exec (.brakeOverdue false k) s = .next s :=
  runAny_unchanged (f := brakeOverdue false k) (if_neg (by
    rw [show (begin_ s).d.hdg.due.getLsbD k = false from hdue]
    simp))

theorem hedgeLOverdue_ends (k : Fin 8) :
    (Claims.pairsOf s.dev.hdg.swL ≤ k.val → exec (.hedgeLOverdue k) s = .next s)
    ∧ (k.val < Claims.pairsOf s.dev.hdg.swL → s.dev.hdg.lState = .open_ → Ends (.hedgeLOverdue k) s fun t =>
      t = withHedge t.dev.hdg s ∧ Locked 5 k false true s.dev.hdg t.dev.hdg ∧ t.dev.hdg.lOverdue.getLsbD k = true) := by
  have hin : decide (k.val < swPairs (begin_ s).d.hdg.swL) = decide (k.val < Claims.pairsOf s.dev.hdg.swL) := by
    rw [swPairs_eq]
    rfl
  constructor
  · intro hk
    refine runAny_unchanged (f := lOverdue k) (if_neg ?_)
    rw [hin, decide_eq_false (Nat.not_lt.2 hk), Bool.and_false]
    decide
  · intro hk hopen
    have hp : false = takes 5 (Who.l == .p || Who.l == .both) s.dev.hdg.pState := by simp [takes]
    have hl : true = takes 5 (Who.l == .l || Who.l == .both) s.dev.hdg.lState := by simp [takes, hopen]
    refine ends_hedge hr (f := lOverdue k) (h := hFault 5 k .l { s.dev.hdg with
      lOverdue := bvPut k true s.dev.hdg.lOverdue }) rfl (fun hrun => if_pos ?_) ⟨rfl, ?_, ?_⟩
    · rw [hin, hrun, decide_eq_true hk]
      rfl
    · exact hFault_locks false true s.dev.hdg hp hl rfl rfl rfl (by simp)
    · show (hFault 5 k .l { s.dev.hdg with lOverdue := bvPut k true s.dev.hdg.lOverdue }).lOverdue.getLsbD k = true
      rw [hFault_eq (h := { s.dev.hdg with lOverdue := bvPut k true s.dev.hdg.lOverdue }) hp hl rfl]
      exact (getLsbD_bvPut _ _ _ _ k.isLt).trans (if_pos rfl)

/-! The window. -/

theorem statusWindowRefresh_next (hst : fromConfig s.dev.sys.st = false) (hboot : s.dev.sys.st ≠ .boot) :
    exec .statusWindowRefresh s = .next (withHedge (WindowShown s.dev.hdg) s) := by
  refine hedge_next hr (f := statusRefresh) rfl fun hrun => ?_
  have hwin : windowRefresh (begin_ s) = setHg (WindowShown s.dev.hdg) (begin_ s) := by
    rw [windowRefresh_eq hrun]
    exact if_pos (by rw [begin_d, hst]; rfl)
  unfold statusRefresh
  rw [hwin]
  refine if_neg ?_
  have hno : lockDecided (setHg (WindowShown s.dev.hdg) (begin_ s)) = false := by
    show (_ && (fromConfig s.dev.sys.st || s.dev.sys.st == .boot) && _ && _) = false
    simp [hst, hboot]
  rw [hno]
  simp

theorem statusWindowRefresh_boot (hst : s.dev.sys.st = .boot) (hdone : s.dev.boot.start = .done) (hdead : s.dev.boot.dead = false)
    (hcyc : s.dev.sys.cycOn = false) (hlock : s.dev.hdg.pState = .locked) : Ends .statusWindowRefresh s fun t =>
      t.dev.hdg.win = hedgeWindow s.dev.hdg ∧ t.dev.sys.st = .safeLock ∧ t.dev.sys.prev = .boot := by
  have hwin : windowRefresh (begin_ s) = setHg (WindowShown s.dev.hdg) (begin_ s) := by
    rw [windowRefresh_eq (hedgeRuns_iff.2 hr)]
    exact if_pos (by rw [begin_d, hst]; rfl)
  have hshown : hdgRead 0 (setHg (WindowShown s.dev.hdg) (begin_ s)) = nth 0 (hedgeWindow s.dev.hdg) 0 := by
    refine if_neg ?_
    have hstate : islandState (WindowShown s.dev.hdg) = .locked := islandState_locked.2 (.inl hlock)
    obtain ⟨hh, hup⟩ := islandUp_iff.2 hr.1
    rw [show hasHedge (setHg (WindowShown s.dev.hdg) (begin_ s)).variant = true from hh,
      show islandUp (setHg (WindowShown s.dev.hdg) (begin_ s)).d.hdg = true from hup,
      show islandState (setHg (WindowShown s.dev.hdg) (begin_ s)).d.hdg = .locked from hstate]
    decide
  have hdec : lockDecided (setHg (WindowShown s.dev.hdg) (begin_ s)) = true := by
    unfold lockDecided windowLocked
    dsimp only
    rw [hshown, (hedgeWindow_locked hlock).1, show (setHg (WindowShown s.dev.hdg) (begin_ s)).d.sys.st = .boot from hst,
      show hasHedge (setHg (WindowShown s.dev.hdg) (begin_ s)).variant = true from hasHedge_iff.2 hr.1.1]
    rfl
  have hrun : statusRefresh (begin_ s) = enterSafeLock (setHg (WindowShown s.dev.hdg) (begin_ s)) := by
    unfold statusRefresh
    rw [hwin]
    refine if_pos ?_
    rw [hdec]
    simp [hdone, hdead, hcyc]
  refine ends_runAny (f := statusRefresh) rfl ?_
  rw [hrun]
  obtain ⟨h1, h2, h3⟩ := enterSafeLock_leaves (w := setHg (WindowShown s.dev.hdg) (begin_ s))
    (show ¬ s.dev.sys.st = .safeLock by rw [hst]; decide)
  generalize enterSafeLock _ = u at h1 h2 h3
  exact ⟨h3, h1, h2.trans hst⟩

theorem statusWindowRefresh_lock (hst : fromConfig s.dev.sys.st = true) (hdead : s.dev.boot.dead = false)
    (hcyc : s.dev.sys.cycOn = true) (hdue : s.dev.hdg.due = 0) (hdues : ∀ c, c < 64 → (conn c s.dev.hdg).due = false)
    (hlock : s.dev.hdg.pState = .locked) (h0 : bitsOf (s.dev.hdg.win.getD 0 0) 0 2 ≠ 2)
    (h2 : bitsOf (s.dev.hdg.win.getD 0 0) 2 2 ≠ 2) : Ends .statusWindowRefresh s fun t =>
      t.dev.hdg = WindowShown s.dev.hdg ∧ bitsOf (t.dev.hdg.win.getD 0 0) 0 2 = 2
        ∧ (logReady s → EventLogged 17 0 1 (s.dev.hdg.fcode % 256) s t) := by
  rw [bitsOf_eq] at h0 h2
  obtain ⟨hlocked, hcode⟩ := hedgeWindow_locked hlock
  obtain ⟨f, hf, hlog⟩ := windowLogged_lock (old := s.dev.hdg.win) (wasDue := s.dev.hdg.winDue) hlocked ⟨h0, h2⟩
    (fun b hb => hedgeWindow_due hdue hb) (setHg (WindowShown s.dev.hdg) (begin_ s))
  rw [hcode] at hlog
  have hwin : windowRefresh (begin_ s) = f (logEvent .hdg 0 1 (s.dev.hdg.fcode % 256) (setHg (WindowShown s.dev.hdg) (begin_ s))) := by
    rw [windowRefresh_eq (hedgeRuns_iff.2 hr), ← hlog]
    refine (if_neg (by rw [begin_d, hst, hdead]; decide)).trans ?_
    rw [begin_d, dueConns_none hdues]
  have hrec := logEvent_records .hdg 0 1 (s.dev.hdg.fcode % 256) (setHg (WindowShown s.dev.hdg) (begin_ s))
  have hevent : logReady s → EventLogged 17 0 1 (s.dev.hdg.fcode % 256) s (commit s
      (logEvent .hdg 0 1 (s.dev.hdg.fcode % 256) (setHg (WindowShown s.dev.hdg) (begin_ s)))) := fun hready =>
    eventLogged_logEvent (s := withHedge (WindowShown s.dev.hdg) s) .hdg (s.dev.hdg.fcode % 256) hready (by decide) (by decide)
  have hsys := hrec.sys
  have hhdg := hrec.hdg
  generalize logEvent .hdg 0 1 (s.dev.hdg.fcode % 256) (setHg (WindowShown s.dev.hdg) (begin_ s)) = u at hwin hevent hsys hhdg
  have hu : ∃ h o, f u = { u with d.hif := h, d.out := o } := by
    obtain hu | hu := hf u
    · exact ⟨_, _, hu⟩
    · obtain ⟨h, o, hirq⟩ := irq_frame 12 u
      exact ⟨h, o, hu.trans hirq⟩
  obtain ⟨_, _, hu⟩ := hu
  have hrun : statusRefresh (begin_ s) = f u := by
    unfold statusRefresh
    rw [hwin]
    refine if_neg ?_
    rw [show (f u).d.sys.cycOn = true by rw [hu]; exact (congrArg (·.cycOn) hsys).trans hcyc]
    simp
  refine ends_runAny (f := statusRefresh) rfl ?_
  rw [hrun, hu]
  refine ⟨hhdg, ?_, hevent⟩
  rw [bitsOf_eq]
  show fld (nth 0 u.d.hdg.win 0) 0 2 = 2
  rw [hhdg]
  exact hlocked

end

end Sys2Proof.Claims

namespace Sys2Proof.Proofs

open Sys2Proof.Machine Sys2Proof.Claims

/-- Settles O59: the brake test message by message, the brakes due, and the window, whose first lock is logged or leads out of
BOOT. -/
theorem brakeTestsAndWindow : Obligations.BrakeTestsAndWindow :=
  ⟨fun _ _ _ _ hr hc hq h2 h8 ht => btest_ends hr hc hq h2 h8 ht,
    fun _ _ _ _ _ _ hl hc hq h3 hbt hv => btStep_ends hl hc hq h3 hbt hv,
    fun _ _ _ hr hc hq hx => ⟨engageTimeEnd_ends hx hr hc hq, holdWindowEnd_passes hx hr hc hq, holdWindowEnd_fails hx hr hc hq,
      brakeTestEnd_ends hx hr, testEnds_still hx⟩,
    fun k _ hr => ⟨brakeDue_ends hr k, brakes_absent hr k, brakeOverdue_ends hr k, fun _ => brakeOverdue_still k⟩,
    fun k _ hr => hedgeLOverdue_ends hr k,
    fun _ hr => ⟨statusWindowRefresh_next hr, statusWindowRefresh_boot hr, statusWindowRefresh_lock hr⟩⟩

end Sys2Proof.Proofs
end

section
/-! SUPPORT. A trigger of the harvest engine: a device on which the statement's reading of "no sample taken yet" fails. -/

namespace Sys2Proof.Claims

open Sys2Proof.Machine

/-- A running device whose set 0 is in PRE on external line 0, both edges; its record counts no sample since arming but says that
one has been taken. -/
def edgeDevice : State :=
  { State.reset with dev := { State.reset.dev with
      boot := { State.reset.dev.boot with start := .done }
      hvs := { State.reset.dev.hvs with
        sets := [(0, { st := 1, taken := 1, desc := List.replicate 64 0 ++ [BitVec.ofNat 36 (2 ^ 16 + 3 * 2 ^ 22)] })] } } }

theorem edgeDevice_waits : live edgeDevice = true ∧ edgeDevice.dev.hvs.xfilt < 1
    ∧ edgeDevice.dev.hvs.xlevel.getLsbD 0 ≠ true ∧ OnLine 0 1 0 true edgeDevice ∧ edgeDevice.dev.therm.state ≠ .hold
    ∧ Waits 0 edgeDevice := by
  unfold OnLine Waits
  decide

/-- The edge fires the set on the sample taken: TRIGGERED, and nothing waits. -/
theorem edgeDevice_fires : (match exec (.xtrigEdge 0 ⟨true, 1⟩ 0 0) edgeDevice with
    | .next t => (capture 0 t).st
    | _ => 1) = 2 := by decide +kernel

end Sys2Proof.Claims

namespace Sys2Proof.Proofs

open Sys2Proof.Machine Sys2Proof.Claims

/-- Refutes O44: "no sample taken yet" is said of the sample count alone, so that a set whose count is 0 but whose record holds a
taken sample is to wait; the edge fires it on that sample. -/
theorem not_harvestTriggers : ¬ Obligations.HarvestTriggers := by
  unfold Obligations.HarvestTriggers
  rintro ⟨hedge, -⟩
  obtain ⟨hl, hfilt, hlevel, hline, hhold, hwaits⟩ := edgeDevice_waits
  obtain ⟨t, ht, -, -, -, htakes⟩ := (hedge 0 true 1 0 0 0 edgeDevice hl (by decide)).2 hfilt hlevel
  have hwaiting := (htakes hline hhold).1 hwaits
  have hfired := edgeDevice_fires
  rw [ht] at hfired
  have hst : (capture 0 t).st = 1 := congrArg HvSet.st hwaiting
  exact absurd (hst.symm.trans hfired) (by decide)

end Sys2Proof.Proofs
end

section
/-! SUPPORT. Capture records, the hold-off and the domain calibration (spec/15 R493, R494, R503). -/

namespace Sys2Proof.Machine

open Sys2Proof.Claims

/-! The words of memory. -/

/-- A word outside the banks is not listed. -/
theorem memRead_outside {m : Mem} (hm : memWf m = true) {a : Nat} (ha : isBank a = false) : memRead m a = 0 := by
  obtain ⟨-, hbank⟩ := (Bool.and_eq_true _ _).to_iff.1 hm
  refine tabGet_of_not_key fun kv hkv he => ?_
  have h := List.all_eq_true.1 hbank kv hkv
  rw [he, ha] at h
  cases h

/-- The first word written after the others. -/
theorem rd_wr_wrs (v : Word) (r : List Word) (a : Nat) (w : Work) (x : Nat) : rd x (wr a v (wrs (a + 1) r w)) =
    if a ≤ x ∧ x < a + (r.length + 1) ∧ isBank x = true ∧ groupOn x w = true then (v :: r).getD (x - a) 0 else rd x w := by
  obtain ⟨_, _, _, h⟩ := wrs_frame r (a + 1) w
  have hon : groupOn a (wrs (a + 1) r w) = groupOn a w := by rw [h]; rfl
  rw [rd_wr, hon, rd_wrs]
  by_cases hx : x = a
  · subst hx
    by_cases hb : isBank x = true ∧ groupOn x w = true
    · rw [if_pos ⟨rfl, hb⟩, if_pos ⟨by omega, by omega, hb⟩, Nat.sub_self]
      rfl
    · rw [if_neg (fun h => hb h.2), if_neg (fun h => by omega), if_neg (fun h => hb h.2.2)]
  · rw [if_neg (fun h => hx h.1)]
    by_cases hin : a + 1 ≤ x ∧ x < a + 1 + r.length ∧ isBank x = true ∧ groupOn x w = true
    · obtain ⟨h1, h2, hb⟩ := hin
      rw [if_pos ⟨h1, h2, hb⟩, if_pos ⟨by omega, by omega, hb⟩, show x - a = (x - (a + 1)) + 1 by omega, List.getD_cons_succ]
    · rw [if_neg hin, if_neg (fun h => hin ⟨by omega, by omega, h.2.2⟩)]

/-! What a report tells the host. -/

/-- Messages sent out are added to those before. -/
theorem irq_out (i : Nat) (w : Work) : w.d.out <+: (irq i w).d.out := by
  unfold irq irqAssert
  dsimp only
  split
  · split
    · exact List.prefix_rfl
    · split
      · exact List.prefix_rfl
      · exact List.prefix_append _ _
  · exact List.prefix_rfl

theorem logEvent_out (b : Blk) (i c x : Nat) (w : Work) : w.d.out <+: (logEvent b i c x w).d.out := by
  have hwrs (a : Nat) (l : List Word) (v : Work) : (wrs a l v).d.out = v.d.out := by
    obtain ⟨_, _, _, h⟩ := wrs_frame l a v
    rw [h]
  unfold logEvent ptStamp freeN
  dsimp only
  split
  · refine .trans ?_ (irq_out 6 _)
    refine .trans ?_ (irq_out 5 _)
    dsimp only
    rw [hwrs]
  · refine .trans ?_ (irq_out 5 _)
    dsimp only
    rw [hwrs]

/-! A capture record. -/

theorem getSet_setSet (k j : Nat) (x : HvSet) (w : Work) : getSet k (setSet j x w) = if k = j then x else getSet k w :=
  tabGet_tabSet _ _ _ _ _

/-- The bits of the first word of a record. -/
theorem recordHead_bits (b34 b33 b32 b31 : Bool) (x y z : Nat) :
    let v := wd (putB 35 true + putB 34 b34 + putB 33 b33 + putB 32 b32 + putB 31 b31 + put 28 3 x + put 24 4 y + put 0 2 z)
    v.getLsbD 35 = true ∧ v.getLsbD 34 = b34 := by
  have hn : putB 35 true + putB 34 b34 + putB 33 b33 + putB 32 b32 + putB 31 b31 + put 28 3 x + put 24 4 y + put 0 2 z
      = 34359738368 + b34.toNat * 17179869184 + b33.toNat * 8589934592 + b32.toNat * 4294967296 + b31.toNat * 2147483648
        + x % 8 * 268435456 + y % 16 * 16777216 + z % 4 := by
    simp only [put_mod, putB_eq, Bool.toNat_true]
    omega
  have h33 := b33.toNat_le
  have h32 := b32.toNat_le
  have h31 := b31.toNat_le
  dsimp only
  rw [hn]
  generalize hm : 34359738368 + b34.toNat * 17179869184 + b33.toNat * 8589934592 + b32.toNat * 4294967296
    + b31.toNat * 2147483648 + x % 8 * 268435456 + y % 16 * 16777216 + z % 4 = n
  have h34 := b34.toNat_le
  have bit35 : n % 2 ^ 36 / 2 ^ 35 % 2 = 1 := by omega
  have bit34 : n % 2 ^ 36 / 2 ^ 34 % 2 = b34.toNat := by omega
  rw [BitVec.getLsbD, BitVec.getLsbD, wd, BitVec.toNat_ofNat, Nat.testBit_eq_decide_div_mod_eq, Nat.testBit_eq_decide_div_mod_eq,
    bit35, bit34]
  cases b34
  · exact ⟨rfl, rfl⟩
  · exact ⟨rfl, rfl⟩

/-- The words of a record written, and the host told. -/
def recordWritten (a : Nat) (ws : List Word) (w : Work) : Work := irq 14 (wr a (nth 0 ws 0) (wrs (a + 1) (ws.drop 1) w))

theorem recordWritten_leaves (a : Nat) (ws : List Word) (w : Work) :
    (recordWritten a ws w).d.hvs = w.d.hvs ∧ (recordWritten a ws w).base = w.base := by
  unfold recordWritten
  obtain ⟨_, _, h⟩ := irq_frame 14 (wr a (nth 0 ws 0) (wrs (a + 1) (ws.drop 1) w))
  rw [h]
  obtain ⟨_, _, _, h⟩ := wr_frame a (nth 0 ws 0) (wrs (a + 1) (ws.drop 1) w)
  rw [h]
  obtain ⟨_, _, _, h⟩ := wrs_frame (ws.drop 1) (a + 1) w
  rw [h]
  exact ⟨rfl, rfl⟩

theorem rd_recordWritten (a : Nat) (v : Word) (r : List Word) (w : Work) (x : Nat) : rd x (recordWritten a (v :: r) w) =
    if a ≤ x ∧ x < a + (r.length + 1) ∧ isBank x = true ∧ groupOn x w = true then (v :: r).getD (x - a) 0 else rd x w := by
  rw [← rd_wr_wrs, recordWritten]
  obtain ⟨_, _, h⟩ := irq_frame 14 (wr a (nth 0 (v :: r) 0) (wrs (a + 1) ((v :: r).drop 1) w))
  rw [h]
  rfl

/-- A set frozen, or held. -/
def frozen (f : BitVec 64) (x : HvSet) : HvSet :=
  { x with st := (if x.linked && !x.maskFail then 4 else 3), freezeFrc := some f, events := 0, holdLost := 0 }

theorem captureFreeze_eq {k : Nat} {w : Work} (h2 : (getSet k w).st = 2) (h0 : (getSet k w).left = 0) : captureFreeze k w =
    setSet k (frozen w.d.phase.frcSync (getSet k w))
      (recordWritten (recordAt_ k (getSet k w) w) (hvsRecord (getSet k w) w.d.phase.frcSync) w) :=
  if_neg (by simp [h2, h0])

end Sys2Proof.Machine

namespace Sys2Proof.Claims

open Sys2Proof.Machine

theorem dSegs_eq (k : Nat) (s : State) : dSegs (capture k s).desc = descField k 64 12 4 s + 1 :=
  congrArg (· + 1) (fld_eq_div_mod _ 12 4)

theorem recordAt_begin (k : Nat) (s : State) : recordAt_ k (capture k s) (begin_ s) = recordOf k s := by
  rw [recordAt_, dSegs_eq]
  rfl

theorem captureFreeze_still (k : Fin 8) (s : State) (h : (capture k s).st ≠ 2 ∨ (capture k s).left ≠ 0) :
    exec (.captureFreeze k) s = .next s := by
  refine run_still (f := captureFreeze k) (if_pos ?_)
  obtain h | h := h
  · simp [show getSet k (begin_ s) = capture k s from rfl, h]
  · simp [show getSet k (begin_ s) = capture k s from rfl, h]

/-- A set of a state after one of its sets was changed. -/
theorem capture_setSet {s : State} {u : Work} (hu : u.d.hvs = s.dev.hvs) (k j : Nat) (x : HvSet) :
    capture k (commit s (setSet j x u)) = if k = j then x else capture k s := by
  have h : getSet k u = capture k s := by rw [getSet, hu, capture]
  rw [← h]
  exact getSet_setSet k j x u

theorem captureFreeze_ends {k : Fin 8} {s : State} (hl : live s = true) (h2 : (capture k s).st = 2) (h0 : (capture k s).left = 0)
    (hg : s.dev.boot.bgrp = 0xFF) (hlo : 0x400000 ≤ recordOf k s) (hhi : recordOf k s + 16 ≤ 0x800000) :
    Ends (.captureFreeze k) s fun t =>
      let x := capture k s
      let f := s.dev.phase.frcSync
      let r := fun n => memRead t.mem (recordOf k s + n)
      capture k t = { x with
          st := if x.linked = true ∧ x.maskFail = false then 4 else 3, freezeFrc := some f, events := 0, holdLost := 0 }
        ∧ CapturesKept (fun j => j = k.val) s t
        ∧ (r 0).getLsbD 35 = true ∧ (r 0).getLsbD 34 = x.maskFail ∧ r 1 = x.tncc
        ∧ r 2 = BitVec.ofNat 36 (x.tfrc.toNat / 2 ^ 36) ∧ r 3 = BitVec.ofNat 36 x.tfrc.toNat
        ∧ r 4 = BitVec.ofNat 36 (f.toNat / 2 ^ 36) ∧ r 5 = BitVec.ofNat 36 f.toNat
        ∧ r 6 = BitVec.ofNat 36 x.tpre ∧ r 7 = BitVec.ofNat 36 x.tpos
        ∧ ∀ a, (a < recordOf k s ∨ recordOf k s + 16 ≤ a) → memRead t.mem a = memRead s.mem a := by
  have hrun : captureFreeze k (begin_ s) = setSet k (frozen s.dev.phase.frcSync (capture k s))
      (recordWritten (recordOf k s) (hvsRecord (capture k s) s.dev.phase.frcSync) (begin_ s)) := by
    rw [← recordAt_begin]
    exact captureFreeze_eq (w := begin_ s) h2 h0
  obtain ⟨hhvs, hbase⟩ := recordWritten_leaves (recordOf k s) (hvsRecord (capture k s) s.dev.phase.frcSync) (begin_ s)
  have hhead := recordHead_bits (capture k s).maskFail (capture k s).rchg (capture k s).gap (capture k s).latew
    (capture k s).tkind ((capture k s).capture % dSegs (capture k s).desc) (capture k s).tfine
  have hread (a : Nat) := rd_recordWritten (recordOf k s) (nth 0 (hvsRecord (capture k s) s.dev.phase.frcSync) 0)
    ((hvsRecord (capture k s) s.dev.phase.frcSync).drop 1) (begin_ s) a
  change ∀ a, rd a (recordWritten (recordOf k s) (hvsRecord (capture k s) s.dev.phase.frcSync) (begin_ s)) =
    if recordOf k s ≤ a ∧ a < recordOf k s + 16 ∧ isBank a = true ∧ groupOn a (begin_ s) = true then
      (hvsRecord (capture k s) s.dev.phase.frcSync).getD (a - recordOf k s) 0 else rd a (begin_ s) at hread
  refine ends_run (f := captureFreeze k) rfl hl ?_
  rw [hrun]
  generalize recordWritten (recordOf k s) (hvsRecord (capture k s) s.dev.phase.frcSync) (begin_ s) = u at hhvs hbase hread
  have hcap (j : Nat) := capture_setSet hhvs j k (frozen s.dev.phase.frcSync (capture k s))
  have hmem (a : Nat) : memRead (commit s (setSet k (frozen s.dev.phase.frcSync (capture k s)) u)).mem a = rd a u :=
    memRead_commit s _ hbase a
  generalize commit s (setSet k (frozen s.dev.phase.frcSync (capture k s)) u) = t at hcap hmem ⊢
  have hword (n : Nat) (hn : n < 16) :
      memRead t.mem (recordOf k s + n) = (hvsRecord (capture k s) s.dev.phase.frcSync).getD n 0 := by
    have hbank : isBank (recordOf k s + n) = true :=
      Bool.and_eq_true_iff.2 ⟨decide_eq_true (hlo.trans (Nat.le_add_right _ _)), decide_eq_true (by
        have : bankHi = 0x800000 := rfl
        omega)⟩
    rw [hmem, hread, if_pos ⟨by omega, by omega, hbank, groupOn_all hg _⟩, Nat.add_sub_cancel_left]
  have h0 := hword 0 (by decide)
  refine ⟨(hcap k).trans ((if_pos rfl).trans ?_), fun j _ hj => (hcap j).trans (if_neg hj), ?_, ?_, hword 1 (by decide),
    hword 2 (by decide), hword 3 (by decide), hword 4 (by decide), hword 5 (by decide), hword 6 (by decide), hword 7 (by decide),
    fun a ha => ?_⟩
  · simp only [frozen, Bool.and_eq_true, Bool.not_eq_true']
  · exact (congrArg (·.getLsbD 35) h0).trans hhead.1
  · exact (congrArg (·.getLsbD 34) h0).trans hhead.2
  · rw [hmem, hread, if_neg (by omega)]
    rfl

/-- The hold-off of a set is over. -/
def HoldGone (k : Nat) (s : State) : Prop :=
  if descField k 70 34 2 s = 1 then descField k 70 0 24 s ≤ (capture k s).events
  else ∀ f, (capture k s).freezeFrc = some f →
    250 * descField k 70 0 24 s + (capture k s).holdLost ≤ (s.dev.phase.frcSync - f).toNat

theorem holdOver_iff {k : Nat} {s : State} : holdOver (capture k s) (begin_ s) = true ↔ HoldGone k s := by
  have hkind : dHkind (capture k s).desc = descField k 70 34 2 s := fld_eq_div_mod _ 34 2
  have hval : dHval (capture k s).desc = descField k 70 0 24 s := fld_eq_div_mod _ 0 24
  unfold holdOver HoldGone
  rw [hkind, hval]
  by_cases h1 : descField k 70 34 2 s = 1
  · simp [h1]
  · rw [if_neg (by simpa using h1), if_neg h1]
    cases (capture k s).freezeFrc with
    | none => simp
    | some f =>
      rw [show (∀ g, some f = some g → 250 * descField k 70 0 24 s + (capture k s).holdLost
        ≤ (s.dev.phase.frcSync - g).toNat) ↔ _ from ⟨fun h => h f rfl, fun h g hg => Option.some.inj hg ▸ h⟩]
      exact decide_eq_true_iff

/-- The condition of HOLD_OFF_END. -/
theorem holdOffEnd_cond {k : Nat} {s : State} : ((getSet k (begin_ s)).st == 4 && (begin_ s).d.therm.state != .hold
    && holdOver (getSet k (begin_ s)) (begin_ s)) = true
      ↔ (capture k s).st = 4 ∧ s.dev.therm.state ≠ .hold ∧ HoldGone k s := by
  rw [Bool.and_eq_true, Bool.and_eq_true, beq_iff_eq, bne_iff_ne, and_assoc]
  exact and_congr Iff.rfl (and_congr Iff.rfl holdOver_iff)

theorem holdOffEnd_still (k : Fin 8) (s : State) (h : (capture k s).st ≠ 4 ∨ s.dev.therm.state = .hold ∨ ¬ HoldGone k s) :
    exec (.holdOffEnd k) s = .next s :=
  run_still (f := holdOffEnd k) (if_neg fun hc => by
    obtain ⟨h4, hhold, hgone⟩ := holdOffEnd_cond.1 hc
    obtain h | h | h := h
    · exact h h4
    · exact hhold h
    · exact h hgone)

/-- A set in PRE on its next segment, at a sync point. -/
def nextCapture (f : BitVec 64) (x : HvSet) : HvSet :=
  { x with
    capture := x.capture + 1, st := 1, pos := 0, taken := 0, count := 0, maskFail := false, msig := 0, mpt := 0, midx := 0
    mark := none, rchg := false, gap := false, latew := false, tkind := 0, tcount := 0, tpos := 0, tpre := 0, tncc := 0
    tfrc := 0, tfine := 0, left := 0, waiting := none, events := 0, holdLost := 0, armFrc := f, suspended := false }

theorem holdOffEnd_ends {k : Fin 8} {s : State} (hl : live s = true) (h4 : (capture k s).st = 4)
    (hhold : s.dev.therm.state ≠ .hold) (hgone : HoldGone k s) : Ends (.holdOffEnd k) s fun t =>
      let x := capture k s
      let y := capture k t
      y.st = 1 ∧ y.capture = x.capture + 1 ∧ y.pos = 0 ∧ y.count = 0 ∧ y.events = 0 ∧ y.waiting = none ∧ y.desc = x.desc
        ∧ y.armFrc = s.dev.phase.frcSync ∧ CapturesKept (fun j => j = k.val) s t
        ∧ (Safety.Inv s → memRead t.mem (recordOf k t) = 0 ∨ s.dev.boot.bgrp.getLsbD (recordOf k t % 32 / 4) = false)
        ∧ ∀ a, a ≠ recordOf k t → memRead t.mem a = memRead s.mem a := by
  obtain ⟨y, hy⟩ : ∃ y, y = nextCapture s.dev.phase.frcSync (capture k s) := ⟨_, rfl⟩
  have hrun : holdOffEnd k (begin_ s) = wr (recordAt_ k y (begin_ s)) 0 (setSet k y (begin_ s)) := by
    rw [hy]
    exact if_pos (holdOffEnd_cond.2 ⟨h4, hhold, hgone⟩)
  refine ends_run (f := holdOffEnd k) rfl hl ?_
  rw [hrun]
  obtain ⟨ops, e, c, hw⟩ := wr_frame (recordAt_ k y (begin_ s)) 0 (setSet k y (begin_ s))
  have hcap (j : Nat) : capture j (commit s (wr (recordAt_ k y (begin_ s)) 0 (setSet k y (begin_ s))))
      = if j = k.val then y else capture j s := by
    rw [hw]
    exact getSet_setSet j k y (begin_ s)
  have hdbase : (commit s (wr (recordAt_ k y (begin_ s)) 0 (setSet k y (begin_ s)))).dev.hvs.dbase = s.dev.hvs.dbase := by
    rw [hw]
    rfl
  have hread (a : Nat) : memRead (commit s (wr (recordAt_ k y (begin_ s)) 0 (setSet k y (begin_ s)))).mem a
      = if a = recordAt_ k y (begin_ s) ∧ isBank (recordAt_ k y (begin_ s)) = true
          ∧ groupOn (recordAt_ k y (begin_ s)) (begin_ s) = true then 0 else memRead s.mem a :=
    (memRead_commit s _ (by rw [hw]; rfl) a).trans (rd_wr _ _ (setSet k y (begin_ s)) a)
  generalize commit s (wr (recordAt_ k y (begin_ s)) 0 (setSet k y (begin_ s))) = t at hcap hdbase hread
  have hme : capture k t = y := (hcap k).trans (if_pos rfl)
  have hrec : recordAt_ k y (begin_ s) = recordOf k t := by
    rw [recordOf, ← dSegs_eq, hme, hdbase, recordAt_]
    rfl
  rw [hrec] at hread
  dsimp only
  rw [hme, hy]
  refine ⟨rfl, rfl, rfl, rfl, rfl, rfl, rfl, rfl, fun j _ hj => (hcap j).trans (if_neg hj), fun hinv => ?_, fun a ha => ?_⟩
  · by_cases hon : groupOn (recordOf k t) (begin_ s) = true
    · left
      rw [hread]
      by_cases hb : isBank (recordOf k t) = true
      · exact if_pos ⟨rfl, hb, hon⟩
      · rw [if_neg (fun h => hb h.2.1)]
        exact memRead_outside hinv (by simpa using hb)
    · exact .inr (Bool.eq_false_of_not_eq_true hon)
  · rw [hread, if_neg (fun h => ha h.1)]

/-! The domain calibration. -/

/-- The compensation in force. -/
def compensated (ok : Bool) (c : Int) (d : Nat) (s : State) : HvsSt := { s.dev.hvs with calOk := ok, dcomp := c, tcomp := d }

/-- A station's probe sent, with the compensation that holds then. -/
def probed (h : HvsSt) (w : Work) : Work := { send (.tbus 0) w with d.hvs := h }

theorem domainCalibration_still (got : Bool) (a r : Nat) (s : State) (h : s.dev.hvs.s0 = none ∨ s.dev.sys.domain = false) :
    exec (.domainCalibration got a r) s = .next s := by
  refine run_still (f := domCalibrate got a r) (if_pos ?_)
  obtain h | h := h
  · simp [h]
  · simp [h]

section
variable {s : State} (hl : live s = true) (hs0 : s.dev.hvs.s0 ≠ none) (hdom : s.dev.sys.domain = true)
include hl hs0 hdom

theorem domainCalibration_master (got : Bool) (a r : Nat) (hm : s.dev.hvs.didx = 0) : exec (.domainCalibration got a r) s
    = .next (withDev s { s.dev with hvs := compensated true 0 0 s, out := s.dev.out ++ [.tbus 0, .tbus 0, .tbus 0] }) := by
  refine run_units (f := domCalibrate got a r) hl ((if_neg (by simp [hdom, hs0])).trans ((if_pos (by simp [hm])).trans ?_))
  simp [send, compensated, begin_, List.append_assoc]

/-- A station's probe is sent, and the compensation follows from what came back. -/
theorem domainCalibration_station (got : Bool) (a r : Nat) (hm : s.dev.hvs.didx ≠ 0) : Ends (.domainCalibration got a r) s fun t =>
    let d : Int := ((r : Int) - 2000) / 2
    let c : Int := 1000 + d - a
    s.dev.out ++ [.tbus 0] <+: t.dev.out
      ∧ (got = true ∧ 0 ≤ d ∧ d ≤ 60 ∧ -60 ≤ c ∧ c ≤ 60 → t.dev.hvs = compensated true c d.toNat s)
      ∧ (¬ (got = true ∧ 0 ≤ d ∧ d ≤ 60 ∧ -60 ≤ c ∧ c ≤ 60) → t.dev.hvs = compensated false 0 0 s
        ∧ (logReady s → EventLogged 18 0 4 0 s t)) := by
  have hrun : domCalibrate got a r (begin_ s) =
      if got && decide (0 ≤ ((r : Int) - 2000) / 2) && decide (((r : Int) - 2000) / 2 ≤ 60)
          && decide (-60 ≤ 1000 + ((r : Int) - 2000) / 2 - a) && decide (1000 + ((r : Int) - 2000) / 2 - a ≤ 60) then
        logEvent .hvs 0 3 (put 16 16 (BitVec.ofInt 16 (1000 + ((r : Int) - 2000) / 2 - a)).toNat
          + put 0 16 (((r : Int) - 2000) / 2).toNat)
            (probed (compensated true (1000 + ((r : Int) - 2000) / 2 - a) (((r : Int) - 2000) / 2).toNat s) (begin_ s))
      else logEvent .hvs 0 4 0 (probed (compensated false 0 0 s) (begin_ s)) :=
    (if_neg (by simp [hdom, hs0])).trans (if_neg (by simp [hm]))
  dsimp only
  generalize ((r : Int) - 2000) / 2 = d at hrun
  generalize (1000 : Int) + d - a = c at hrun
  refine ends_run (f := domCalibrate got a r) rfl hl ?_
  rw [hrun]
  by_cases hok : got = true ∧ 0 ≤ d ∧ d ≤ 60 ∧ -60 ≤ c ∧ c ≤ 60
  · rw [if_pos (by simp [hok])]
    exact ⟨logEvent_out .hvs 0 3 _ (probed (compensated true c d.toNat s) (begin_ s)), fun _ => logEvent_hvs ..,
      fun hno => absurd hok hno⟩
  · rw [if_neg (by simpa [and_assoc] using hok)]
    exact ⟨logEvent_out .hvs 0 4 0 (probed (compensated false 0 0 s) (begin_ s)), fun h => absurd h hok,
      fun _ => ⟨logEvent_hvs .., fun hready => eventLogged_logEvent (s := withDev s { s.dev with
        hvs := compensated false 0 0 s, out := s.dev.out ++ [.tbus 0] }) .hvs 0 hready (by decide) (by decide)⟩⟩

end

end Sys2Proof.Claims

namespace Sys2Proof.Proofs

open Sys2Proof.Machine Sys2Proof.Claims

/-- Settles O45: the record word by word, the next segment, and the three outcomes of a calibration. -/
theorem harvestCaptures : Obligations.HarvestCaptures :=
  ⟨fun k s hl => ⟨captureFreeze_still k s, captureFreeze_ends hl⟩, fun k s hl => ⟨holdOffEnd_still k s, holdOffEnd_ends hl⟩,
    fun got a r s hl => ⟨domainCalibration_still got a r s, fun hs0 hdom =>
      ⟨domainCalibration_master hl hs0 hdom got a r, domainCalibration_station hl hs0 hdom got a r⟩⟩⟩

end Sys2Proof.Proofs
end

section
/-! SUPPORT. PCI Express accesses: the words of slots written and read, and configuration requests (spec/02 R34, R35, spec/20 R594,
R595, R598). -/

namespace Sys2Proof.Machine

open Sys2Proof.Claims

/-! Words written one after the other. -/

/-- A bus write of a bank word. -/
def bankPut (a : Nat) (f : Nat → Word) (k : Nat) (w : Work) : Work := wr (a + k) (f k) (groupAccess (a + k) w)

theorem groupAccess_on {a : Nat} {w : Work} (h : groupOn a w = true) :
    groupAccess a w = { w with d.mem.offRun := bvPut (groupOf a) false w.d.mem.offRun } := if_pos h

theorem pageCrc_congr {p : Nat} {v w : Work} (h : ∀ k, k < 256 → rd (256 * p + k) v = rd (256 * p + k) w) :
    pageCrc p v = pageCrc p w := by
  unfold pageCrc
  rw [List.map_congr_left fun k hk => h k (List.mem_range.1 hk)]

/-- A page's CRC that follows a write is the one of its words. -/
theorem crcPage_crc (p : Nat) (w : Work) : (crcPage p w).d.mem.pageCrc = if isStatic p w then
    tabSet zeroPageCrc w.d.mem.pageCrc p (pageCrc p (crcPage p w)) else w.d.mem.pageCrc := by
  have hsame : pageCrc p (crcPage p w) = pageCrc p w :=
    pageCrc_congr fun k _ => by rw [rd, crcPage_ops, crcPage_base, rd]
  rw [hsame]
  unfold crcPage
  by_cases hs : isStatic p w = true
  · rw [if_pos hs, if_pos hs]
  · rw [if_neg hs, if_neg hs]

/-- What n words written from an address on leave: the words, no other word, and the CRC of each static page among theirs. -/
structure PutsLeave (a : Nat) (f : Nat → Word) (n : Nat) (w v : Work) : Prop where
  frame : ∃ o e c r, v = { w with ops := o, d.mem.ecc := e, d.mem.pageCrc := c, d.mem.offRun := r }
  reads : ∀ x, rd x v = if a ≤ x ∧ x < a + n then f (x - a) else rd x w
  crcs : ∀ k, k < n → isStatic ((a + k) / 256) w = true →
    tabGet zeroPageCrc v.d.mem.pageCrc ((a + k) / 256) = pageCrc ((a + k) / 256) v

theorem bankPut_leaves {a n : Nat} {f : Nat → Word} {w u : Work} (hg : w.d.boot.bgrp = 0xFF) (hlo : bankLo ≤ a)
    (hhi : a + n < bankHi) (h : PutsLeave a f n w u) : PutsLeave a f (n + 1) w (bankPut a f n u) := by
  obtain ⟨⟨o, e, c, r, hu⟩, hreads, hcrcs⟩ := h
  have hon (x : Nat) : groupOn x u = true := groupOn_all (by rw [hu]; exact hg) x
  have hput : bankPut a f n u = wr (a + n) (f n) { u with d.mem.offRun := bvPut (groupOf (a + n)) false u.d.mem.offRun } := by
    rw [bankPut, groupAccess_on (hon _)]
  have hread (x : Nat) : rd x (bankPut a f n u) = if x = a + n then f n else rd x u := by
    rw [hput, rd_wr]
    have hbank : isBank (a + n) = true :=
      Bool.and_eq_true_iff.2 ⟨decide_eq_true (by omega), decide_eq_true (by omega)⟩
    by_cases hx : x = a + n
    · rw [if_pos ⟨hx, hbank, hon _⟩, if_pos hx]
    · rw [if_neg (fun h => hx h.1), if_neg hx]
      rfl
  have hcrc : (bankPut a f n u).d.mem.pageCrc = if isStatic ((a + n) / 256) w then
      tabSet zeroPageCrc u.d.mem.pageCrc ((a + n) / 256) (pageCrc ((a + n) / 256) (bankPut a f n u)) else u.d.mem.pageCrc := by
    have hst : isStatic ((a + n) / 256) w = isStatic ((a + n) / 256) u := by rw [hu]; rfl
    have hwr : bankPut a f n u = crcPage ((a + n) / 256) { u with
        ops := .word (a + n) (f n) :: u.ops, d.mem.ecc := tabSet 0 u.d.mem.ecc (a + n) 0
        d.mem.offRun := bvPut (groupOf (a + n)) false u.d.mem.offRun } := by
      rw [hput]
      exact if_pos (hon _)
    rw [hst, hwr]
    exact crcPage_crc ..
  refine ⟨?_, fun x => ?_, fun k hk hs => ?_⟩
  · rw [hput]
    obtain ⟨o', e', c', hw⟩ := wr_frame (a + n) (f n) { u with d.mem.offRun := bvPut (groupOf (a + n)) false u.d.mem.offRun }
    rw [hw, hu]
    exact ⟨_, _, _, _, rfl⟩
  · rw [hread, hreads]
    by_cases hx : x = a + n
    · rw [if_pos hx, if_pos ⟨by omega, by omega⟩, hx, Nat.add_sub_cancel_left]
    · rw [if_neg hx]
      by_cases hin : a ≤ x ∧ x < a + n
      · rw [if_pos hin, if_pos ⟨hin.1, by omega⟩]
      · rw [if_neg hin, if_neg (by omega)]
  · by_cases hp : (a + k) / 256 = (a + n) / 256
    · rw [hcrc, hp, if_pos (hp ▸ hs)]
      exact tabGet_tabSet_same ..
    · have hk' : k < n := by
        by_contra hno
        exact hp (by rw [show k = n by omega])
      have hsame : pageCrc ((a + k) / 256) (bankPut a f n u) = pageCrc ((a + k) / 256) u :=
        pageCrc_congr fun j hj => (hread _).trans (if_neg (by omega))
      rw [hsame, ← hcrcs k hk' hs, hcrc]
      split
      · exact tabGet_tabSet_other _ _ _ _ _ hp
      · rfl

theorem bankPuts_leave {a : Nat} {f : Nat → Word} {w : Work} (hg : w.d.boot.bgrp = 0xFF) (hlo : bankLo ≤ a) :
    ∀ n, a + n ≤ bankHi → PutsLeave a f n w (each (List.range n) (bankPut a f) w)
  | 0, _ => ⟨⟨_, _, _, _, rfl⟩, fun x => (if_neg (by omega)).symm, fun k hk => absurd hk (Nat.not_lt_zero k)⟩
  | n + 1, hn => by
    rw [each_range_succ]
    exact bankPut_leaves hg hlo (by omega) (bankPuts_leave hg hlo n (by omega))

/-! Slots. -/

theorem slotWord_some (l : List (BitVec 8)) : slotWord ((l.map some).filterMap id) = slotOf l := by
  have hbytes : (l.map some).filterMap id = l := by simp
  have hval : ofBytesLE (l.map BitVec.toNat) = l.foldr (fun b n => b.toNat + 256 * n) 0 := by
    clear hbytes
    induction l with
    | nil => rfl
    | cons b l ih =>
      rw [List.map_cons, ofBytesLE, List.foldr_cons, ih, Nat.mod_eq_of_lt b.isLt]
  rw [hbytes, slotWord, hval]
  rfl

theorem slotBytes_eq (v : Word) : slotBytes v = slotData v := by
  unfold slotBytes slotData bytesLE
  rw [List.map_map]
  refine List.map_congr_left fun k _ => BitVec.eq_of_toNat_eq ?_
  rw [Function.comp_apply, Nat.shiftRight_eq_div_pow, BitVec.toNat_ofNat, BitVec.toNat_ofNat]
  omega

theorem each_map {α β σ : Type} (g : α → β) (f : β → σ → σ) (l : List α) (s : σ) :
    each (l.map g) f s = each l (fun a => f (g a)) s := by
  induction l generalizing s with
  | nil => rfl
  | cons a l ih => exact ih (f (g a) s)

theorem each_congr {α σ : Type} {f g : α → σ → σ} (l : List α) (h : ∀ a ∈ l, ∀ s, f a s = g a s) (s : σ) :
    each l f s = each l g s := by
  induction l generalizing s with
  | nil => rfl
  | cons a l ih =>
    show each l f (f a s) = each l g (g a s)
    rw [h a List.mem_cons_self, ih fun b hb => h b (List.mem_cons_of_mem _ hb)]

/-- Whole slots are the words of their bytes. -/
theorem pcieWrites_whole {off : Nat} {bs : List (BitVec 8)} (h8 : bs.length % 8 = 0) (hin : off + bs.length / 8 ≤ 0x400000)
    (w : Work) : pcieWrites true (8 * off) (bs.map some) w
      = each (List.range (bs.length / 8)) (bankPut (bankLo + off) fun k => slotOf ((bs.drop (8 * k)).take 8)) w := by
  have hslots : pcieSlots (8 * off) (bs.map some)
      = (List.range (bs.length / 8)).map fun k => ((bs.drop (8 * k)).take 8).map some := by
    unfold pcieSlots
    dsimp only
    rw [Nat.mul_mod_right, List.replicate_zero, List.nil_append, List.length_map, show cdiv bs.length 8 = bs.length / 8 by
      unfold cdiv; omega]
    exact List.map_congr_left fun k _ => by rw [← List.map_drop, ← List.map_take]
  have hzip (g : Nat → List (Option (BitVec 8))) (n : Nat) : ((List.range n).map g).zipIdx = (List.range n).map fun k => (g k, k) := by
    exact List.ext_getElem (by simp) fun j _ _ => by simp
  unfold pcieWrites
  rw [hslots, hzip, each_map]
  refine each_congr _ (fun k hk v => ?_) w
  have hk : k < bs.length / 8 := List.mem_range.1 hk
  have hlen : ((bs.drop (8 * k)).take 8).length = 8 := by
    rw [List.length_take, List.length_drop]
    omega
  have haddr : barAddr true (8 * off / 8 + k) = some (bankLo + off + k) := by
    rw [Nat.mul_div_cancel_left _ (by decide)]
    exact (if_pos (show off + k < 0x400000 by omega)).trans (by rw [Nat.add_assoc])
  have hbank : isBank (bankLo + off + k) = true :=
    Bool.and_eq_true_iff.2 ⟨decide_eq_true (by omega), decide_eq_true (by
      have : bankHi = bankLo + 0x400000 := rfl
      omega)⟩
  unfold pcieSlot bankPut
  rw [haddr]
  dsimp only
  rw [← slotWord_some]
  generalize (bs.drop (8 * k)).take 8 = l at hlen
  have hnone : (l.map some).all Option.isNone = false := by
    obtain ⟨b, r, rfl⟩ := List.exists_cons_of_length_eq_add_one hlen
    rfl
  have hall : ((l.map some).length == 8 && (l.map some).all Option.isSome) = true := by simp [hlen]
  rw [hnone, if_neg (by decide), if_pos hall, busWrite, if_neg (by omega), if_pos hbank]

/-- A write that covers no byte writes nothing. -/
theorem pcieWrites_none {off : Nat} {l : List (Option (BitVec 8))} (hnone : ∀ x ∈ l, x = none) (w : Work) :
    pcieWrites true off l w = w := by
  refine each_keeps (P := fun v => v = w) _ (fun p hp v hv => ?_) rfl
  have hslot : p.1 ∈ pcieSlots off l := (List.mem_zipIdx' hp).2 ▸ List.getElem_mem _
  obtain ⟨k, -, hk⟩ := List.mem_map.1 hslot
  have hall : p.1.all Option.isNone = true := by
    refine List.all_eq_true.2 fun x hx => ?_
    rw [← hk] at hx
    have hx := List.mem_append.1 (List.mem_of_mem_drop (List.mem_of_mem_take hx))
    obtain hx | hx := hx
    · rw [List.eq_of_mem_replicate hx]
      rfl
    · rw [hnone x hx]
      rfl
  rw [hv, pcieSlot]
  split
  · rfl
  · exact if_pos hall

/-- A slot covered in part. -/
theorem pcieWrites_part {off i : Nat} {l : List (Option (BitVec 8))} (hoff : off < 0x400000) (hi : i + l.length ≤ 8)
    {b : BitVec 8} (hb : some b ∈ l) (hpart : l.length < 8 ∨ none ∈ l) (w : Work) :
    pcieWrites true (8 * off + i) l w = logEvent .hif 0 1 (bankLo + off) w := by
  have hpos : 0 < l.length := List.length_pos_of_mem hb
  have hmod : (8 * off + i) % 8 = i := by omega
  have hdiv : (8 * off + i) / 8 = off := by omega
  have hslots : pcieSlots (8 * off + i) l = [List.replicate i none ++ l] := by
    unfold pcieSlots
    have hlen : (List.replicate i none ++ l).length = i + l.length := by simp
    dsimp only
    rw [hmod, hlen, show cdiv (i + l.length) 8 = 1 by unfold cdiv; omega]
    show [((List.replicate i none ++ l).drop 0).take 8] = _
    rw [List.drop_zero, List.take_of_length_le (by omega)]
  have hrun : pcieWrites true (8 * off + i) l w = pcieSlot true off (List.replicate i none ++ l) w := by
    unfold pcieWrites
    rw [hslots, hdiv]
    rfl
  have haddr : barAddr true off = some (bankLo + off) := if_pos hoff
  rw [hrun, pcieSlot, haddr]
  dsimp only
  rw [if_neg, if_neg]
  · simp only [List.all_append, Bool.and_eq_true, List.all_eq_true, beq_iff_eq, not_and]
    intro hlen hrep hall
    rw [List.length_append, List.length_replicate] at hlen
    obtain hlt | hmem := hpart
    · have h0 : (none : Option (BitVec 8)) ∈ List.replicate i none := List.mem_replicate.2 ⟨by omega, rfl⟩
      exact absurd (hrep _ h0) (by simp)
    · exact absurd (hall _ hmem) (by simp)
  · simp only [List.all_append, Bool.and_eq_true, List.all_eq_true, not_and]
    exact fun _ hall => absurd (hall _ hb) (by simp)

/-! Reads. -/

/-- Reads of bank words that are right. -/
theorem busReads_bank {w : Work} (hg : w.d.boot.bgrp = 0xFF) (he : w.d.mem.ecc = []) (mid : Nat) : ∀ {n a : Nat} {v : Work},
    bankLo ≤ a → a + n ≤ bankHi → (∃ r, v = { w with d.mem.offRun := r }) →
    ∃ r, busReads mid n a v = ((List.range n).map fun k => rd (a + k) w, false, { w with d.mem.offRun := r })
  | 0, _, _, _, _, ⟨r, hv⟩ => ⟨r, by rw [hv]; rfl⟩
  | n + 1, a, v, hlo, hhi, ⟨r, hv⟩ => by
    have hbank : isBank a = true := Bool.and_eq_true_iff.2 ⟨decide_eq_true hlo, decide_eq_true (by omega)⟩
    have hon : groupOn a v = true := groupOn_all (by rw [hv]; exact hg) a
    have hread : busRead mid a v = (rd a w, false, groupAccess a v) := by
      unfold busRead
      rw [if_neg (by omega), if_pos hbank, groupAccess_on hon, softRead,
        show eccAt a { v with d.mem.offRun := bvPut (groupOf a) false v.d.mem.offRun } = 0 by rw [hv, eccAt, he]; rfl, hv]
      rfl
    obtain ⟨r', hrest⟩ := busReads_bank hg he mid (n := n) (a := a + 1) (v := groupAccess a v) (by omega) (by omega)
      ⟨_, by rw [groupAccess_on hon, hv]⟩
    refine ⟨r', ?_⟩
    rw [busReads, hread]
    dsimp only
    rw [hrest, List.range_succ_eq_map, List.map_cons, List.map_map]
    refine congrArg (fun l => (rd a w :: l, false, { w with d.mem.offRun := r' })) (List.map_congr_left fun k _ => ?_)
    rw [Function.comp_apply, Nat.succ_eq_add_one, Nat.add_assoc, Nat.add_comm 1 k]

/-! Configuration requests. -/

/-- Messages of pending vectors change the pending bits alone. -/
theorem msixRelease_frame (w : Work) : ∃ p o, msixRelease w = { w with d.hif.pba := p, d.out := o } := by
  unfold msixRelease
  dsimp only
  split
  · exact ⟨_, _, rfl⟩
  · refine each_keeps (P := fun v : Work => ∃ p o, v = { w with d.hif.pba := p, d.out := o }) _ ?_ ⟨w.d.hif.pba, w.d.out, rfl⟩
    rintro i - v ⟨p, o, hv⟩
    exact ⟨bvPut i false p, o ++ [.msix i], by rw [hv]; rfl⟩

/-- The answer to a configuration request. -/
def cfgAnswer (r : CfgReq) (w : Work) : Work :=
  if w.d.boot.dead then w
  else if w.d.boot.bootOk then send (.configRetry false) (cfgServe r w) else send (.configRetry true) w

theorem cfgAnswer_alive {w : Work} (hd : w.d.boot.dead = false) (r : CfgReq) : cfgAnswer r w =
    if w.d.boot.bootOk then send (.configRetry false) (cfgServe r w) else send (.configRetry true) w :=
  if_neg (by rw [hd]; decide)

end Sys2Proof.Machine

namespace Sys2Proof.Claims

open Sys2Proof.Machine

section
variable {s : State} (hl : live s = true) (hb : s.dev.boot.bootOk = true)
include hl hb

theorem pcieMemoryWrite_whole {off : Nat} {bs : List (BitVec 8)} (hg : BanksGood s) (h8 : bs.length % 8 = 0)
    (hin : off + bs.length / 8 ≤ 0x400000) : Ends (.pcieMemoryWrite true (8 * off) (bs.map some)) s fun t =>
      WordsPut (0x400000 + off) (grouped 8 slotOf bs) s t ∧ t.dev.cmd = s.dev.cmd ∧ t.dev.out = s.dev.out
        ∧ ∀ k, k < bs.length / 8 →
            let page := (0x400000 + off + k) / 256
            (∃ r ∈ s.dev.mem.static, r.1 ≤ page ∧ page < r.1 + r.2) →
              tabGet zeroPageCrc t.dev.mem.pageCrc page = fcs (wordBytes5 (wordsAt (256 * page) 256 t)) := by
  refine ends_run (f := fun w => if w.d.boot.bootOk then pcieWrites true (8 * off) (bs.map some) w else w) rfl hl ?_
  rw [if_pos (show (begin_ s).d.boot.bootOk = true from hb), pcieWrites_whole h8 hin]
  have hleave := bankPuts_leave (a := bankLo + off) (f := fun k => slotOf ((bs.drop (8 * k)).take 8)) (w := begin_ s) hg.1
    (Nat.le_add_right _ _) (bs.length / 8) (by
      have : bankHi = bankLo + 0x400000 := rfl
      omega)
  obtain ⟨⟨o, e, c, r, hu⟩, hreads, hcrcs⟩ := hleave
  generalize each (List.range (bs.length / 8)) (bankPut (bankLo + off) fun k => slotOf ((bs.drop (8 * k)).take 8)) (begin_ s)
    = u at hu hreads hcrcs
  have hmem (a : Nat) : memRead (commit s u).mem a = rd a u := memRead_commit s u (by rw [hu]; rfl) a
  refine ⟨⟨fun k v hk => ?_, fun x hx => ?_⟩, ?_, ?_, fun k hk hst => ?_⟩
  · have hlen : k < bs.length / 8 := by
      have := (List.getElem?_eq_some_iff.1 hk).1
      simpa [grouped] using this
    have hval : v = slotOf ((bs.drop (8 * k)).take 8) := by
      rw [grouped, List.getElem?_map, List.getElem?_range hlen] at hk
      exact (Option.some.inj hk).symm
    rw [hmem, show (0x400000 : Nat) = bankLo from rfl, hreads, if_pos ⟨by omega, by omega⟩, Nat.add_sub_cancel_left, hval]
  · have hlen : (grouped 8 slotOf bs).length = bs.length / 8 := by simp [grouped]
    rw [hlen, show (0x400000 : Nat) = bankLo from rfl] at hx
    rw [hmem, hreads, if_neg (by omega)]
    rfl
  · rw [commit_dev, hu]
    rfl
  · rw [commit_dev, hu]
    rfl
  · have hs : isStatic ((bankLo + off + k) / 256) (begin_ s) = true := by
      obtain ⟨r, hr, h1, h2⟩ := hst
      exact List.any_eq_true.2 ⟨r, hr, Bool.and_eq_true_iff.2 ⟨decide_eq_true h1, decide_eq_true h2⟩⟩
    refine (hcrcs k hk hs).trans ?_
    unfold pageCrc wordsAt
    rw [List.map_congr_left fun j _ => (hmem (256 * ((bankLo + off + k) / 256) + j)).symm]
    rfl

theorem pcieMemoryWrite_part {off i : Nat} {l : List (Option (BitVec 8))} (hoff : off < 0x400000) (hi : i + l.length ≤ 8) :
    ((∀ x ∈ l, x = none) → exec (.pcieMemoryWrite true (8 * off + i) l) s = .next s)
    ∧ ((∃ b, some b ∈ l) → (l.length < 8 ∨ none ∈ l) → logReady s →
        Ends (.pcieMemoryWrite true (8 * off + i) l) s fun t => EventLogged 22 0 1 (0x400000 + off) s t) := by
  refine ⟨fun hnone => ?_, fun hb' hpart hready => ?_⟩
  · refine run_still (f := fun w => if w.d.boot.bootOk then pcieWrites true (8 * off + i) l w else w) ?_
    exact (if_pos hb).trans (pcieWrites_none hnone _)
  · obtain ⟨b, hmem⟩ := hb'
    refine ends_run (f := fun w => if w.d.boot.bootOk then pcieWrites true (8 * off + i) l w else w) rfl hl ?_
    rw [if_pos (show (begin_ s).d.boot.bootOk = true from hb), pcieWrites_part hoff hi hmem hpart]
    exact eventLogged_logEvent .hif (bankLo + off) hready (by decide) (by decide)

theorem pcieMemoryRead_ends {off n : Nat} (hg : BanksGood s) (hin : off + n ≤ 8 * 0x400000) (hn : 0 < n) :
    Ends (.pcieMemoryRead true off n) s fun t => SameMemory s t
      ∧ t.dev.out = s.dev.out ++ [.busData
          ((((wordsAt (0x400000 + off / 8) ((off % 8 + n + 7) / 8) s).flatMap slotData).drop (off % 8)).take n)] := by
  obtain ⟨r, hreads⟩ := busReads_bank (w := begin_ s) hg.1 hg.2 0 (n := cdiv (off % 8 + n) 8) (a := bankLo + off / 8)
    (v := begin_ s) (Nat.le_add_right _ _) (by
      have : bankHi = bankLo + 0x400000 := rfl
      unfold cdiv
      omega) ⟨_, rfl⟩
  have haddr : barAddr true (off / 8) = some (bankLo + off / 8) :=
    if_pos (show off / 8 < 0x400000 by omega)
  have hslots : slotBytes = slotData := funext slotBytes_eq
  refine ends_run (f := fun w => if w.d.boot.bootOk then pcieRead true off n w else w) rfl hl ?_
  rw [if_pos (show (begin_ s).d.boot.bootOk = true from hb), pcieRead, haddr]
  dsimp only
  rw [hreads, hslots]
  exact ⟨sameMemory_commit rfl, rfl⟩

end

theorem pcieMemory_still {s : State} (hb : s.dev.boot.bootOk = false) (bar : Bool) (off n : Nat) (ws : List (Option (BitVec 8))) :
    exec (.pcieMemoryWrite bar off ws) s = .next s ∧ exec (.pcieMemoryRead bar off n) s = .next s :=
  ⟨run_still (f := fun w => if w.d.boot.bootOk then pcieWrites bar off ws w else w) (if_neg (by rw [begin_d, hb]; decide)),
    run_still (f := fun w => if w.d.boot.bootOk then pcieRead bar off n w else w) (if_neg (by rw [begin_d, hb]; decide))⟩

theorem pcieConfigRequest_ends {s : State} (hd : s.dev.boot.dead = false) (r : CfgReq) :
    (s.dev.boot.bootOk = false → exec (.pcieConfigRequest r) s
      = .next (withDev s { s.dev with out := s.dev.out ++ [.configRetry true] }))
    ∧ (s.dev.boot.bootOk = true → exec (.pcieConfigRequest .other) s
      = .next (withDev s { s.dev with out := s.dev.out ++ [.configRetry false] }))
    ∧ (s.dev.boot.bootOk = true → Ends (.pcieConfigRequest r) s fun t =>
        t.dev.out.getLast? = some (.configRetry false) ∧ SameMemory s t
          ∧ (∀ e m, r = .msix e m → t.dev.hif.msixEn = e ∧ t.dev.hif.funcMask = m)
          ∧ ∀ v m, r = .vector v m → t.dev.hif.vecMask.getLsbD v = m) := by
  have hrun (q : CfgReq) := cfgAnswer_alive (w := begin_ s) hd q
  refine ⟨fun hb => ?_, fun hb => ?_, fun hb => ?_⟩
  · exact runAny_units (f := cfgAnswer r) ((hrun r).trans (if_neg (by simp [hb])))
  · exact runAny_units (f := cfgAnswer .other) ((hrun .other).trans (if_pos hb))
  · refine ends_runAny (f := cfgAnswer r) rfl ?_
    rw [hrun, if_pos (show (begin_ s).d.boot.bootOk = true from hb)]
    cases r with
    | other => exact ⟨by simp [send], sameMemory_commit rfl, nofun, nofun⟩
    | msix e m =>
      obtain ⟨p, o, h⟩ := msixRelease_frame { begin_ s with d.hif.msixEn := e, d.hif.funcMask := m }
      rw [cfgServe, h]
      exact ⟨by simp [send], sameMemory_commit rfl, fun _ _ he => by cases he; exact ⟨rfl, rfl⟩, nofun⟩
    | vector v m =>
      obtain ⟨p, o, h⟩ := msixRelease_frame { begin_ s with d.hif.vecMask := bvPut v.val m (begin_ s).d.hif.vecMask }
      rw [cfgServe, h]
      exact ⟨by simp [send], sameMemory_commit rfl, nofun, fun _ _ he => by
        cases he
        exact (getLsbD_bvPut v.val v.val m _ v.isLt).trans (if_pos rfl)⟩

theorem linkTrained_next {s : State} (hd : s.dev.boot.dead = false) (g : Fin 8) (v : Fin 32) : exec (.linkTrained g v) s
    = .next (withDev s { s.dev with hif := { s.dev.hif with linkUp := true, speed := g, width := v } }) :=
  runAny_units (f := fun w => if w.d.boot.dead then w else
    { w with d.hif.linkUp := true, d.hif.speed := g.val, d.hif.width := v.val })
    (if_neg (show ¬ (begin_ s).d.boot.dead = true by rw [begin_d, hd]; decide))

end Sys2Proof.Claims

namespace Sys2Proof.Proofs

open Sys2Proof.Machine Sys2Proof.Claims

/-- Settles O40: whole slots and parts of one, the words' bytes, and the requests answered before and after BOOT_OK. -/
theorem pcieAccesses : Obligations.PcieAccesses :=
  ⟨fun _ _ _ hl hb hg h8 hin => pcieMemoryWrite_whole hl hb hg h8 hin, fun _ _ _ _ hl hb hoff hi => pcieMemoryWrite_part hl hb hoff hi,
    fun _ _ _ hl hb hg hin hn => pcieMemoryRead_ends hl hb hg hin hn, fun bar off n ws _ _ hb => pcieMemory_still hb bar off n ws,
    fun r _ hd => pcieConfigRequest_ends hd r,
    fun g v _ hd => linkTrained_next hd g v⟩

end Sys2Proof.Proofs
end

section
/-! SUPPORT. Register reads: the words they answer, and what those of Table 21.10 clear or latch (spec/20 R611, spec/21 R612, R620). -/

namespace Sys2Proof.Machine

open Sys2Proof.Claims

/-- The addresses of the units that a variant may lack (R622). -/
def OptionalUnit (a : Nat) : Prop :=
  (0x28180 ≤ a ∧ a < 0x28200) ∨ (0x40180 ≤ a ∧ a < 0x40200) ∨ (0x41200 ≤ a ∧ a < 0x41400) ∨ (0x80000 ≤ a ∧ a < 0xA0000)
    ∨ (0xA0180 ≤ a ∧ a < 0xA0200) ∨ (0xB1400 ≤ a ∧ a < 0xB1800) ∨ (0xD8000 ≤ a ∧ a < 0xE0000) ∨ (0xE8000 ≤ a ∧ a < 0xF0000)

theorem regAbsent_of_not {a : Nat} (h : ¬ OptionalUnit a) (w : Work) : regAbsent a w = false := by
  unfold OptionalUnit at h
  rw [← Bool.not_eq_true]
  intro hab
  simp only [regAbsent, Bool.or_eq_true, Bool.and_eq_true, decide_eq_true_eq] at hab
  obtain ⟨-, hab⟩ | ⟨⟨-, hlo⟩, hhi⟩ := hab
  · omega
  · omega

/-- A read of a register that is no semaphore and no conflict count. -/
theorem regRead_plain {mid a : Nat} (hs : ¬ (0x2C000 ≤ a ∧ a < 0x2C040)) (hc : a < 0xF8200 ∨ 0xF8220 ≤ a) (w : Work) :
    regRead mid a w = (regWord mid a w, readEffect mid a w) := by
  have harrive : confArrive a w = w := by
    unfold confArrive
    rw [if_neg]
    simp only [Bool.and_eq_true, decide_eq_true_eq]
    omega
  unfold regRead
  rw [if_neg (by simpa using hs), harrive]

section
variable {mid a : Nat} {w : Work} (hp : regAbsent a w = false)
include hp

theorem readEffect_peak {n : Nat} (hn : n < 8) (ha : a = 0x30010 + n) :
    readEffect mid a w = { w with d.tdu.peaks := w.d.tdu.peaks.set n 0 } := by
  unfold readEffect
  rw [hp, if_neg Bool.false_ne_true]
  simp (disch := omega) only [Bool.and_eq_true, decide_eq_true_eq, beq_iff_eq, if_pos, if_neg]
  rw [show a - 0x30010 = n by omega]

theorem readEffect_refuse (ha : a = 0x30020) :
    readEffect mid a w = { w with d.tdu.refuse := 0 } := by
  unfold readEffect
  rw [hp, if_neg Bool.false_ne_true]
  simp (disch := omega) only [Bool.and_eq_true, decide_eq_true_eq, beq_iff_eq, if_pos, if_neg]

theorem readEffect_engine {n : Nat} (hn : n < 16) (ha : a = 0x40101 + 16 * n) :
    readEffect mid a w = modEng n (fun e => { e with peak := 0 }) w := by
  unfold readEffect
  rw [hp, if_neg Bool.false_ne_true]
  simp (disch := omega) only [Bool.and_eq_true, decide_eq_true_eq, beq_iff_eq, if_pos, if_neg]
  rw [show (a - 0x40100) / 16 = n by omega]

theorem readEffect_furrowPeak {n : Nat} (hn : n < 4) (ha : a = 0x60004 + 0x10000 * n) :
    readEffect mid a w = setFd n { getFd n w with pAxis := 0, pTap := 0, pTj := 0 } w := by
  unfold readEffect
  rw [hp, if_neg Bool.false_ne_true]
  simp (disch := omega) only [Bool.and_eq_true, decide_eq_true_eq, beq_iff_eq, if_pos, if_neg]
  rw [show (a - 0x60000) / 0x10000 = n by omega]

theorem readEffect_furrowWait {n : Nat} (hn : n < 4) (ha : a = 0x60006 + 0x10000 * n) :
    readEffect mid a w = setFd n { getFd n w with waitMax := 0 } w := by
  unfold readEffect
  rw [hp, if_neg Bool.false_ne_true]
  simp (disch := omega) only [Bool.and_eq_true, decide_eq_true_eq, beq_iff_eq, if_pos, if_neg]
  rw [show (a - 0x60000) / 0x10000 = n by omega]

theorem readEffect_planner (ha : a = 0xA0000) :
    readEffect mid a w = { w with d.pln.phPeak := 0, d.pln.genPeak := 0 } := by
  unfold readEffect
  rw [hp, if_neg Bool.false_ne_true]
  simp (disch := omega) only [Bool.and_eq_true, decide_eq_true_eq, beq_iff_eq, if_pos, if_neg]

theorem readEffect_stepperPlanner (ha : a = 0xB0002) :
    readEffect mid a w = { w with d.stp.phPeak := 0, d.stp.genPeak := 0 } := by
  unfold readEffect
  rw [hp, if_neg Bool.false_ne_true]
  simp (disch := omega) only [Bool.and_eq_true, decide_eq_true_eq, beq_iff_eq, if_pos, if_neg]

theorem readEffect_stepper {n : Nat} (hn : n < 1032) (ha : a = 0xB1001 + 2 * n) :
    readEffect mid a w = modStp n (fun x => { x with
      devPeak := if x.devPeak == fld x.devShown 16 16 then 0 else x.devPeak
      devShown := wd (fld x.devShown 0 16) }) w := by
  unfold readEffect
  rw [hp, if_neg Bool.false_ne_true]
  simp (disch := omega) only [Bool.and_eq_true, decide_eq_true_eq, beq_iff_eq, if_pos, if_neg]
  rw [show (a - 0xB1000) / 2 = n by omega]

theorem readEffect_index {n : Nat} (hn : n < 8) (ha : a = 0xC000A + 16 * n) :
    readEffect mid a w = modFp n (fun x => { x with idxNew := false }) w := by
  unfold readEffect
  rw [hp, if_neg Bool.false_ne_true]
  simp (disch := omega) only [Bool.and_eq_true, decide_eq_true_eq, beq_iff_eq, if_pos, if_neg]
  rw [show (a - 0xC0000) / 16 = n by omega]

theorem readEffect_qill {n : Nat} (hn : n < 8) (ha : a = 0xC000B + 16 * n) :
    readEffect mid a w = modFp n (fun x => { x with qill := 0 }) w := by
  unfold readEffect
  rw [hp, if_neg Bool.false_ne_true]
  simp (disch := omega) only [Bool.and_eq_true, decide_eq_true_eq, beq_iff_eq, if_pos, if_neg]
  rw [show (a - 0xC0000) / 16 = n by omega]

theorem readEffect_graftMiss (ha : a = 0xE8004) :
    readEffect mid a w = { w with d.grf.miss := 0 } := by
  unfold readEffect
  rw [hp, if_neg Bool.false_ne_true]
  simp (disch := omega) only [Bool.and_eq_true, decide_eq_true_eq, beq_iff_eq, if_pos, if_neg]

theorem readEffect_graftPeak (ha : a = 0xE8005) :
    readEffect mid a w = { w with d.grf.sizePeak := 0 } := by
  unfold readEffect
  rw [hp, if_neg Bool.false_ne_true]
  simp (disch := omega) only [Bool.and_eq_true, decide_eq_true_eq, beq_iff_eq, if_pos, if_neg]

theorem readEffect_pageCrc (ha : a = 0xF8004) :
    readEffect mid a w = { w with d.mem.pcrc := 0 } := by
  unfold readEffect
  rw [hp, if_neg Bool.false_ne_true]
  simp (disch := omega) only [Bool.and_eq_true, decide_eq_true_eq, beq_iff_eq, if_pos, if_neg]

theorem readEffect_corrected {n : Nat} (hn : n < 32) (ha : a = 0xF8100 + n) :
    readEffect mid a w = { w with
      d.mem.cerr := tabSet 0 w.d.mem.cerr n 0, d.mem.cerrLogged := bvPut n false w.d.mem.cerrLogged } := by
  unfold readEffect
  rw [hp, if_neg Bool.false_ne_true]
  simp (disch := omega) only [Bool.and_eq_true, decide_eq_true_eq, beq_iff_eq, if_pos, if_neg]
  rw [show a - 0xF8100 = n by omega]

theorem readEffect_conflicts {n : Nat} (hn : n < 32) (ha : a = 0xF8200 + n) :
    readEffect mid a w = { w with d.mem.conf := tabSet 0 w.d.mem.conf n 0 } := by
  unfold readEffect
  rw [hp, if_neg Bool.false_ne_true]
  simp (disch := omega) only [Bool.and_eq_true, decide_eq_true_eq, beq_iff_eq, if_pos, if_neg]
  rw [show a - 0xF8200 = n by omega]

theorem readEffect_latch {k : Nat} (ha : k = 0 ∧ a = 0xFC000 ∨ k = 1 ∧ a = 0xFC002 ∨ k = 2 ∧ a = 0xFC010) :
    readEffect mid a w = ptmLatch mid k w := by
  unfold readEffect
  rw [hp, if_neg Bool.false_ne_true]
  obtain ⟨rfl, ha⟩ | ⟨rfl, ha⟩ | ⟨rfl, ha⟩ := ha <;>
    simp (disch := omega) only [Bool.and_eq_true, decide_eq_true_eq, beq_iff_eq, if_pos, if_neg]

end

/-- A register that a read clears is no semaphore. -/
theorem not_semaphore_of_rcReg {a : Nat} (h : rcReg a = true) : ¬ (0x2C000 ≤ a ∧ a < 0x2C040) := by
  simp only [rcReg, Bool.or_eq_true, Bool.and_eq_true, decide_eq_true_eq, beq_iff_eq] at h
  omega

end Sys2Proof.Machine

namespace Sys2Proof.Claims

open Sys2Proof.Machine

variable {mid : Fin 32} {a : Nat} {s : State}

/-- What the read of a register that clears leaves. -/
theorem ends_rcRead {P : State → Prop} (hl : live s = true) (hr : rcReg a = true) (hc : a < 0xF8200 ∨ 0xF8220 ≤ a)
    (h : P (commit s (send (.readData [regWord mid a (begin_ s)]) (readEffect mid a (begin_ s))))) :
    Ends (.rcRead mid a) s P := by
  refine ends_run rfl hl ?_
  rwa [if_pos hr, regRead_plain (not_semaphore_of_rcReg hr) hc]

/-- A read that clears units only. -/
theorem exec_rcRead {d : Dev} (hl : live s = true) (hr : rcReg a = true) (hc : a < 0xF8200 ∨ 0xF8220 ≤ a)
    (h : readEffect mid a (begin_ s) = { begin_ s with d := d }) (ho : d.out = s.dev.out) :
    exec (.rcRead mid a) s = .next (readsAs mid a d s) := by
  refine run_units (f := fun w => if rcReg a then let (v, w) := regRead mid.val a w; send (.readData [v]) w else w) hl ?_
  rw [if_pos hr, regRead_plain (not_semaphore_of_rcReg hr) hc, h, ← ho]
  rfl

/-- The word of the latching read k (spec/20 R611). -/
def latchAddr (k : Nat) : Nat := match k with | 0 => 0xFC000 | 1 => 0xFC002 | _ => 0xFC010

theorem exec_latchingRead (k : Fin 3) (hl : live s = true) :
    exec (.latchingRead mid k) s
      = .next (commit s (send (.readData [ptmReg mid (latchAddr k) (begin_ s)]) (ptmLatch mid k (begin_ s)))) := by
  have hk : k.val = 0 ∧ latchAddr k = 0xFC000 ∨ k.val = 1 ∧ latchAddr k = 0xFC002 ∨ k.val = 2 ∧ latchAddr k = 0xFC010 := by
    fin_cases k <;> decide
  have hp : regAbsent (latchAddr k) (begin_ s) = false := regAbsent_of_not (by unfold OptionalUnit; omega) _
  have hw : regWord mid (latchAddr k) (begin_ s) = ptmReg mid (latchAddr k) (begin_ s) := by
    unfold regWord
    rw [hp]
    simp (disch := omega) only [Bool.false_eq_true, if_pos, if_neg, if_false]
  have hr : regRead mid (latchAddr k) (begin_ s) = (ptmReg mid (latchAddr k) (begin_ s), ptmLatch mid k (begin_ s)) := by
    rw [regRead_plain (by omega) (by omega), hw, readEffect_latch hp hk]
  exact (run_live _ s hl).trans
    (congrArg (fun p : Word × Work => Host.Outcome.next (commit s (send (.readData [p.1]) p.2))) hr)

end Sys2Proof.Claims
end

section
/-! SUPPORT. Reads that clear and reads that latch, complete (spec/20 R611, spec/21 R612, R620). -/

namespace Sys2Proof.Machine

theorem logCntSat_conf (b : Blk) (i a m : Nat) (w : Work) : (logCntSat b i a m w).d.mem.conf = w.d.mem.conf := by
  obtain ⟨_, _, _, _, _, _, _, _, _, hlog⟩ := logEvent_frame b i 0xFF (put 24 5 m + put 0 20 a) w
  rw [logCntSat, hlog]

/-- Conflicts that arrive at a bank change no other bank's count (R52). -/
theorem confArrive_others {n k : Nat} (hk : k ≠ n) (w : Work) :
    tabGet 0 (confArrive (0xF8200 + n) w).d.mem.conf k = tabGet 0 w.d.mem.conf k := by
  unfold confArrive
  split
  · rw [freeN_eq, Nat.add_sub_cancel_left]
    dsimp only
    obtain h | h := when_either _ (logCntSat .mem 0 (0xF8200 + n) 0) _
    · exact (congrArg (fun u : Work => tabGet 0 u.d.mem.conf k) h).trans (tabGet_tabSet_other _ _ _ _ _ hk)
    · exact (congrArg (fun u : Work => tabGet 0 u.d.mem.conf k) h).trans
        ((congrArg (fun c => tabGet 0 c k) (logCntSat_conf ..)).trans (tabGet_tabSet_other _ _ _ _ _ hk))
  · rfl

end Sys2Proof.Machine

namespace Sys2Proof.Claims

open Sys2Proof.Machine

variable {mid : Fin 32} {a : Nat} {s : State}

/-- A register of a unit that every variant has. -/
theorem regAbsent_begin (h : ¬ OptionalUnit a) : regAbsent a (begin_ s) = false := regAbsent_of_not h _

/-- What the registers with RC fields of O39 read and leave (Table 21.10). -/
theorem ends_rcRead_clears (hl : live s = true) (hr : rcReg a = true) (hc : a < 0xF8200 ∨ 0xF8220 ≤ a) :
    Ends (.rcRead mid a) s fun t =>
      t.dev.out.getLast? = some (.readData [regWord mid a (begin_ s)])
        ∧ (a = 0x30020 → t.dev.tdu = { s.dev.tdu with refuse := 0 })
        ∧ (∀ n, n < 8 → a = 0x30010 + n → t.dev.tdu = { s.dev.tdu with peaks := s.dev.tdu.peaks.set n 0 })
        ∧ (a = 0xA0000 → t.dev.pln = { s.dev.pln with phPeak := 0, genPeak := 0 })
        ∧ (a = 0xF8004 → t.dev.mem = { s.dev.mem with pcrc := 0 })
        ∧ (∀ b, b < 32 → a = 0xF8100 + b → tabGet 0 t.dev.mem.cerr b = 0
            ∧ ∀ k, k ≠ b → tabGet 0 t.dev.mem.cerr k = tabGet 0 s.dev.mem.cerr k) := by
  have hp (h : ¬ OptionalUnit a) : regAbsent a (begin_ s) = false := regAbsent_begin h
  refine ends_rcRead hl hr hc ⟨List.getLast?_concat, fun ha => ?_, fun n hn ha => ?_, fun ha => ?_, fun ha => ?_,
    fun n hn ha => ?_⟩
  · rw [commit_dev, readEffect_refuse (hp (by unfold OptionalUnit; omega)) ha]; rfl
  · rw [commit_dev, readEffect_peak (hp (by unfold OptionalUnit; omega)) hn ha]; rfl
  · rw [commit_dev, readEffect_planner (hp (by unfold OptionalUnit; omega)) ha]; rfl
  · rw [commit_dev, readEffect_pageCrc (hp (by unfold OptionalUnit; omega)) ha]; rfl
  · rw [commit_dev, readEffect_corrected (hp (by unfold OptionalUnit; omega)) hn ha]
    exact ⟨tabGet_tabSet_same 0 s.dev.mem.cerr n 0, fun k hk => tabGet_tabSet_other 0 s.dev.mem.cerr n k 0 hk⟩

/-- A read of a bank's conflict count leaves it 0, and the others as they are (R52). -/
theorem ends_rcRead_conflicts {n : Nat} (hn : n < 32) (hl : live s = true) :
    Ends (.rcRead mid (0xF8200 + n)) s fun t => tabGet 0 t.dev.mem.conf n = 0
      ∧ ∀ k, k ≠ n → tabGet 0 t.dev.mem.conf k = tabGet 0 s.dev.mem.conf k := by
  have hr : rcReg (0xF8200 + n) = true := by
    simp only [rcReg, Bool.or_eq_true, Bool.and_eq_true, decide_eq_true_eq, beq_iff_eq]
    omega
  have he : readEffect mid (0xF8200 + n) (confArrive (0xF8200 + n) (begin_ s)) = _ :=
    readEffect_conflicts (regAbsent_of_not (by unfold OptionalUnit; omega) _) hn rfl
  refine ends_run rfl hl ?_
  rw [if_pos hr, regRead, if_neg (by simp only [Bool.and_eq_true, decide_eq_true_eq]; omega), commit_dev]
  dsimp only
  rw [send_d_mem, he]
  exact ⟨tabGet_tabSet_same 0 (confArrive (0xF8200 + n) (begin_ s)).d.mem.conf n 0, fun k hk => (tabGet_tabSet_other 0 _ n k 0 hk).trans (confArrive_others hk (begin_ s))⟩

end Sys2Proof.Claims

namespace Sys2Proof.Proofs

open Sys2Proof.Machine Sys2Proof.Claims

/-- Settles O39: each address's effect stands alone in Table 21.10, and the latching reads keep the words of one instant. -/
theorem readsWithEffects : Obligations.ReadsWithEffects := by
  unfold Obligations.ReadsWithEffects
  refine ⟨fun mid a s hl => ⟨fun hr => ?_, fun hr hc => ends_rcRead_clears hl hr hc,
    fun n hn => ends_rcRead_conflicts hn hl⟩, fun mid k s hl => ?_⟩
  · exact run_unchanged hl (if_neg (by rw [hr]; exact Bool.false_ne_true))
  · rw [exec_latchingRead k hl]
    fin_cases k <;> rfl

end Sys2Proof.Proofs
end

section
/-! SUPPORT. Every read that clears, register by register (spec/21 R620, Table 21.10), and what the latching reads keep. -/

namespace Sys2Proof.Machine

open Sys2Proof.Claims

/-- A read by one side of a channel clears its count of lost sends and ends a stranger's run (R536, R538). -/
theorem readEffect_lostSends {mid a n : Nat} {b : Bool} {w : Work} (hp : regAbsent a w = false) (hn : n < 16)
    (ha : a = 0x28004 + 32 * n) (hs : sideOf mid (getChan n w) = some b) :
    readEffect mid a w = setChan n (setSide b { side b (getChan n w) with slost := 0 }
      { getChan n w with strangerRun := false }) (accessed n w) := by
  have ho : sideOf mid { getChan n w with strangerRun := false } = some b := hs
  unfold readEffect
  rw [hp, if_neg Bool.false_ne_true]
  simp (disch := omega) only [Bool.and_eq_true, Bool.or_eq_true, decide_eq_true_eq, beq_iff_eq, if_pos, if_neg]
  rw [show (a - 0x28000) / 32 = n by omega, mbxAccess_side hs]
  unfold mbxModSide
  dsimp only
  rw [getChan_accessed, if_pos rfl, ho]
  cases b <;> rfl

/-- The effect of a read of a ring port's CRC count. -/
theorem readEffect_portCrc {mid : Nat} {b p1 : Bool} {w : Work}
    (hp : regAbsent (ringRegs b + 0x101 + (if p1 then 0x10 else 0)) w = false) :
    readEffect mid (ringRegs b + 0x101 + (if p1 then 0x10 else 0)) w
      = modR b (fun r => if p1 then { r with p1 := { r.p1 with rcrc := 0 } } else { r with p0 := { r.p0 with rcrc := 0 } }) w := by
  unfold readEffect
  rw [hp, if_neg Bool.false_ne_true]
  cases b <;> cases p1 <;> rfl

end Sys2Proof.Machine

namespace Sys2Proof.Claims

open Sys2Proof.Machine

variable {mid : Fin 32} {a n : Nat} {s : State}

/-- The addresses of the counted registers that a read clears, below the conflict counts (Table 21.10). -/
def ClearedAt (n a : Nat) : Prop :=
  (n < 16 ∧ (a = 0x28004 + 32 * n ∨ a = 0x40101 + 16 * n)) ∨ (n < 4 ∧ (a = 0x60004 + 0x10000 * n ∨ a = 0x60006 + 0x10000 * n))
    ∨ (n < 1032 ∧ a = 0xB1001 + 2 * n) ∨ (n < 8 ∧ (a = 0xC000A + 16 * n ∨ a = 0xC000B + 16 * n))
    ∨ (n < 4 ∧ a = 0xD0101 + 0x8000 * (n / 2) + 0x10 * (n % 2)) ∨ a = 0xB0002 ∨ a = 0xE8004 ∨ a = 0xE8005

theorem ClearedAt.rcReg (h : ClearedAt n a) : rcReg a = true := by
  simp only [Machine.rcReg, Bool.or_eq_true, Bool.and_eq_true, decide_eq_true_eq, beq_iff_eq, or_assoc]
  obtain ⟨hn, ha | ha⟩ | ⟨hn, ha | ha⟩ | ⟨hn, ha⟩ | ⟨hn, ha | ha⟩ | ⟨hn, ha⟩ | ha | ha | ha := h
  · exact .inl (by omega)
  · exact .inr (.inr (.inr (.inl (by omega))))
  · exact .inr (.inr (.inr (.inr (.inl (by omega)))))
  · exact .inr (.inr (.inr (.inr (.inl (by omega)))))
  · iterate 7 apply Or.inr
    exact .inl (by omega)
  · iterate 8 apply Or.inr
    exact .inl (by omega)
  · iterate 8 apply Or.inr
    exact .inl (by omega)
  · iterate 9 apply Or.inr
    exact .inl (by omega)
  · iterate 6 apply Or.inr
    exact .inl ha
  · iterate 10 apply Or.inr
    exact .inl ha
  · iterate 11 apply Or.inr
    exact .inl ha

theorem ClearedAt.plain (h : ClearedAt n a) : a < 0xF8200 ∨ 0xF8220 ≤ a := by
  unfold ClearedAt at h
  omega

/-- A read of a register that clears, and of units only. -/
theorem exec_rcRead_cleared {d : Dev} (hl : live s = true) (ha : ClearedAt n a)
    (h : readEffect mid a (begin_ s) = { begin_ s with d := d }) (ho : d.out = s.dev.out) :
    exec (.rcRead mid a) s = .next (readsAs mid a d s) := exec_rcRead hl ha.rcReg ha.plain h ho

theorem ends_rcRead_cleared {P : State → Prop} (hl : live s = true) (ha : ClearedAt n a)
    (h : P (commit s (send (.readData [regWord mid a (begin_ s)]) (readEffect mid a (begin_ s))))) :
    Ends (.rcRead mid a) s P := ends_rcRead hl ha.rcReg ha.plain h

/-- A register of an absent unit reads its word and clears nothing (R622). -/
theorem exec_rcRead_absent (hl : live s = true) (hr : rcReg a = true) (hab : regAbsent a (begin_ s) = true)
    (hc : a < 0xF8200 ∨ 0xF8220 ≤ a) : exec (.rcRead mid a) s = .next (readsAs mid a s.dev s) :=
  exec_rcRead hl hr hc (if_pos hab) rfl

theorem exec_rcRead_engine (hn : n < 16) (h : Readable (0x40101 + 16 * n) s) :
    exec (.rcRead mid (0x40101 + 16 * n)) s = .next (readsAs mid (0x40101 + 16 * n) { s.dev with ce := { s.dev.ce with
      engines := tabSet {} s.dev.ce.engines n { tabGet {} s.dev.ce.engines n with peak := 0 } } } s) :=
  exec_rcRead_cleared (n := n) h.1 (by unfold ClearedAt; omega) (readEffect_engine h.2 hn rfl) rfl

theorem exec_rcRead_furrowPeak (hn : n < 4) (h : Readable (0x60004 + 0x10000 * n) s) :
    exec (.rcRead mid (0x60004 + 0x10000 * n)) s = .next (readsAs mid (0x60004 + 0x10000 * n) { s.dev with
      fd := tabSet {} s.dev.fd n { unitOf n s with pAxis := 0, pTap := 0, pTj := 0 } } s) :=
  exec_rcRead_cleared (n := n) h.1 (by unfold ClearedAt; omega) (readEffect_furrowPeak h.2 hn rfl) rfl

theorem exec_rcRead_furrowWait (hn : n < 4) (h : Readable (0x60006 + 0x10000 * n) s) :
    exec (.rcRead mid (0x60006 + 0x10000 * n)) s = .next (readsAs mid (0x60006 + 0x10000 * n) { s.dev with
      fd := tabSet {} s.dev.fd n { unitOf n s with waitMax := 0 } } s) :=
  exec_rcRead_cleared (n := n) h.1 (by unfold ClearedAt; omega) (readEffect_furrowWait h.2 hn rfl) rfl

theorem exec_rcRead_index (hn : n < 8) (hl : live s = true) :
    exec (.rcRead mid (0xC000A + 16 * n)) s
      = .next (readsAs mid (0xC000A + 16 * n) (withPort n { port n s with idxNew := false } s).dev s) :=
  exec_rcRead_cleared (n := n) hl (by unfold ClearedAt; omega)
    (readEffect_index (regAbsent_begin (by unfold OptionalUnit; omega)) hn rfl) rfl

theorem exec_rcRead_qill (hn : n < 8) (hl : live s = true) :
    exec (.rcRead mid (0xC000B + 16 * n)) s
      = .next (readsAs mid (0xC000B + 16 * n) (withPort n { port n s with qill := 0 } s).dev s) :=
  exec_rcRead_cleared (n := n) hl (by unfold ClearedAt; omega)
    (readEffect_qill (regAbsent_begin (by unfold OptionalUnit; omega)) hn rfl) rfl

theorem exec_rcRead_stepperPlanner (hl : live s = true) : exec (.rcRead mid 0xB0002) s
    = .next (readsAs mid 0xB0002 { s.dev with stp := { s.dev.stp with phPeak := 0, genPeak := 0 } } s) :=
  exec_rcRead_cleared (n := 0) hl (by unfold ClearedAt; omega)
    (readEffect_stepperPlanner (regAbsent_begin (by unfold OptionalUnit; omega)) rfl) rfl

theorem exec_rcRead_graftMiss (h : Readable 0xE8004 s) : exec (.rcRead mid 0xE8004) s
    = .next (readsAs mid 0xE8004 { s.dev with grf := { s.dev.grf with miss := 0 } } s) :=
  exec_rcRead_cleared (n := 0) h.1 (by unfold ClearedAt; omega) (readEffect_graftMiss h.2 rfl) rfl

theorem exec_rcRead_graftPeak (h : Readable 0xE8005 s) : exec (.rcRead mid 0xE8005) s
    = .next (readsAs mid 0xE8005 { s.dev with grf := { s.dev.grf with sizePeak := 0 } } s) :=
  exec_rcRead_cleared (n := 0) h.1 (by unfold ClearedAt; omega) (readEffect_graftPeak h.2 rfl) rfl

/-- DEV loses the peak that it shows, and the peak under way where it is the same (log 95). -/
theorem ends_rcRead_stepper (hn : n < 1032) (h : Readable (0xB1001 + 2 * n) s) :
    Ends (.rcRead mid (0xB1001 + 2 * n)) s fun t =>
      let x : StpAxis := tabGet {} s.dev.stp.axes n
      tabGet {} t.dev.stp.axes n = { x with
        devPeak := if x.devPeak = bitsOf x.devShown 16 16 then 0 else x.devPeak
        devShown := BitVec.ofNat 36 (bitsOf x.devShown 0 16) } := by
  refine ends_rcRead_cleared (n := n) h.1 (by unfold ClearedAt; omega) ?_
  rw [readEffect_stepper h.2 hn rfl]
  refine (tabGet_tabSet_same (α := StpAxis) {} s.dev.stp.axes n _).trans ?_
  simp only [beq_iff_eq, bitsOf_eq]
  rfl

theorem ends_rcRead_lostSends {b : Bool} (hn : n < 16) (h : Readable (0x28004 + 32 * n) s) (hs : SideIs mid n b s) :
    Ends (.rcRead mid (0x28004 + 32 * n)) s fun t => (sideRec b (channel n t)).slost = 0
      ∧ ∀ c, c ≠ n → channel c t = channel c s := by
  refine ends_rcRead_cleared (n := n) h.1 (by unfold ClearedAt; omega) ?_
  rw [readEffect_lostSends h.2 hn rfl (sideOf_of_sideIs hs)]
  have hch (c : Nat) (x : MbxChan) (m : OutMsg) : channel c (commit s (send m (setChan n x (accessed n (begin_ s)))))
      = if c = n then x else channel c s := by
    refine (getChan_setChan c n x (accessed n (begin_ s))).trans ?_
    by_cases hc : c = n
    · rw [if_pos hc, if_pos hc]
    · rw [if_neg hc, if_neg hc, getChan_accessed, if_neg hc]
      rfl
  refine ⟨?_, fun c hc => (hch ..).trans (if_neg hc)⟩
  rw [hch, if_pos rfl, sideRec_eq, side_setSide]

theorem ends_rcRead_portCrc {b p1 : Bool} (h : Readable (ringRegs b + 0x101 + (if p1 then 0x10 else 0)) s) :
    Ends (.rcRead mid (ringRegs b + 0x101 + (if p1 then 0x10 else 0))) s fun t =>
      portOf p1 (ring b t) = { portOf p1 (ring b s) with rcrc := 0 }
        ∧ portOf (!p1) (ring b t) = portOf (!p1) (ring b s) ∧ ring (!b) t = ring (!b) s := by
  refine ends_rcRead_cleared (n := 2 * b.toNat + p1.toNat) h.1
    (by unfold ClearedAt ringRegs; cases b <;> cases p1 <;> decide) ?_
  rw [readEffect_portCrc h.2]
  generalize hf : (fun r : RingSt =>
    if p1 then { r with p1 := { r.p1 with rcrc := 0 } } else { r with p0 := { r.p0 with rcrc := 0 } }) = f
  have hb : ring b (commit s (send (.readData [regWord mid (ringRegs b + 0x101 + (if p1 then 0x10 else 0)) (begin_ s)])
      (modR b f (begin_ s)))) = f (ring b s) := getR_modR_same b f (begin_ s)
  refine ⟨?_, ?_, getR_modR_not b f (begin_ s)⟩
  · rw [hb, ← hf]; cases p1 <;> rfl
  · rw [hb, ← hf]; cases p1 <;> rfl

/-- What a latching read keeps, and for whom (R611). -/
theorem ends_latchingRead (k : Fin 3) (hl : live s = true) : Ends (.latchingRead mid k) s fun t =>
    let p := s.dev.ptm
    let old : PtmLatch := tabGet {} p.latch mid
    let new : PtmLatch := tabGet {} t.dev.ptm.latch mid
    (∀ m, m ≠ mid.val → tabGet {} t.dev.ptm.latch m = tabGet {} p.latch m)
      ∧ { t.dev.ptm with latch := p.latch } = p ∧ t.mem = s.mem
      ∧ (k.val = 0 → new = { old with frch := BitVec.ofNat 36 (p.frc.toNat / 2 ^ 36) }
        ∧ t.dev.out = s.dev.out ++ [.readData [BitVec.ofNat 36 p.frc.toNat]])
      ∧ (k.val = 1 → new = { old with nowh := BitVec.ofNat 36 ((plantTime p p.frc).toNat / 2 ^ 36) }
        ∧ t.dev.out = s.dev.out ++ [.readData [BitVec.ofNat 36 (plantTime p p.frc).toNat]])
      ∧ (k.val = 2 → new = { old with sptl := BitVec.ofNat 36 p.spt.toNat, spth := BitVec.ofNat 36 (p.spt.toNat / 2 ^ 36) }
        ∧ t.dev.out = s.dev.out ++ [.readData [p.sncc]]) := by
  refine ⟨_, exec_latchingRead k hl, fun m hm => tabGet_tabSet_other (α := PtmLatch) {} s.dev.ptm.latch mid m _ hm, rfl, rfl,
    fun hk => ?_, fun hk => ?_, fun hk => ?_⟩
  · obtain rfl : k = 0 := Fin.ext hk
    exact ⟨tabGet_tabSet_same (α := PtmLatch) {} s.dev.ptm.latch mid _, rfl⟩
  · obtain rfl : k = 1 := Fin.ext hk
    exact ⟨tabGet_tabSet_same (α := PtmLatch) {} s.dev.ptm.latch mid _, rfl⟩
  · obtain rfl : k = 2 := Fin.ext hk
    exact ⟨tabGet_tabSet_same (α := PtmLatch) {} s.dev.ptm.latch mid _, rfl⟩

end Sys2Proof.Claims
end

section
/-! SUPPORT. The dispatcher's choice read backwards: what it found, or that there was nothing to find (spec/12 R404, R406). -/

namespace Sys2Proof.Machine

open Sys2Proof.Claims

/-- What a search from N - 1 down finds is the answer of the highest place that has one. -/
theorem highest_of_findSome? {α : Type} {f : Nat → Option α} {b : α} : ∀ {N : Nat},
    (List.range N).reverse.findSome? f = some b → ∃ n < N, f n = some b ∧ ∀ m, n < m → m < N → f m = none
  | 0, h => nomatch h
  | N + 1, h => by
    rw [List.range_succ, List.reverse_append, List.reverse_singleton, List.singleton_append, List.findSome?_cons] at h
    cases hN : f N with
    | some c => exact ⟨N, N.lt_succ_self, by rwa [hN] at h ⊢, fun m hm hlt => by omega⟩
    | none =>
      rw [hN] at h
      obtain ⟨n, hn, hb, habove⟩ := highest_of_findSome? h
      refine ⟨n, Nat.lt_succ_of_lt hn, hb, fun m hm hlt => ?_⟩
      obtain rfl | hm' := Nat.eq_or_lt_of_le (Nat.le_of_lt_succ hlt)
      · exact hN
      · exact habove m hm hm'

section
variable {c : Nat} {s : State}

/-- A level that offers nothing has no job given to the core. -/
theorem not_givenTo_of_offer_none {n : Nat} (h : levelOffer c (begin_ s) n = none) {v : List Job}
    (hv : s.dev.tdu.levels[n]? = some v) : ∀ x ∈ v, ¬ givenTo c x s := by
  intro x hx hg
  rw [levelOffer, Option.map_eq_none_iff, List.find?_eq_none, tduLevel_begin, hv] at h
  exact h x hx ((mayTake_iff_givenTo c s x).2 hg)

/-- What a level offers is its first job given to the core. -/
theorem first_of_levelOffer {n m : Nat} {j : Job} (h : levelOffer c (begin_ s) n = some (m, j)) :
    m = n ∧ ∃ l r, s.dev.tdu.levels[n]? = some (l ++ j :: r) ∧ givenTo c j s ∧ ∀ x ∈ l, ¬ givenTo c x s := by
  rw [levelOffer, Option.map_eq_some_iff] at h
  obtain ⟨j', hfind, hj⟩ := h
  obtain ⟨rfl, rfl⟩ := Prod.mk.inj hj
  rw [List.find?_eq_some_iff_append, mayTake_iff_givenTo, tduLevel_begin] at hfind
  obtain ⟨hg, l, r, hlevel, hl⟩ := hfind
  refine ⟨rfl, l, r, ?_, hg, fun x hx => ?_⟩
  · cases hv : s.dev.tdu.levels[n]? with
    | none => simp [hv] at hlevel
    | some v => exact congrArg some (by rwa [hv] at hlevel)
  · rw [← mayTake_iff_givenTo, Bool.not_eq_true, ← Bool.not_eq_true']
    exact hl x hx

end

end Sys2Proof.Machine

namespace Sys2Proof.Claims

open Sys2Proof.Machine

/-- A core takes the oldest job given to it at the highest level that has one, or stays idle. -/
theorem ends_tduDispatch (c : Fin 4) {s : State} (hl : live s = true) :
    Ends (.tduDispatch c) s fun t => NoJob c s ∧ t = s ∨ JobTaken c s t := by
  have hidle (hno : NoJob c s) (h : tduDispatch c (begin_ s) = begin_ s) :
      Ends (.tduDispatch c) s fun t => NoJob c s ∧ t = s ∨ JobTaken c s t :=
    ⟨s, run_unchanged hl h, .inl ⟨hno, rfl⟩⟩
  cases ha : s.dev.tdu.awake.getLsbD c with
  | false => exact hidle (.inl ha) (tduDispatch_parked ha)
  | true =>
    cases hp : tduPick c (begin_ s) with
    | none =>
      refine hidle (.inr fun n v hn hv => not_givenTo_of_offer_none ?_ hv) (tduDispatch_idle hp)
      rw [tduPick_eq, List.findSome?_eq_none_iff] at hp
      exact hp n (by simpa using hn)
    | some p =>
      obtain ⟨m, j⟩ := p
      have hpick := hp
      rw [tduPick_eq] at hp
      obtain ⟨n, hn, hoffer, habove⟩ := highest_of_findSome? hp
      obtain ⟨rfl, l, r, hv, hg, hfirst⟩ := first_of_levelOffer hoffer
      have htaken := tduDispatch_takes ha hpick
      rw [level_erase hv hg hfirst] at htaken
      refine ends_run rfl hl (.inr ⟨m, l, r, j, hn, ha, hv, hg, hfirst,
        fun k v hk hk8 => not_givenTo_of_offer_none (habove k hk hk8), ?_⟩)
      rw [htaken]
      exact ⟨rfl, rfl, rfl⟩

end Sys2Proof.Claims
end

section
/-! SUPPORT. The end of a sync point: BP as the present state gives it, and a device at rest under any source of the phase
(spec/01 R14, spec/02 R42, R50, spec/03 R63). -/

namespace Sys2Proof.Machine

open Sys2Proof.Claims

/-! BP of every queue. -/

/-- One queue's part of the refresh of BP. -/
def bpStep (q : Nat) (w : Work) : Work :=
  if (getQ q w).bp == bpNow q w then w else modQ q (fun x => { x with bp := bpNow q w }) w

/-- BP does not depend on BP. -/
theorem bpNow_congr {q : Nat} {w v : Work} {l : Tab Queue} (hv : v = { w with d.cmd.queues := l }) {b : Bool}
    (hq : getQ q v = { getQ q w with bp := b }) : bpNow q v = bpNow q w := by
  have hj : journalWaits q v = journalWaits q w := by rw [hv]; rfl
  have hh : headsHeld v = headsHeld w := by rw [hv]; rfl
  have hc : commitsFull q v = commitsFull q w := by rw [hv]; rfl
  unfold bpNow
  rw [hq, hj, hh, hc]
  rfl

/-- After n queues the first n have the BP of the present state, and nothing else has changed. -/
theorem each_bpStep (w : Work) : ∀ n, (∃ l, each (List.range n) bpStep w = { w with d.cmd.queues := l })
    ∧ ∀ k, getQ k (each (List.range n) bpStep w)
      = { getQ k w with bp := if k < n then bpNow k w else (getQ k w).bp }
  | 0 => ⟨⟨_, rfl⟩, fun _ => rfl⟩
  | n + 1 => by
    obtain ⟨⟨l, hl⟩, hq⟩ := each_bpStep w n
    rw [each_range_succ]
    generalize each (List.range n) bpStep w = v at *
    have hnow : bpNow n v = bpNow n w := bpNow_congr hl (hq n)
    have hget (k : Nat) : getQ k (bpStep n v) = { getQ k v with bp := if k = n then bpNow n w else (getQ k v).bp } := by
      unfold bpStep
      rw [hnow]
      by_cases hb : (getQ n v).bp = bpNow n w
      · rw [if_pos (by rw [hb, beq_self_eq_true])]
        by_cases hk : k = n
        · rw [hk, if_pos rfl, ← hb]
        · rw [if_neg hk]
      · rw [if_neg (by rwa [beq_iff_eq]), getQ_modQ]
        by_cases hk : k = n
        · rw [hk, if_pos rfl, if_pos rfl]
        · rw [if_neg hk, if_neg hk]
    refine ⟨?_, fun k => ?_⟩
    · unfold bpStep
      split
      · exact ⟨l, hl⟩
      · exact ⟨_, by rw [hl]; rfl⟩
    · rw [hget, hq]
      by_cases hk : k = n
      · rw [hk, if_pos rfl, if_pos n.lt_succ_self]
      · have hiff : k < n + 1 ↔ k < n := by omega
        rw [if_neg hk]
        simp only [hiff]

/-- The refresh of BP queue by queue, and then JWAIT and the interrupt. -/
theorem bpRefresh_eq (w : Work) : bpRefresh w = irqQueueStat { each (List.range 5) bpStep w with
    d.cmd.jWait := (List.range 5).any fun q => journalWaits q (each (List.range 5) bpStep w) } := by
  unfold bpRefresh bpStep
  rfl

/-- After its refresh BP is what the present state gives. -/
theorem bpRefresh_shows {q : Nat} (hq : q < 5) (w : Work) : (getQ q (bpRefresh w)).bp = bpNow q (bpRefresh w) := by
  obtain ⟨⟨l, hl⟩, hget⟩ := each_bpStep w 5
  have hnow := bpNow_congr hl (hget q)
  have hbp : (getQ q (each (List.range 5) bpStep w)).bp = bpNow q w := by rw [hget, if_pos hq]
  rw [bpRefresh_eq]
  generalize each (List.range 5) bpStep w = v at hnow hbp
  obtain ⟨_, _, h⟩ := irqQueueStat_frame { v with d.cmd.jWait := (List.range 5).any fun q => journalWaits q v }
  rw [h]
  exact hbp.trans hnow.symm

/-! A device at rest under any source. -/

/-- The phase after the step of a sync point that ends a cycle of u units: the virtual master advances, and is the phase where
it is the source. -/
structure Turns (u : Nat) (f g : PhaseSt) : Prop where
  vm : g.vm = f.vm + wdI (f.vmInForce.toInt * u)
  mph : f.src.kind = 0 → g.mph = g.vm
  ncc : g.ncc = f.ncc
  src : g.src = f.src
  frcSync : g.frcSync = f.frcSync
  srcNext : g.srcNext = f.srcNext
  cpmNext : g.cpmNext = f.cpmNext

variable {s : State} {f : PhaseSt} {p : PtmSt} {w : Work}

/-- A new sample, or its absence, changes the measured phase alone. -/
theorem phCountWith_frame (c : PhSrc) (m : Nat) (w : Work) : ∃ x r l y b, phCountWith c m w = { w with
    d.phase.sample := x, d.phase.rem := r, d.phase.hist := l, d.phase.mphm := y, d.phase.refPending := b } := by
  unfold phCountWith phaseCount
  dsimp only
  split
  · exact ⟨_, _, _, _, false, rfl⟩
  · exact ⟨_, _, _, _, w.d.phase.refPending, rfl⟩

/-- The phase between the advance of the virtual master and the sample of another source. -/
def besideMaster (u : Nat) (f : PhaseSt) : PhaseSt :=
  { f with
    vmRate := f.vmNext.getD f.vmRate, vmNext := none, vm := f.vm + wdI (f.vmInForce.toInt * u)
    mph := extrapolate (f.hist.drop 1) 2 }

theorem phaseSync_turns (u : Nat) (h : Resting s f p w) (hd : f.vmDirect = []) :
    ∃ g, Resting s g p (phaseSync u w) ∧ Turns u f g := by
  by_cases hk : f.src.kind = 0
  · exact ⟨_, phaseSync_resting u h hk hd, ⟨rfl, fun _ => rfl, rfl, rfl, rfl, rfl, rfl⟩⟩
  · obtain rfl := h.phase
    have e : phaseSync u w = { phCountWith w.d.phase.src w.d.phase.cpm { w with d.phase := besideMaster u w.d.phase } with
        d.phase.sampled := true } := by
      simp [phaseSync, besideMaster, hk, hd, phAxisComes, h.order]
    obtain ⟨x, r, l, y, b, hcount⟩ := phCountWith_frame w.d.phase.src w.d.phase.cpm
      { w with d.phase := besideMaster u w.d.phase }
    rw [e, hcount]
    exact ⟨_, { h with phase := rfl }, ⟨rfl, fun h0 => absurd h0 hk, rfl, rfl, rfl, rfl, rfl⟩⟩

theorem phRefHold_frame (w : Work) : ∃ b x, phRefHold w = { w with d.phase.refPending := b, d.phase.sample := x } := by
  unfold phRefHold
  dsimp only
  split
  · split
    · exact ⟨false, _, rfl⟩
    · exact ⟨w.d.phase.refPending, w.d.phase.sample, rfl⟩
  · exact ⟨false, w.d.phase.sample, rfl⟩

/-- A cycle whose sample is taken ends with the phase as it is, but for the reference of its source (R655). -/
theorem cycleEnd_rests (h : Resting s f p w) (hs : f.sampled = true) :
    ∃ b x, Resting s { f with refPending := b, sample := x } p (cycleEnd w) := by
  obtain rfl := h.phase
  obtain ⟨b, x, hhold⟩ := phRefHold_frame w
  have hend : phaseCycleEnd w = phRefHold w := by simp [phaseCycleEnd, when_, hs]
  have h1 : Resting s { w.d.phase with refPending := b, sample := x } p (phaseCycleEnd w) := by
    rw [hend, hhold]
    exact { h with phase := rfl }
  have h2 := isolateDue_resting h1
  refine ⟨b, x, ?_⟩
  simpa [cycleEnd, lockDecided_of_resting h1, when_, proposalDecide, h1.prop, decideBundles, h1.bundles, runDelayed,
    h2.runWait] using h2

/-- A device at rest stays at rest over a sync point under any source of its phase: the counters and the virtual master
advance, and plant time keeps the stamp of the sync point. -/
theorem syncPoint_rests (h : Resting s f p w) (hs : f.sampled = true) (hd : f.vmDirect = []) (hsrc : f.srcNext = none)
    (hcpm : f.cpmNext = none) (hc : w.d.sys.cycOn = true) :
    ∃ f' b x g c, f' = { f with
        refPending := b, sample := x, ncc := f.ncc + 1, lastUnits := unitsOf s.dev.sys.rate, frcSync := p.frc }
      ∧ Turns (unitsOf s.dev.sys.rate) f' g
      ∧ Resting s { g with mphmShown := g.mphm } { p with sncc := g.ncc, spt := c } (syncPoint w) := by
  unfold syncPoint
  rw [if_neg (by simp [hc])]
  extract_lets w1 o u was w2 w3 w4 w5 lock w6 slowNow w7 w8 w9 w10 w11 w12 w13 w14 w15 w16 w17
  obtain ⟨b, x, h1⟩ : ∃ b x, Resting s { f with refPending := b, sample := x } p w1 := cycleEnd_rests h hs
  have hu : u = unitsOf s.dev.sys.rate := congrArg (fun y => unitsOf y.rate) h1.sys
  have h4 : Resting s _ p w4 := modes_resting (shareSync_resting (hvsSample_resting o (advance_resting u h1)))
  have h5 : Resting s _ p w5 := stateEntered_resting h1 h4
  have hl : lock = false := lockDecided_of_resting h5
  obtain ⟨g, hg, hturn⟩ := phaseSync_turns u (fpSync_resting (axesSync_resting h5)) hd
  have h6 : Resting s g p w6 := phaseDirect_resting hg (hturn.srcNext.trans hsrc) (hturn.cpmNext.trans hcpm)
  have h7 : Resting s g p w7 := when_resting (fun _ => stpSyncFaults_resting h6) h6
  have h9 : Resting s g p w9 := earlyParts_resting _ (ceShow_resting (effectsNow_resting _ h7))
  have h10 : Resting s g p w10 := when_resting (by simp [hl]) h9
  have h11 : Resting s g p w11 := when_resting (fun _ => phaseEval_resting h10) h10
  have h12 : Resting s g p w12 := when_resting (fun _ => stpSyncRefs_resting h11) h11
  have h13 : Resting s _ p w13 :=
    phaseShow_resting (egvSync_resting (egvReconcile_resting (plnSync_resting h12)))
  have h15 : Resting s _ p w15 := pruneCycle_resting (stageBundles_resting (graftSync_resting (healMark_resting h13)))
  have h16 : Resting s _ p w16 := hvsSnap_resting (hvsAnchors_resting (syncFrames_resting h15))
  have h17 : Resting s _ _ w17 := graftBuild_resting (stampSync_resting (nodesInit_resting h16))
  rw [← hu]
  exact ⟨_, b, x, g, _, rfl, hturn, bpRefresh_resting (shows_resting h17)⟩

end Sys2Proof.Machine
end

section
/-! SUPPORT. Reads, the dispatcher and the sync point where they complete. -/

namespace Sys2Proof.Claims

open Sys2Proof.Machine

theorem bpNow_commit (q : Nat) (s : State) (w : Work) : bpNow q (begin_ (commit s w)) = bpNow q w := rfl

/-- A sync point ends with the registers and BP as the present state has them. -/
theorem ends_syncPoint_shows {s : State} (hl : live s = true) (hc : s.dev.sys.cycOn = true) : Ends .syncPoint s fun t =>
    t.dev.dqShown = t.dev.dq ∧ t.dev.trl.shownStat = trlStatWord (begin_ t)
      ∧ t.dev.trl.shownModes = (List.range 8).map (fun m => trlModeWord m (begin_ t))
      ∧ t.dev.hvs.shownStat = hvsStatWord (begin_ t) ∧ t.dev.grf.shownLast = t.dev.grf.last
      ∧ t.dev.grf.shownPstat = grfPstatWord (begin_ t) ∧ ∀ q, q < 5 → (queue q t).bp = bpNow q (begin_ t) := by
  refine ends_syncPoint hl ?_
  obtain ⟨v, hv⟩ := syncPoint_shows (begin_ s) hc
  have hbp (q : Nat) (hq : q < 5) : (queue q (commit s (syncPoint (begin_ s)))).bp
      = bpNow q (begin_ (commit s (syncPoint (begin_ s)))) := by
    rw [queue_commit, bpNow_commit, hv, bpRefresh_shows hq]
  obtain ⟨_, _, _, _, hb⟩ := bpRefresh_frame (graftShow (hvsShow (ringShow v)))
  rw [hv, hb] at hbp ⊢
  exact ⟨rfl, rfl, rfl, rfl, rfl, rfl, hbp⟩

/-- At a sync point of a device with nothing to move a cycle is counted and the virtual master advances, whatever the
source. -/
theorem ends_syncPoint_rests {s : State} (hl : live s = true) (hc : s.dev.sys.cycOn = true) (hr : AtRest s)
    (hs : SourceStays s) : Ends .syncPoint s fun t =>
      t.dev.phase.ncc = s.dev.phase.ncc + 1
        ∧ t.dev.phase.vm = s.dev.phase.vm + BitVec.ofInt 36 (s.dev.phase.vmInForce.toInt * rateUnits s.dev.sys.rate)
        ∧ (s.dev.phase.src.kind = 0 → t.dev.phase.mph = t.dev.phase.vm) ∧ t.dev.phase.src = s.dev.phase.src
        ∧ t.dev.phase.frcSync = s.dev.ptm.frc ∧ t.dev.ptm.sncc = s.dev.phase.ncc + 1 ∧ t.dev.sys = s.dev.sys
        ∧ SameMemory s t := by
  obtain ⟨hsrc, hcpm, -, hsampled, -, hdirect, -⟩ := hs
  obtain ⟨_, _, _, g, c, rfl, hturn, h⟩ := syncPoint_rests hr.resting hsampled hdirect hsrc hcpm hc
  have hm (a : Nat) : memRead (commit s (syncPoint (begin_ s))).mem a = memRead s.mem a := by
    rw [memRead_commit s _ h.base, h.reads]
  refine ends_syncPoint hl ?_
  rw [commit_dev, h.phase, h.ptm, h.sys, ← unitsOf_eq_rateUnits]
  exact ⟨hturn.ncc, hturn.vm, hturn.mph, hturn.src, hturn.frcSync, hturn.ncc, rfl, hm⟩

end Sys2Proof.Claims

namespace Sys2Proof.Proofs

open Sys2Proof.Machine Sys2Proof.Claims

/-- Settles O60: each read is its register's row of Table 21.10, the dispatcher's search is read backwards, and a sync point
at rest is the master's advance followed by stages that move nothing. -/
theorem readsDispatchAndSyncComplete : Obligations.ReadsDispatchAndSyncComplete := by
  unfold Obligations.ReadsDispatchAndSyncComplete
  refine ⟨fun mid k s hl => ends_latchingRead k hl, ⟨?absent, ?counted, ?ports, ?single⟩,
    fun c s hl => ends_tduDispatch c hl, fun s hl hc => ends_syncPoint_shows hl hc,
    fun s hl hc hr hs => ends_syncPoint_rests hl hc hr hs⟩
  case absent => exact fun mid a s hl hr hab hc => exec_rcRead_absent hl hr hab hc
  case counted =>
    exact fun mid n s => ⟨fun hn h => exec_rcRead_engine hn h, fun hn h => exec_rcRead_furrowPeak hn h,
      fun hn h => exec_rcRead_furrowWait hn h, fun hn h => ends_rcRead_stepper hn h, fun hn hl => exec_rcRead_index hn hl,
      fun hn hl => exec_rcRead_qill hn hl, fun b hn h hs => ends_rcRead_lostSends hn h hs⟩
  case ports => exact fun mid b p1 s h => ends_rcRead_portCrc h
  case single =>
    exact fun mid s hl => ⟨exec_rcRead_stepperPlanner hl, fun h => exec_rcRead_graftMiss h, fun h => exec_rcRead_graftPeak h⟩

end Sys2Proof.Proofs
end

section
/-! SUPPORT. Writes of registers: the base registers, the bits that a 1 clears, and what a write never changes (spec/21 R615,
R617, Tables 21.8 and 21.9). -/

namespace Sys2Proof.Machine

open Sys2Proof.Claims

/-- What a base register holds. -/
def baseHeld (a : Nat) (d : Dev) : Nat :=
  match a with
  | 0x40000 => d.ce.imgBase
  | 0x40001 => d.ce.stBase
  | 0xB0000 => d.stp.stBase
  | 0xB0001 => d.stp.tblBase
  | 0xE0000 => d.trl.base
  | 0xE0001 => d.trl.smap
  | 0x1C000 => d.egv.tlBase
  | 0x20182 => d.cmd.jBase
  | 0xF4000 => d.hvs.dbase
  | 0xF4001 => d.hvs.bbase
  | _ => d.hvs.mbase

/-- The units with another value in a base register. -/
def withBase (a x : Nat) (d : Dev) : Dev :=
  match a with
  | 0x40000 => { d with ce.imgBase := x }
  | 0x40001 => { d with ce.stBase := x }
  | 0xB0000 => { d with stp.stBase := x }
  | 0xB0001 => { d with stp.tblBase := x }
  | 0xE0000 => { d with trl.base := x }
  | 0xE0001 => { d with trl.smap := x }
  | 0x1C000 => { d with egv.tlBase := x }
  | 0x20182 => { d with cmd.jBase := x }
  | 0xF4000 => { d with hvs.dbase := x }
  | 0xF4001 => { d with hvs.bbase := x }
  | _ => { d with hvs.mbase := x }

/-- The addresses of the base registers. -/
def baseAddrs : List Nat := baseRegs.map (·.1)

theorem baseAddrs_present : ∀ a ∈ baseAddrs, ∀ w, regAbsent a w = false := by
  intro a ha w
  refine regAbsent_of_not (fun h => ?_) w
  unfold OptionalUnit at h
  simp only [baseAddrs, baseRegs, List.map_cons, List.map_nil, List.mem_cons, List.not_mem_nil, or_false] at ha
  omega

theorem baseHeld_withBase {a b : Nat} (ha : a ∈ baseAddrs) (hb : b ∈ baseAddrs) (x : Nat) (d : Dev) :
    baseHeld b (withBase a x d) = if b = a then x else baseHeld b d := by
  unfold baseAddrs baseRegs at ha hb
  fin_cases ha <;> fin_cases hb <;> rfl

theorem regWord_base {mid a : Nat} (ha : a ∈ baseAddrs) (w : Work) : regWord mid a w = wd (baseHeld a w.d) := by
  have hp := baseAddrs_present a ha w
  unfold regWord
  rw [hp]
  unfold baseAddrs baseRegs at ha
  fin_cases ha <;> rfl

section
variable {mid a n : Nat} {w : Work}

theorem regWrite_base_before (ha : a ∈ baseAddrs) (v : Word) (hc : inConfig w = false) : regWrite mid a v w = w := by
  have hp := baseAddrs_present a ha w
  unfold baseAddrs baseRegs at ha
  fin_cases ha <;>
    simp [regWrite, hp, hc, ceWrite, stpWrite, trlWrite, egvRegWrite, cmdWrite, hvsWrite, regAt]

theorem regWrite_base_config (ha : (a, n) ∈ baseRegs) (v : Word) (hc : inConfig w = true) :
    regWrite mid a v w = { w with d := withBase a (baseOf n v) w.d } := by
  have hp := baseAddrs_present a (List.mem_map_of_mem ha) w
  unfold baseRegs at ha
  fin_cases ha <;>
    simp [regWrite, hp, hc, ceWrite, stpWrite, trlWrite, egvRegWrite, cmdWrite, hvsWrite, regAt, withBase]

/-! The note of a write for the graft. -/

/-- A write notes at most its word for the graft (R431). -/
theorem masterWrite_frame (mid a : Nat) (v : Word) (w : Work) :
    ∃ r, masterWrite mid a v w = { regWrite mid a v w with d.grf.regs := r } := by
  unfold masterWrite
  dsimp only
  obtain h | h := when_either (inConfig w && hasGraft w.variant && regCarried a)
    (fun w => { w with d.grf.regs := regNote a v w.d.grf.regs }) (regWrite mid a v w)
  · exact ⟨_, h⟩
  · exact ⟨_, h⟩

theorem masterWrite_unnoted (v : Word) (h : inConfig w = false ∨ regCarried a = false) :
    masterWrite mid a v w = regWrite mid a v w := by
  have hn : (inConfig w && hasGraft w.variant && regCarried a) = false := by
    obtain h | h := h
    · rw [h]; rfl
    · rw [h, Bool.and_false]
  unfold masterWrite
  dsimp only
  rw [hn]
  rfl

end

/-! Registers that only read, and registers of bits that a 1 clears. -/

/-- Addresses of registers that only read (Tables 21.1 to 21.7). -/
def readOnlyAddrs : List Nat :=
  [0x00, 0x02, 0x03, 0x10, 0x11, 0x23, 0x24, 0x25, 0x32, 0x18200, 0x18201, 0x20102, 0x28201, 0xE0003, 0xE0004,
    0xF8001, 0xF8002, 0xF8003, 0xF8005, 0xFA003, 0xFC000, 0xFC002, 0xFC010]

/-- No register stands at these addresses, or one that only reads. -/
def Unwritable (a : Nat) : Prop := a ∈ readOnlyAddrs ∨ 0x100000 ≤ a

theorem not_optionalUnit_of_unwritable {a : Nat} (h : Unwritable a) : ¬ OptionalUnit a := by
  have hlist : ∀ b ∈ readOnlyAddrs, ¬ OptionalUnit b := by unfold OptionalUnit; decide
  obtain h | h := h
  · exact hlist a h
  · unfold OptionalUnit; omega

theorem not_regCarried_of_unwritable {a : Nat} (h : Unwritable a) : regCarried a = false := by
  have hlist : ∀ b ∈ readOnlyAddrs, regCarried b = false := by decide
  obtain h | h := h
  · exact hlist a h
  · rw [← Bool.not_eq_true]
    simp only [regCarried, List.contains_eq_mem, List.mem_cons, List.not_mem_nil, or_false, Bool.or_eq_true,
      Bool.and_eq_true, decide_eq_true_eq]
    omega

theorem regWrite_unwritable {mid a : Nat} (h : Unwritable a) (v : Word) (w : Work) : regWrite mid a v w = w := by
  have hp := regAbsent_of_not (not_optionalUnit_of_unwritable h) w
  unfold regWrite
  rw [hp, if_neg Bool.false_ne_true]
  obtain h | h := h
  · unfold readOnlyAddrs at h
    fin_cases h <;> rfl
  · simp (disch := omega) only [if_neg]

theorem ofNat_fld_low (k : Nat) (v : Word) : BitVec.ofNat k (fld v 0 k) = v.truncate k := by
  apply BitVec.eq_of_toNat_eq
  simp [fld_eq_div_mod]

theorem regWrite_hifStat (mid : Nat) (v : Word) (w : Work) :
    regWrite mid 0xFE000 v w = { w with d.hif.istat := w.d.hif.istat &&& ~~~(v.truncate 20) } := by
  rw [← ofNat_fld_low]
  unfold regWrite
  rw [regAbsent_of_not (by unfold OptionalUnit; omega)]
  rfl

theorem regWrite_evOvr (mid : Nat) (v : Word) (w : Work) :
    regWrite mid 0x20104 v w = { w with d.cmd.evOvr := w.d.cmd.evOvr && !v.getLsbD 0 } := by
  unfold regWrite
  rw [regAbsent_of_not (by unfold OptionalUnit; omega)]
  rfl

theorem regWrite_ovspd (mid : Nat) (v : Word) (w : Work) :
    regWrite mid 0x20181 v w = { w with d.cmd.ovspd := w.d.cmd.ovspd && !v.getLsbD 0 } := by
  unfold regWrite
  rw [regAbsent_of_not (by unfold OptionalUnit; omega)]
  rfl

end Sys2Proof.Machine

namespace Sys2Proof.Claims

open Sys2Proof.Machine

variable {mid : Fin 32} {a n : Nat} {s : State} {v : Word}

theorem inConfig_begin (s : State) : inConfig (begin_ s) = decide (s.dev.sys.st = .config) := rfl

/-- Outside CONFIG a base register ignores a write. -/
theorem exec_registerWrite_base_before (hl : live s = true) (ha : a ∈ baseAddrs) (hc : s.dev.sys.st ≠ .config) :
    exec (.registerWrite mid a v) s = .next s := by
  have hcfg : inConfig (begin_ s) = false := (inConfig_begin s).trans (decide_eq_false hc)
  exact run_unchanged hl ((masterWrite_unnoted v (.inl hcfg)).trans (regWrite_base_before ha v hcfg))

/-- In CONFIG it takes the base aligned down, and no other one changes. -/
theorem ends_registerWrite_base (hl : live s = true) (ha : (a, n) ∈ baseRegs) (hc : s.dev.sys.st = .config) :
    Ends (.registerWrite mid a v) s fun t =>
      regWord mid a (begin_ t) = BitVec.ofNat 36 (v.toNat % 2 ^ 23 / n * n) ∧ SameMemory s t
        ∧ ∀ b m, (b, m) ∈ baseRegs → b ≠ a → regWord mid b (begin_ t) = regWord mid b (begin_ s) := by
  have hmem {b m : Nat} (h : (b, m) ∈ baseRegs) : b ∈ baseAddrs := List.mem_map_of_mem h
  have hcfg : inConfig (begin_ s) = true := (inConfig_begin s).trans (decide_eq_true hc)
  obtain ⟨r, hr⟩ := masterWrite_frame mid a v (begin_ s)
  rw [regWrite_base_config ha v hcfg] at hr
  have hword {b : Nat} (hb : b ∈ baseAddrs) : regWord mid b (begin_ (commit s (masterWrite mid a v (begin_ s))))
      = wd (if b = a then baseOf n v else baseHeld b s.dev) := by
    rw [regWord_base hb, hr]
    exact congrArg wd (baseHeld_withBase (hmem ha) hb _ _)
  refine ends_run rfl hl ⟨?_, fun x => ?_, fun b m hb hne => ?_⟩
  · rw [hword (hmem ha), if_pos rfl, baseOf, fld_eq_div_mod, pow_zero, Nat.div_one]
    rfl
  · rw [hr]
    rfl
  · rw [hword (hmem hb), if_neg hne, regWord_base (hmem hb)]
    rfl

/-- A register that holds bits which a 1 clears, as its write leaves the units. -/
theorem exec_registerWrite_units {d : Dev} (hl : live s = true) (hn : regCarried a = false)
    (h : regWrite mid a v (begin_ s) = { begin_ s with d := d }) :
    exec (.registerWrite mid a v) s = .next (withDev s d) :=
  run_units (f := masterWrite mid a v) hl ((masterWrite_unnoted v (.inr hn)).trans h)

end Sys2Proof.Claims

namespace Sys2Proof.Proofs

open Sys2Proof.Machine Sys2Proof.Claims

/-- Settles O38: each base register is one field of one unit, and the note for the graft touches none of them. -/
theorem registerWrites : Obligations.RegisterWrites := by
  unfold Obligations.RegisterWrites
  refine ⟨fun mid a n v s hl ha => ⟨fun hc => exec_registerWrite_base_before hl (List.mem_map_of_mem ha) hc,
    fun hc => ends_registerWrite_base hl ha hc⟩, fun mid v s hl => ⟨?stat, ?evOvr, ?ovspd, ?readOnly⟩⟩
  case stat => exact exec_registerWrite_units hl (by decide) (regWrite_hifStat mid v (begin_ s))
  case evOvr => exact exec_registerWrite_units hl (by decide) (regWrite_evOvr mid v (begin_ s))
  case ovspd => exact exec_registerWrite_units hl (by decide) (regWrite_ovspd mid v (begin_ s))
  case readOnly =>
    exact fun a ha => run_unchanged hl
      ((masterWrite_unnoted v (.inr (not_regCarried_of_unwritable ha))).trans (regWrite_unwritable ha v _))

end Sys2Proof.Proofs
end
